-- ==== Sys2Proof/Word.lean ====
section
/-! DEFINITION. The word types of the Lacmiro 6240 model (spec 00_scope, Conventions). -/

namespace Sys2Proof

/-- One byte of the trunk or of the store. -/
abbrev Byte := BitVec 8

/-- A 16-bit field: tags, course numbers, output labels, the 16-bit check (spec 00_scope). -/
abbrev Word16 := BitVec 16

/-- A 32-bit field: lecture numbers, alignment words, the 32-bit check (spec 00_scope). -/
abbrev Word32 := BitVec 32

/-- A media stamp: a 32-bit count of milliseconds, compared modulo 2^32 (spec 00_scope, Stamps). -/
abbrev Stamp := BitVec 32

end Sys2Proof
end

