-- ==== Sys2Proof/Syntax.lean ====
section
/-! DEFINITION. The commands of the part: one constructor of `Instr` for each row of spec/opcode_table.json.
Directives carry their tag and the body fields of spec 11_formats section 11.3, each as it stands on the trunk, so that
an out-of-range value can be said and is refused by its owner. Every other command carries what the world or the sending
block says with it. -/

namespace Sys2Proof

/-- The three kinds of capture (spec 00_scope, Numbering); the order is the code of R193. -/
inductive Role
  | camera | voice | screen
deriving DecidableEq, Repr

/-- An entry of the forward cell map (R174). -/
inductive ForwardEntry
  | free
  | role (slot : Nat) (role : Role)
deriving DecidableEq, Repr

/-- An entry of a CELLMAP_SET body: the position and the two assignment bytes of R193. -/
structure RawMapEntry where
  position : Byte
  first : Byte
  second : Byte
deriving DecidableEq, Repr

/-- A forward frame as received: the header fields of spec 11.2, the control cell and payload cells 2 to 63. -/
structure ForwardFrame where
  word : Word32
  index : Byte
  flags : Byte
  check : Word16
  control : List Byte
  payload : List (List Byte)
deriving DecidableEq, Repr

/-- Where a noticed unit lies in its run, and its status (R58). R62 sends a completed unit's notice 'with the status
BROKEN and the held received count', and R58 lists no received count among a notice's fields: that this one carries none,
the count standing in the unit's suffix alone, is the model's choice (log 82). -/
structure UnitPlace where
  good : Bool
  start : Nat
  stop : Nat
deriving DecidableEq, Repr

/-- A unit notice; `place` is absent in a notice without offsets (R57, R58). -/
structure UnitNotice where
  slot : Nat
  role : Role
  stamp : Stamp
  key : Bool
  place : Option UnitPlace
deriving DecidableEq, Repr

/-- The reasons of a FAILED rendition, in the order of R23. -/
inductive FailReason
  | sourceMalformed | sourceUnreadable | outputLimit | sanity
deriving DecidableEq, Repr

/-- The outcome of a job (R45, R75). -/
inductive JobResult
  | done (extent : Nat)
  | failed (reason : FailReason)
deriving DecidableEq, Repr

/-- How far an operation had come that its limit ended: the pages a READ had returned, and the bytes an APPEND leaves in
its place (R116). -/
structure Unfinished where
  returned : List Nat
  place : List Byte
deriving DecidableEq, Repr

/-- The commands, in the order of spec/opcode_table.json. -/
inductive Instr
  /-- R178. `unreadable`: the pages of block 0 that bank 0 cannot read (R137, R195). -/
  | powerOnReset (unreadable : List Nat)
  /-- R179. The 256 bytes of one delivered forward control cell. -/
  | controlCell (cell : List Byte)
  /-- R188. -/
  | status (tag : Word16)
  /-- R187. -/
  | alarmRetire (tag : Word16)
  /-- R189. -/
  | resetArm (tag : Word16)
  /-- R190, R191. -/
  | reset (tag : Word16) (bodyLength : Byte)
  /-- R172. -/
  | trunkSet (tag : Word16) (checkEnable autoResync idleFill : Byte)
  /-- R173. -/
  | trunkQuery (tag : Word16) (selector clear : Byte)
  /-- R171. -/
  | trunkResync (tag : Word16)
  /-- R175. -/
  | cellmapSet (tag : Word16) (direction activation : Byte) (entries : List RawMapEntry)
  /-- R67, R68: PROFILE_SET with any operation byte but CLEAR. -/
  | profileSetWrite (tag : Word16) (profile operation kind roles bound : Byte) (limit label : Word16)
  /-- R67, R68: PROFILE_SET with operation CLEAR; the fields after the operation are not read. -/
  | profileSetClear (tag : Word16) (profile : Byte)
  /-- R69. -/
  | profileQuery (tag : Word16) (profile : Byte)
  /-- R3 to R5. -/
  | lectureLoad (tag : Word16) (slot : Byte) (number : Word32) (course : Word16)
      (cls roles segLength skew gap count p0 p1 p2 p3 : Byte)
  /-- R6. -/
  | lectureQuery (tag : Word16) (slot : Byte)
  /-- R15. -/
  | lectureClose (tag : Word16) (slot : Byte)
  /-- R17. -/
  | lectureAbort (tag : Word16) (slot : Byte)
  /-- R145, R146. -/
  | lectureRelease (tag : Word16) (slot : Byte) (segment : Word16)
  /-- R148. -/
  | lectureArchive (tag : Word16) (slot : Byte)
  /-- R48. -/
  | segmentQuery (tag : Word16) (slot : Byte) (segment : Word16)
  /-- R88. -/
  | dispatchSet (tag : Word16) (floor preemption : Byte)
  /-- R89. -/
  | queueQuery (tag : Word16) (selector first : Byte)
  /-- R100: LANE_REMOVE without FORCE. -/
  | laneRemove (tag : Word16) (lane : Byte)
  /-- R102: LANE_REMOVE with FORCE. -/
  | laneRemoveForce (tag : Word16) (lane : Byte)
  /-- R103. -/
  | laneRestore (tag : Word16) (lane : Byte)
  /-- R106. -/
  | laneQuery (tag : Word16) (lane : Byte)
  /-- R111. -/
  | groupOn (tag : Word16) (group : Byte)
  /-- R112: GROUP_OFF without FORCE. -/
  | groupOff (tag : Word16) (group : Byte)
  /-- R113: GROUP_OFF with FORCE. -/
  | groupOffForce (tag : Word16) (group : Byte)
  /-- R141. -/
  | storeSet (tag : Word16) (lowMark : Word16)
  /-- R142. -/
  | storeQuery (tag : Word16) (bank : Byte)
  /-- R150. -/
  | fetch (tag : Word16) (channel slot rendition : Byte) (first : Word16) (mode : Byte) (last : Word16)
  /-- R156. -/
  | stop (tag : Word16) (channel : Byte)
  /-- R159. -/
  | channelQuery (tag : Word16) (channel : Byte)
  /-- R163: the next bits of the forward signal, first bit first. -/
  | frameSearch (bits : List Bool)
  /-- R164. -/
  | superframeSearchFrame (frame : ForwardFrame)
  /-- R165. -/
  | checkSearchFrame (frame : ForwardFrame)
  /-- R167. -/
  | inSyncFrame (frame : ForwardFrame)
  /-- R50: one delivered payload cell with its entry of the forward map in force for its frame. -/
  | payloadCell (entry : ForwardEntry) (bytes : List Byte)
  /-- R176. -/
  | returnFrame
  /-- R7. -/
  | gapTimerExpiry (slot : Nat) (role : Role)
  /-- R36. -/
  | skewTimerExpiry (slot : Nat)
  /-- R96. -/
  | sanityTimerExpiry (lane : Nat)
  /-- R104. -/
  | testChunkExpiry (lane : Nat)
  /-- R109. -/
  | risingPhaseEnd (group : Nat)
  /-- R110. -/
  | fallingPhaseEnd (group : Nat)
  /-- R114: the monitor of a group reports FAULT. -/
  | supplyFault (group : Nat)
  /-- R108: the monitor of a group returns to NORMAL. -/
  | supplyMonitorNormal (group : Nat)
  /-- R116. `left`: how far the operation so ended had come. -/
  | storeOpLimit (bank : Nat) (left : Unfinished)
  /-- R131. -/
  | suspendLimit (bank : Nat)
  /-- R131. -/
  | eraseSuspendEffect (bank : Nat)
  /-- R127. `errors`: the pages of the block that end with an uncorrectable error. -/
  | readEnd (bank : Nat) (errors : List Nat)
  /-- R125. -/
  | programEnd (bank : Nat) (success : Bool)
  /-- R118. -/
  | eraseEnd (bank : Nat) (success : Bool)
  /-- R137. `left`: the bytes a failed APPEND leaves in its place. -/
  | appendEnd (success : Bool) (left : List Byte)
  /-- R95. `output`: the last output bytes of the chunk. -/
  | chunkEnd (lane : Nat) (output : List Byte)
  /-- R104. `output`: the output of the test chunk. -/
  | testChunkEnd (lane : Nat) (output : List Byte)
  /-- R93, R97. -/
  | sourceMalformed (lane : Nat)
  /-- R92: the lane asks for `length` bytes of the role's run from `offset`. -/
  | laneReadRequest (lane : Nat) (role : Role) (offset length : Nat)
  /-- R93. `output`: the output bytes the lane writes on with. -/
  | laneBufferRequest (lane : Nat) (output : List Byte)
  /-- R72, R93. `output`: the output bytes the lane writes on with. -/
  | laneBlockRequest (lane : Nat) (output : List Byte)
  /-- R28. -/
  | unitNotice (notice : UnitNotice)
  /-- R10. -/
  | roleEndNotice (slot : Nat) (role : Role)
  /-- R40. -/
  | lateDropReport (slot : Nat) (role : Role) (stamp : Stamp)
  /-- R61. -/
  | overrunReport (slot : Nat)
  /-- R45. -/
  | jobOutcome (slot segment rendition : Nat) (result : JobResult)
  /-- R43, R75. -/
  | jobRecordFreed
  /-- R78, R123. -/
  | extentRecordFreed
  /-- R152: the SGC's notice of a lecture slot to the DLU. -/
  | channelWake (slot : Nat)
  /-- R42, R120. -/
  | sourceLowMark (slot : Nat) (role : Role) (mark : Nat)
  /-- R98: the request names the lane and the job record it holds. -/
  | discardRequest (lane job : Nat)
deriving DecidableEq, Repr

end Sys2Proof
end

