-- ==== Sys2Proof/Machine/Table.lean ====
section
/-! DEFINITION. Numbered records held as sorted lists of (number, record): a number that is not listed has the record's
after-reset value, or no record where absence is what the spec says. -/

namespace Sys2Proof.Machine

/-- Records by number, in increasing number. -/
abbrev Table (α : Type) := List (Nat × α)

/-- The record listed under a number. -/
def Table.at? {α : Type} : Table α → Nat → Option α
  | [], _ => none
  | (k, v) :: t, n => if k = n then some v else Table.at? t n

/-- The record under a number, or the after-reset value. -/
def Table.atD {α : Type} (t : Table α) (n : Nat) (d : α) : α := (t.at? n).getD d

/-- Writes the record under a number, keeping the list in increasing number. -/
def Table.put {α : Type} : Table α → Nat → α → Table α
  | [], n, v => [(n, v)]
  | (k, w) :: t, n, v =>
    if n < k then (n, v) :: (k, w) :: t
    else if n = k then (n, v) :: t
    else (k, w) :: Table.put t n v

/-- Enters a record behind those of numbers no greater; a number may stand more than once. -/
def Table.enter {α : Type} : Table α → Nat → α → Table α
  | [], n, v => [(n, v)]
  | (k, w) :: t, n, v => if n < k then (n, v) :: (k, w) :: t else (k, w) :: Table.enter t n v

/-- Takes the record out from under a number. -/
def Table.del {α : Type} (t : Table α) (n : Nat) : Table α := t.filter (fun e => e.1 != n)

/-- The lowest number below `n` that is not listed, at or after `start` and then from 0. -/
def Table.freeFrom {α : Type} (t : Table α) (n start : Nat) : Option Nat :=
  ((List.range n).map (fun i => (start + i) % n)).find? (fun k => (t.at? k).isNone)

/-- One value for each role. -/
structure PerRole (α : Type) where
  camera : α
  voice : α
  screen : α
deriving DecidableEq, Repr

/-- The value of a role. -/
def PerRole.get {α : Type} (p : PerRole α) : Role → α
  | .camera => p.camera
  | .voice => p.voice
  | .screen => p.screen

/-- Writes the value of a role. -/
def PerRole.set {α : Type} (p : PerRole α) (r : Role) (v : α) : PerRole α :=
  match r with
  | .camera => { p with camera := v }
  | .voice => { p with voice := v }
  | .screen => { p with screen := v }

/-- The same value for every role. -/
def PerRole.all {α : Type} (v : α) : PerRole α := ⟨v, v, v⟩

/-- Applies a function to each role's value. -/
def PerRole.map {α β : Type} (p : PerRole α) (f : Role → α → β) : PerRole β :=
  ⟨f .camera p.camera, f .voice p.voice, f .screen p.screen⟩

/-- The roles in the order of their codes (R193). -/
def allRoles : List Role := [.camera, .voice, .screen]

/-- The roles from highest to lowest rank: CAMERA, SCREEN, VOICE (spec 00_scope, Numbering). -/
def rankedRoles : List Role := [.camera, .screen, .voice]

end Sys2Proof.Machine
end

