-- ==== Sys2Proof/Machine/Operands.lean ====
section
/-! DEFINITION. Field encodings of spec 11_formats R193: byte order, codes of enumerated fields, and stamp comparison
(spec 00_scope, Stamps). -/

namespace Sys2Proof.Machine

/-- One byte. -/
def be1 (n : Nat) : List Byte := [BitVec.ofNat 8 n]

/-- Two bytes, most significant first. -/
def be2 (n : Nat) : List Byte := [BitVec.ofNat 8 (n / 256), BitVec.ofNat 8 n]

/-- Four bytes, most significant first. -/
def be4 (n : Nat) : List Byte := be2 (n / 65536) ++ be2 n

/-- Six bytes, most significant first: a run offset. -/
def be6 (n : Nat) : List Byte := be2 (n / 4294967296) ++ be4 n

/-- The number that bytes spell, most significant first. -/
def beNat (bs : List Byte) : Nat := bs.foldl (fun a b => a * 256 + b.toNat) 0

/-- An indication: 1 when it holds (DESIGN CHOICE, log 18). -/
def flag (b : Bool) : List Byte := be1 (if b then 1 else 0)

/-- A field that may be absent: a presence byte, then the value or zeros (R193). -/
def optField {α : Type} (width : Nat) (enc : α → List Byte) : Option α → List Byte
  | none => 0 :: List.replicate width 0
  | some v => 1 :: enc v

/-- The code of a role (R193). -/
def roleCode : Role → Nat
  | .camera => 0
  | .voice => 1
  | .screen => 2

/-- The role of a code (R193). -/
def roleOfCode : Nat → Option Role
  | 0 => some .camera
  | 1 => some .voice
  | 2 => some .screen
  | _ => none

/-- The presence set of a roles byte: bit 0 CAMERA, bit 1 VOICE, bit 2 SCREEN (R193). -/
def rolesOfByte (b : Byte) : PerRole Bool := ⟨b.getLsbD 0, b.getLsbD 1, b.getLsbD 2⟩

/-- The roles byte of a presence set (R193). -/
def byteOfRoles (p : PerRole Bool) : Nat :=
  (if p.camera then 1 else 0) + (if p.voice then 2 else 0) + (if p.screen then 4 else 0)

/-- Stamp `a` is below stamp `b`: their difference modulo 2^32, read signed, is negative. -/
def stampBelow (a b : Stamp) : Bool := (a - b).slt 0

/-- Stamp `a` is at or beyond stamp `b`. -/
def stampFrom (a b : Stamp) : Bool := !stampBelow a b

/-- Stamp `a` is later than stamp `b`. -/
def stampLater (a b : Stamp) : Bool := stampBelow b a

/-- The bit of a byte list at a bit position, most significant bit of the first byte first. -/
def bitsOfByte (b : Byte) : List Bool :=
  [b.getLsbD 7, b.getLsbD 6, b.getLsbD 5, b.getLsbD 4, b.getLsbD 3, b.getLsbD 2, b.getLsbD 1, b.getLsbD 0]

end Sys2Proof.Machine
end

