-- ==== Sys2Proof/Machine/Flags.lean ====
section
/-! DEFINITION. The check words of spec 11_formats R194. -/

namespace Sys2Proof.Machine

/-- One bit into the 16-bit check register (R194). -/
def check16Bit (r : Word16) (bit : Bool) : Word16 :=
  if (r.msb ^^ bit) then (r <<< 1) ^^^ 0x1021#16 else r <<< 1

/-- One byte, most significant bit first. -/
def check16Byte (r : Word16) (b : Byte) : Word16 := (bitsOfByte b).foldl check16Bit r

/-- Bytes into a running 16-bit check register. -/
def check16From (r : Word16) (bs : List Byte) : Word16 := bs.foldl check16Byte r

/-- The 16-bit check over bytes: start 0xFFFF, no final step (R194). -/
def check16 (bs : List Byte) : Word16 := check16From 0xFFFF#16 bs

/-- One bit into the 32-bit check register (R194). -/
def check32Bit (r : Word32) (bit : Bool) : Word32 :=
  if (r.msb ^^ bit) then (r <<< 1) ^^^ 0x04C11DB7#32 else r <<< 1

/-- One byte, most significant bit first. -/
def check32Byte (r : Word32) (b : Byte) : Word32 := (bitsOfByte b).foldl check32Bit r

/-- Bytes into a running 32-bit check register. -/
def check32From (r : Word32) (bs : List Byte) : Word32 := bs.foldl check32Byte r

/-- The start of the 32-bit check register. -/
def check32Start : Word32 := 0xFFFFFFFF#32

/-- The final step of the 32-bit check: every bit inverted. -/
def check32Final (r : Word32) : Word32 := ~~~r

/-- The 32-bit check over bytes (R194). -/
def check32 (bs : List Byte) : Word32 := check32Final (check32From check32Start bs)

/-- Bytes followed by their 16-bit check, most significant byte first. -/
def withCheck16 (bs : List Byte) : List Byte := bs ++ be2 (check16 bs).toNat

end Sys2Proof.Machine
end

