-- ==== Sys2Proof/WellFormed.lean ====
section
/-! DEFINITION. Which commands the world or a block can send: the ranges of numbers the part has (spec 00_scope,
Numbering) and the lengths of cells and frames (spec 09 section 9.1). Directive fields are not restricted here, because
an out-of-range field is refused by its owner. -/

namespace Sys2Proof

/-- A cell is 256 bytes (spec 09 section 9.1). -/
def cellWf (c : List Byte) : Bool := c.length == 256

/-- A frame carries one control cell and 62 payload cells of 256 bytes. -/
def ForwardFrame.wf (f : ForwardFrame) : Bool :=
  cellWf f.control && f.payload.length == 62 && f.payload.all cellWf

/-- A forward entry names a slot 0 to 31. -/
def ForwardEntry.wf : ForwardEntry → Bool
  | .free => true
  | .role slot _ => slot < 32

/-- A notice names a slot, and its unit does not end before it starts. -/
def UnitNotice.wf (n : UnitNotice) : Bool :=
  n.slot < 32 && (match n.place with
    | none => true
    | some p => decide (p.start ≤ p.stop))

/-- A result names an extent 0 to 4095. -/
def JobResult.wf : JobResult → Bool
  | .done e => e < 4096
  | .failed _ => true

/-- The check of a command. -/
def Instr.wf : Instr → Bool
  | .powerOnReset pages => pages.all (· < 64)
  | .controlCell cell => cellWf cell
  | .status _ => true
  | .alarmRetire _ => true
  | .resetArm _ => true
  | .reset _ len => len.toNat ≤ 250
  | .trunkSet _ _ _ _ => true
  | .trunkQuery _ _ _ => true
  | .trunkResync _ => true
  | .cellmapSet _ _ _ es => es.length ≤ 82
  | .profileSetWrite _ _ op _ _ _ _ _ => op != 0
  | .profileSetClear _ _ => true
  | .profileQuery _ _ => true
  | .lectureLoad _ _ _ _ _ _ _ _ _ _ _ _ _ _ => true
  | .lectureQuery _ _ => true
  | .lectureClose _ _ => true
  | .lectureAbort _ _ => true
  | .lectureRelease _ _ _ => true
  | .lectureArchive _ _ => true
  | .segmentQuery _ _ _ => true
  | .dispatchSet _ _ _ => true
  | .queueQuery _ _ _ => true
  | .laneRemove _ _ => true
  | .laneRemoveForce _ _ => true
  | .laneRestore _ _ => true
  | .laneQuery _ _ => true
  | .groupOn _ _ => true
  | .groupOff _ _ => true
  | .groupOffForce _ _ => true
  | .storeSet _ _ => true
  | .storeQuery _ _ => true
  | .fetch _ _ _ _ _ _ _ => true
  | .stop _ _ => true
  | .channelQuery _ _ => true
  | .frameSearch _ => true
  | .superframeSearchFrame f => f.wf
  | .checkSearchFrame f => f.wf
  | .inSyncFrame f => f.wf
  | .payloadCell e bytes => e.wf && cellWf bytes
  | .returnFrame => true
  | .gapTimerExpiry slot _ => slot < 32
  | .skewTimerExpiry slot => slot < 32
  | .sanityTimerExpiry lane => lane < 12
  | .testChunkExpiry lane => lane < 12
  | .risingPhaseEnd group => group < 3
  | .fallingPhaseEnd group => group < 3
  | .supplyFault group => group < 3
  | .supplyMonitorNormal group => group < 3
  | .storeOpLimit bank left => bank < 4 && left.returned.all (· < 64) && left.place.length ≤ 512
  | .suspendLimit bank => bank < 4
  | .eraseSuspendEffect bank => bank < 4
  | .readEnd bank errors => bank < 4 && errors.all (· < 64)
  | .programEnd bank _ => bank < 4
  | .eraseEnd bank _ => bank < 4
  | .appendEnd _ left => left.length ≤ 512
  | .chunkEnd lane _ => lane < 12
  | .testChunkEnd lane _ => lane < 12
  | .sourceMalformed lane => lane < 12
  | .laneReadRequest lane _ _ length => lane < 12 && 0 < length
  | .laneBufferRequest lane _ => lane < 12
  | .laneBlockRequest lane _ => lane < 12
  | .unitNotice n => n.wf
  | .roleEndNotice slot _ => slot < 32
  | .lateDropReport slot _ _ => slot < 32
  | .overrunReport slot => slot < 32
  | .jobOutcome slot segment rendition r => slot < 32 && segment < 65536 && rendition < 4 && r.wf
  | .jobRecordFreed => true
  | .extentRecordFreed => true
  | .channelWake slot => slot < 32
  | .sourceLowMark slot _ _ => slot < 32
  | .discardRequest lane job => lane < 12 && job < 256

end Sys2Proof
end

