-- ==== Sys2Proof/Decode.lean ====
section
/-! DEFINITION. The opcode table gives no bits, so no word spells a command. What the part does decode is the control
cell: this file reads a directive from a cell's bytes by the envelopes and bodies of spec 11_formats section 11.3, and
writes the cell of a directive from the same tables. -/

namespace Sys2Proof

open Sys2Proof.Machine

/-- No row of spec/opcode_table.json gives bits: a word spells no command. -/
def decodeTableWord (_nbits _w : Nat) : Option Instr := none

/-- A 16-bit field from two bytes. -/
def word16 (a b : Byte) : Word16 := BitVec.ofNat 16 (a.toNat * 256 + b.toNat)

/-- A 32-bit field from four bytes. -/
def word32 (a b c d : Byte) : Word32 :=
  BitVec.ofNat 32 (((a.toNat * 256 + b.toNat) * 256 + c.toNat) * 256 + d.toNat)

/-- The high and low byte of a 16-bit field. -/
def word16Bytes (w : Word16) : List Byte := [BitVec.ofNat 8 (w.toNat / 256), BitVec.ofNat 8 w.toNat]

/-- The four bytes of a 32-bit field. -/
def word32Bytes (w : Word32) : List Byte :=
  [BitVec.ofNat 8 (w.toNat / 16777216), BitVec.ofNat 8 (w.toNat / 65536),
   BitVec.ofNat 8 (w.toNat / 256), BitVec.ofNat 8 w.toNat]

/-- The 16-bit check over bytes 0 to 253 stands in bytes 254 and 255 (spec 11.3). -/
def cellCheckOk (cell : List Byte) : Bool :=
  (cell.drop 254).take 2 == be2 (check16 (cell.take 254)).toNat

/-- Byte 0: the directive code. -/
def cellCode (cell : List Byte) : Byte := cell.getD 0 0

/-- Bytes 1 and 2: the tag. -/
def cellTag (cell : List Byte) : Word16 := word16 (cell.getD 1 0) (cell.getD 2 0)

/-- Byte 3: the body length. -/
def cellLength (cell : List Byte) : Byte := cell.getD 3 0

/-- The body: as many bytes from byte 4 as the body length says. -/
def cellBody (cell : List Byte) : List Byte := (cell.drop 4).take (cellLength cell).toNat

/-- The directive codes of the summary table of spec section 10.8. -/
def knownCodes : List Nat :=
  [0x01, 0x02, 0x03, 0x04, 0x10, 0x11, 0x12, 0x13, 0x20, 0x21, 0x30, 0x31, 0x32, 0x33, 0x34, 0x35, 0x36,
   0x40, 0x41, 0x50, 0x51, 0x52, 0x53, 0x54, 0x60, 0x61, 0x70, 0x71, 0x72]

/-- The entries of a CELLMAP_SET body: three bytes each. -/
def rawEntries : List Byte → List RawMapEntry
  | p :: a :: b :: t => ⟨p, a, b⟩ :: rawEntries t
  | _ => []

/-- The bytes of CELLMAP_SET entries. -/
def rawEntryBytes (es : List RawMapEntry) : List Byte := es.flatMap (fun e => [e.position, e.first, e.second])

/-- The directive of a code, tag and body: none where the body length disagrees with spec 11.3, or where a count that
R179 step 6 tests lies outside its range. -/
def directiveOf (code : Nat) (tag : Word16) (body : List Byte) : Option Instr :=
  match code, body with
  | 0x01, [] => some (.status tag)
  | 0x02, [] => some (.alarmRetire tag)
  | 0x03, [] => some (.resetArm tag)
  | 0x04, [] => some (.reset tag 0)
  | 0x10, [a, b, c] => some (.trunkSet tag a b c)
  | 0x11, [a, b] => some (.trunkQuery tag a b)
  | 0x12, [] => some (.trunkResync tag)
  | 0x13, d :: a :: n :: t =>
    if 1 ≤ n.toNat ∧ n.toNat ≤ 62 ∧ t.length = 3 * n.toNat then some (.cellmapSet tag d a (rawEntries t)) else none
  | 0x20, [p, op, k, r, b, l1, l2, o1, o2] =>
    if op = 0 then some (.profileSetClear tag p)
    else some (.profileSetWrite tag p op k r b (word16 l1 l2) (word16 o1 o2))
  | 0x21, [p] => some (.profileQuery tag p)
  | 0x30, [s, n1, n2, n3, n4, c1, c2, k, r, l, sk, g, cnt, p0, p1, p2, p3] =>
    if 1 ≤ cnt.toNat ∧ cnt.toNat ≤ 4 then
      some (.lectureLoad tag s (word32 n1 n2 n3 n4) (word16 c1 c2) k r l sk g cnt p0 p1 p2 p3)
    else none
  | 0x31, [s] => some (.lectureQuery tag s)
  | 0x32, [s] => some (.lectureClose tag s)
  | 0x33, [s] => some (.lectureAbort tag s)
  | 0x34, [s, a, b] => some (.lectureRelease tag s (word16 a b))
  | 0x35, [s] => some (.lectureArchive tag s)
  | 0x36, [s, a, b] => some (.segmentQuery tag s (word16 a b))
  | 0x40, [a, b] => some (.dispatchSet tag a b)
  | 0x41, [a, b] => some (.queueQuery tag a b)
  | 0x50, [l, f] => some (if f = 0 then .laneRemove tag l else .laneRemoveForce tag l)
  | 0x51, [l] => some (.laneRestore tag l)
  | 0x52, [l] => some (.laneQuery tag l)
  | 0x53, [g] => some (.groupOn tag g)
  | 0x54, [g, f] => some (if f = 0 then .groupOff tag g else .groupOffForce tag g)
  | 0x60, [a, b] => some (.storeSet tag (word16 a b))
  | 0x61, [b] => some (.storeQuery tag b)
  | 0x70, [c, s, r, f1, f2, m, l1, l2] => some (.fetch tag c s r (word16 f1 f2) m (word16 l1 l2))
  | 0x71, [c] => some (.stop tag c)
  | 0x72, [c] => some (.channelQuery tag c)
  | _, _ => none

/-- The directive a check-valid cell holds (spec 11.3). -/
def directiveOfCell (cell : List Byte) : Option Instr :=
  directiveOf (cellCode cell).toNat (cellTag cell) (cellBody cell)

/-- The code, tag and body of a directive (spec 11.3); none for a command that is no directive. The fields a directive
carries but its owner does not read are written zero. -/
def directiveParts : Instr → Option (Nat × Word16 × List Byte)
  | .status t => some (0x01, t, [])
  | .alarmRetire t => some (0x02, t, [])
  | .resetArm t => some (0x03, t, [])
  | .reset t len => some (0x04, t, List.replicate len.toNat 0)
  | .trunkSet t a b c => some (0x10, t, [a, b, c])
  | .trunkQuery t a b => some (0x11, t, [a, b])
  | .trunkResync t => some (0x12, t, [])
  | .cellmapSet t d a es => some (0x13, t, [d, a, BitVec.ofNat 8 es.length] ++ rawEntryBytes es)
  | .profileSetWrite t p op k r b l o => some (0x20, t, [p, op, k, r, b] ++ word16Bytes l ++ word16Bytes o)
  | .profileSetClear t p => some (0x20, t, [p, 0, 0, 0, 0, 0, 0, 0, 0])
  | .profileQuery t p => some (0x21, t, [p])
  | .lectureLoad t s n c k r l sk g cnt p0 p1 p2 p3 =>
    some (0x30, t, [s] ++ word32Bytes n ++ word16Bytes c ++ [k, r, l, sk, g, cnt, p0, p1, p2, p3])
  | .lectureQuery t s => some (0x31, t, [s])
  | .lectureClose t s => some (0x32, t, [s])
  | .lectureAbort t s => some (0x33, t, [s])
  | .lectureRelease t s n => some (0x34, t, [s] ++ word16Bytes n)
  | .lectureArchive t s => some (0x35, t, [s])
  | .segmentQuery t s n => some (0x36, t, [s] ++ word16Bytes n)
  | .dispatchSet t a b => some (0x40, t, [a, b])
  | .queueQuery t a b => some (0x41, t, [a, b])
  | .laneRemove t l => some (0x50, t, [l, 0])
  | .laneRemoveForce t l => some (0x50, t, [l, 1])
  | .laneRestore t l => some (0x51, t, [l])
  | .laneQuery t l => some (0x52, t, [l])
  | .groupOn t g => some (0x53, t, [g])
  | .groupOff t g => some (0x54, t, [g, 0])
  | .groupOffForce t g => some (0x54, t, [g, 1])
  | .storeSet t w => some (0x60, t, word16Bytes w)
  | .storeQuery t b => some (0x61, t, [b])
  | .fetch t c s r f m l => some (0x70, t, [c, s, r] ++ word16Bytes f ++ [m] ++ word16Bytes l)
  | .stop t c => some (0x71, t, [c])
  | .channelQuery t c => some (0x72, t, [c])
  | .powerOnReset _ => none
  | .controlCell _ => none
  | .frameSearch _ => none
  | .superframeSearchFrame _ => none
  | .checkSearchFrame _ => none
  | .inSyncFrame _ => none
  | .payloadCell _ _ => none
  | .returnFrame => none
  | .gapTimerExpiry _ _ => none
  | .skewTimerExpiry _ => none
  | .sanityTimerExpiry _ => none
  | .testChunkExpiry _ => none
  | .risingPhaseEnd _ => none
  | .fallingPhaseEnd _ => none
  | .supplyFault _ => none
  | .supplyMonitorNormal _ => none
  | .storeOpLimit _ _ => none
  | .suspendLimit _ => none
  | .eraseSuspendEffect _ => none
  | .readEnd _ _ => none
  | .programEnd _ _ => none
  | .eraseEnd _ _ => none
  | .appendEnd _ _ => none
  | .chunkEnd _ _ => none
  | .testChunkEnd _ _ => none
  | .sourceMalformed _ => none
  | .laneReadRequest _ _ _ _ => none
  | .laneBufferRequest _ _ => none
  | .laneBlockRequest _ _ => none
  | .unitNotice _ => none
  | .roleEndNotice _ _ => none
  | .lateDropReport _ _ _ => none
  | .overrunReport _ => none
  | .jobOutcome _ _ _ _ => none
  | .jobRecordFreed => none
  | .extentRecordFreed => none
  | .channelWake _ => none
  | .sourceLowMark _ _ _ => none
  | .discardRequest _ _ => none

/-- The envelope of a control cell: code, tag, body length, body, zeros to byte 253, and the check (spec 11.3). -/
def envelope (code : Nat) (tag : Word16) (body : List Byte) : List Byte :=
  withCheck16 ((be1 code ++ word16Bytes tag ++ be1 body.length ++ body
    ++ List.replicate (250 - body.length) 0).take 254)

/-- The control cell of a directive. -/
def cellOfDirective (i : Instr) : Option (List Byte) :=
  (directiveParts i).map (fun p => envelope p.1 p.2.1 p.2.2)

/-- A directive that R179 hands to its owner: one whose cell passes the envelope step. -/
def Instr.handedOver : Instr → Bool
  | .reset _ len => len == 0
  | .cellmapSet _ _ _ es => decide (1 ≤ es.length) && decide (es.length ≤ 62)
  | .profileSetWrite _ _ op _ _ _ _ _ => op != 0
  | .lectureLoad _ _ _ _ _ _ _ _ _ cnt _ _ _ _ => decide (1 ≤ cnt.toNat) && decide (cnt.toNat ≤ 4)
  | i => (directiveParts i).isSome

end Sys2Proof
end

