-- ==== Sys2Proof/Config.lean ====
section
/-! DEFINITION. What one part fixes: the sizes the spec states, and the values it leaves open.
An open value is a constant without a body: no proof can see what it is. -/

namespace Sys2Proof.Config

/-- Bytes of a page (spec 00_scope, Sizes). -/
def pageBytes : Nat := 4096
/-- Pages of a block (spec 00_scope, Sizes). -/
def blockPages : Nat := 64
/-- Bytes of a block: 256 KiB. -/
def blockBytes : Nat := 262144
/-- Blocks of a bank. -/
def bankBlocks : Nat := 4096
/-- Banks on the store port. -/
def banks : Nat := 4
/-- Page buffers (R124). -/
def buffers : Nat := 160
/-- A buffer is given to a lane while more than this many are free (R124). -/
def laneReserve : Nat := 40
/-- A block is given to the intake while more than this many are free (R128). -/
def intakeReserve : Nat := 32
/-- Extent records (R122). -/
def extents : Nat := 4096
/-- Job records (R74). -/
def jobs : Nat := 256
/-- Catalogue entries (R143). -/
def catalogue : Nat := 4096
/-- Places of the bad list (R137). -/
def places : Nat := 512
/-- Bytes of a bad-list place (R195). -/
def placeBytes : Nat := 512
/-- Ticks of the model in one millisecond: a tick is one return frame period, 125 µs (R176). -/
def ticksPerMs : Nat := 8
/-- The part code (R188). -/
def partCode : Nat := 0x6240
/-- The revision (R188). -/
def revision : Nat := 3

/-- FREE VALUE: byte `i` of a bad-list place whose APPEND a reset abandoned, at draw `n` (R116, R137; log 15). -/
opaque abandonedPlaceByte (n i : Nat) : Byte

/-- FREE VALUE: the 32-bit check the loop-around test expects, fixed in the part and not stated (R104; log 35). -/
opaque expectedTestCheck : Word32

end Sys2Proof.Config
end

