-- ==== Sys2Proof/Machine/Records.lean ====
section
/-! DEFINITION. The records of the part: the fields the spec gives each block's state (spec 00_scope, Blocks and the
state they own). Times are in ticks of 125 µs (log 8). -/

namespace Sys2Proof.Machine

/-! ## CCU (R178) -/

/-- The codes of a reply (R180), in the order of spec 11.3. -/
inductive ReplyCode
  | done | pending | format | range | state | busy | interlock | inUse | unknown
deriving DecidableEq, Repr

/-- A reply place reserved for a directive not yet answered (R181). -/
structure Reserved where
  code : Nat
  tag : Word16
deriving DecidableEq, Repr

/-- A reply: directive code, tag, reply code and reply fields (R180). -/
structure Reply where
  code : Nat
  tag : Word16
  result : ReplyCode
  fields : List Byte
deriving DecidableEq, Repr

/-- The 58 event objects (R185). -/
inductive EventObject
  | lecture (slot : Nat)
  | lane (lane : Nat)
  | group (group : Nat)
  | channel (channel : Nat)
  | trunk
  | store
  | part
deriving DecidableEq, Repr

/-- The event kinds, in the order of spec 11.3. -/
inductive EventKind
  | lecture | lane | group | channel | trunk | store | start | alarm
deriving DecidableEq, Repr

/-- A pending event (R184). -/
structure Event where
  object : EventObject
  kind : EventKind
  merge : Nat
  content : List Byte
deriving DecidableEq, Repr

/-- The nine alarm conditions (R186). -/
inductive Condition
  | trunkSync | storeExhausted | groupSupply | badlistFull | storeLow | laneFailed | returnLost | intakeOverrun | jobFailed
deriving DecidableEq, Repr

/-- Which alarm conditions are active (R186). -/
structure Conditions where
  trunkSync : Bool
  storeExhausted : Bool
  groupSupply : Bool
  badlistFull : Bool
  storeLow : Bool
  laneFailed : Bool
  returnLost : Bool
  intakeOverrun : Bool
  jobFailed : Bool
deriving DecidableEq, Repr

/-- The alarm level (R186). -/
inductive AlarmLevel
  | none | minor | major
deriving DecidableEq, Repr

/-- The reset cause (R178). -/
inductive ResetCause
  | power | directive
deriving DecidableEq, Repr

/-- The Control Channel Unit (R178). -/
structure Ccu where
  reserved : List Reserved
  replies : List Reply
  events : List Event
  controlOverrun : Bool
  discards : Nat
  conditions : Conditions
  alarmRetired : Bool
  armed : Bool
  cause : ResetCause
deriving DecidableEq, Repr

/-! ## TRR (R162, R172 to R174) and TRT (R174, R176) -/

/-- The sync states (R162). -/
inductive SyncState
  | searchFrame | searchSuperframe | searchCheck | inSync
deriving DecidableEq, Repr

/-- The loss causes (R162); "absent" is `none`. -/
inductive LossCause
  | alignment | index | check | resync
deriving DecidableEq, Repr

/-- A candidate of SEARCH_FRAME (R163): the bit count at which it is next tested, and whether the complement has
passed. -/
structure Candidate where
  due : Nat
  complementSeen : Bool
deriving DecidableEq, Repr

/-- When a pending map comes into force (R174). -/
inductive Activation
  | next
  | frame (index : Nat)
deriving DecidableEq, Repr

/-- An entry of the return cell map (R174). -/
inductive ReturnEntry
  | free
  | channel (channel : Nat)
deriving DecidableEq, Repr

/-- The Trunk Receiver (R162, R172, R173, R174). In the forward map an unlisted position is FREE.
`lastIndex`: the previous header's index in SEARCH_SUPERFRAME (R164). -/
structure Trr where
  sync : SyncState
  frameCount : Option Nat
  evenExpected : Option Bool
  searchFrames : Nat
  indexRun : Nat
  lastIndex : Nat
  checkResults : List Bool
  alignmentRun : Nat
  indexRunInSync : Nat
  history : List Bool
  lossCause : Option LossCause
  farEndRun : Nat
  shift : Word32
  examined : Nat
  candidates : List Candidate
  superCheck : Option Word16
  checkEnable : Bool
  autoResync : Bool
  idleFill : Byte
  alignmentErrors : Nat
  indexErrors : Nat
  checkErrors : Nat
  controlFailures : Nat
  map : Table ForwardEntry
  pendingMap : Option (Table ForwardEntry × Activation)
deriving DecidableEq, Repr

/-- A return frame as built: its index, header cell, control cell and payload cells 2 to 63 (R176). -/
structure ReturnFrame where
  index : Nat
  header : List Byte
  control : List Byte
  payload : List (List Byte)
deriving DecidableEq, Repr

/-- The Trunk Transmitter (R161, R174, R176). In the return map an unlisted position is FREE. -/
structure Trt where
  nextIndex : Nat
  superCheck : Word16
  map : Table ReturnEntry
  pendingMap : Option (Table ReturnEntry × Activation)
  frame : Option ReturnFrame
deriving DecidableEq, Repr

/-! ## IKU (R49) -/

/-- Parse states (R49). -/
inductive ParseState
  | hunt | header | body
deriving DecidableEq, Repr

/-- Dispositions of a unit in BODY (R49). -/
inductive Disposition
  | append | skip
deriving DecidableEq, Repr

/-- Overrun states (R49). -/
inductive Overrun
  | clear | waiting | completing
deriving DecidableEq, Repr

/-- A unit awaiting completion (R49, R60), with its header bytes (log 20). `good`: the status byte of its suffix was
written GOOD before the refusal (log 21). -/
structure BrokenUnit where
  good : Bool
  start : Nat
  header : List Byte
  stamp : Stamp
  key : Bool
  declared : Nat
  received : Nat
deriving DecidableEq, Repr

/-- An intake record, one for each (slot, role) (R49). `seen4C`: HUNT has just examined a byte 0x4C (R52). -/
structure IntakeRec where
  parse : ParseState
  seen4C : Bool
  header : List Byte
  disposition : Disposition
  declared : Nat
  received : Nat
  unitStart : Option Nat
  writePos : Nat
  lastStamp : Option Stamp
  overrun : Overrun
  broken : Option BrokenUnit
deriving DecidableEq, Repr

/-- The discard setting of a slot (R49, R57). -/
inductive DiscardSetting
  | off
  | all
  | keyOnly (lead : Role) (taken : Bool)
deriving DecidableEq, Repr

/-- The Intake Unit (R49): records by slot × 3 + role code, discard settings by slot. -/
structure Iku where
  recs : Table IntakeRec
  discard : Table DiscardSetting
deriving DecidableEq, Repr

/-! ## SGC (R1, R2, R22 to R47, R65, R143) -/

/-- Classes (R1). -/
inductive LectureClass
  | live | backlog
deriving DecidableEq, Repr

/-- States of a lecture record that is not VACANT (R1). A VACANT record is not listed. -/
inductive LectureState
  | loaded | running | stalled | ending | closed
deriving DecidableEq, Repr

/-- The stretch discard of a lecture (R33). -/
inductive Stretch
  | off | all | keyOnly
deriving DecidableEq, Repr

/-- A cut candidate (R31). -/
structure CutCandidate where
  stamp : Stamp
  offset : Nat
deriving DecidableEq, Repr

/-- The per-role part of a lecture record (R2), with the role's noticed end (R24) and the stamp of the unit it lies
behind (R36, R38), the source low mark last presented (R42) and its cut candidate list (R31). -/
structure RolePart where
  present : Bool
  ended : Bool
  silent : Bool
  gapRunning : Bool
  gapLeft : Nat
  lastStamp : Option Stamp
  floorStamp : Option Stamp
  noticedEnd : Nat
  noticedStamp : Option Stamp
  lowMark : Nat
  candidates : List CutCandidate
deriving DecidableEq, Repr

/-- States of a segment record (R22). -/
inductive SegmentState
  | opened | cutting | sealed | working | complete
deriving DecidableEq, Repr

/-- Cut states of a role range (R24). -/
inductive CutState
  | pending | cut | ended
deriving DecidableEq, Repr

/-- Statuses of a role range (R24). -/
inductive RoleStatus
  | normal | short | empty
deriving DecidableEq, Repr

/-- A role range (R24), with the stamp of its last unit (R36, R38) and whether the skew timer ended it (R36). -/
structure RoleRange where
  startOffset : Option Nat
  startStamp : Option Stamp
  endOffset : Option Nat
  endStamp : Option Stamp
  cut : CutState
  status : RoleStatus
  lastUnit : Option Stamp
  skewEnded : Bool
deriving DecidableEq, Repr

/-- A rendition of a segment record (R23). -/
inductive RenditionState
  | pending
  | done (extent : Nat)
  | failed (reason : FailReason)
deriving DecidableEq, Repr

/-- A segment record (R23), with its skew timer (R36). -/
structure Segment where
  number : Nat
  state : SegmentState
  leadStart : Option Stamp
  target : Option Stamp
  cutRole : Option Role
  cutStamp : Option Stamp
  endStamp : Option Stamp
  duration : Nat
  chunkCount : Nat
  ranges : PerRole RoleRange
  forcedCut : Bool
  postponed : Bool
  damaged : Bool
  lateDrop : Bool
  leadWait : Bool
  renditions : List RenditionState
  skewRunning : Bool
  skewLeft : Nat
deriving DecidableEq, Repr

/-- A lecture record that is not VACANT (R1), with the lecture's segment window, head first (R22). -/
structure Lecture where
  number : Word32
  course : Word16
  cls : LectureClass
  lead : Role
  segLength : Nat
  profiles : List Nat
  skewLimit : Nat
  gapLimit : Nat
  state : LectureState
  base : Option Stamp
  nextSegment : Nat
  nextPublish : Nat
  published : Nat
  aborted : Bool
  endMark : Bool
  forcedCut : Bool
  stretch : Stretch
  parts : PerRole RolePart
  window : List Segment
deriving DecidableEq, Repr

/-- Profile kinds (R65). -/
inductive ProfileKind
  | video | audio | slides
deriving DecidableEq, Repr

/-- A valid profile record (R65). An invalid one is not listed. -/
structure Profile where
  kind : ProfileKind
  roles : PerRole Bool
  bound : Nat
  limit : Nat
  label : Word16
deriving DecidableEq, Repr

/-- A catalogue entry in use (R143). -/
structure CatalogueEntry where
  slot : Nat
  segment : Nat
  rendition : Nat
  extent : Option Nat
  leadStart : Option Stamp
  duration : Nat
  forcedCut : Bool
  postponed : Bool
  damaged : Bool
  lateDrop : Bool
  short : Bool
deriving DecidableEq, Repr

/-- The Segment Controller: lecture table by slot, profile table by number, catalogue in order (R143), admission lists
(R43) and publication wait order (R47). -/
structure Sgc where
  lectures : Table Lecture
  profiles : Table Profile
  catalogue : List CatalogueEntry
  liveAdmission : List (Nat × Nat)
  backlogAdmission : List (Nat × Nat)
  waiting : List Nat
deriving DecidableEq, Repr

/-! ## JDP (R74, R76, R77, R81, R88) -/

/-- A job record in use (R74). It is QUEUED while `lane` is absent and RUNNING while it is present. -/
structure Job where
  slot : Nat
  segment : Nat
  rendition : Nat
  profile : Nat
  cls : LectureClass
  attempts : Nat
  total : Nat
  done : Nat
  extent : Option Nat
  lane : Option Nat
  order : Option Word32
deriving DecidableEq, Repr

/-- The Job Dispatcher: job pool by record number, the two queued lists by record number, head first, the settings of
R88, the dispatch count, the lanes that hold a yield, latest set last (R81, R83), and the jobs that were refused an
extent record and wait for one to be reported freed (R78). -/
structure Jdp where
  jobs : Table Job
  live : List Nat
  backlog : List Nat
  floor : Nat
  preemption : Bool
  count : Word32
  yields : List Nat
  waits : List Nat
deriving DecidableEq, Repr

/-! ## Lanes (R90) and GPC (R108) -/

/-- Lane states (R90). -/
inductive LaneState
  | off | idle | busy | draining | out | test | failed
deriving DecidableEq, Repr

/-- What a lane waits for while HELD (R94). -/
inductive Held
  | none | buffer | block
deriving DecidableEq, Repr

/-- The sanity timer with its time left (R90, R96). -/
inductive SanityTimer
  | running (left : Nat)
  | paused (left : Nat)
  | stopped
deriving DecidableEq, Repr

/-- Last faults of a lane (R90). -/
inductive LaneFault
  | sanity | testMismatch | testExpiry | supply
deriving DecidableEq, Repr

/-- A source page returned to a lane, by its role and the run offset of its first byte (R127; log 11). -/
structure SourcePage where
  role : Role
  offset : Nat
  bytes : List Byte
deriving DecidableEq, Repr

/-- A lane's reading of one role (R91, R92): whether it still walks to its chunk, the run offset of the unit it
examines, the run offset up to which it has asked for pages, and whether it has reached the chunk's end. -/
structure SourceRead where
  walking : Bool
  unit : Nat
  asked : Nat
  reached : Bool
deriving DecidableEq, Repr

/-- A lane record (R90). The yield is the JDP's (`Jdp.yields`). `output`: output bytes made and not yet written
(log 10). `reads`: the reading of each role in the walk or the chunk (R91, R92), with the source pages returned to it in
`received` (log 11). `scratch`: the lane's private scratch memory, absent while it is powered down (R104, R109, R110;
log 61). -/
structure Lane where
  state : LaneState
  job : Option Nat
  chunk : Nat
  held : Held
  timer : SanityTimer
  testChunk : Nat
  testCheck : Word32
  fault : Option LaneFault
  positions : PerRole (Option Nat)
  output : List Byte
  reads : PerRole (Option SourceRead)
  received : List SourcePage
  scratch : Option (List Byte)
deriving DecidableEq, Repr

/-- Group states (R108). -/
inductive GroupState
  | off | rising | on | falling
deriving DecidableEq, Repr

/-- Phases of RISING and FALLING (R108). -/
inductive Phase
  | supply | memory | clock
deriving DecidableEq, Repr

/-- A lane group record (R108), with its supply enable output (R109, R110). -/
structure Group where
  state : GroupState
  phase : Option Phase
  left : Nat
  monitorFault : Bool
  enable : Bool
deriving DecidableEq, Repr

/-! ## STC (R117 to R142) -/

/-- Block-table states (R117); `guarded` is PROTECTED. -/
inductive BlockState
  | reserved | free | opened | sealed | guarded | retired | erasing | bad
deriving DecidableEq, Repr

/-- A block-table record: state and lost-page set (R117). -/
structure BlockRec where
  state : BlockState
  lost : List Nat
deriving DecidableEq, Repr

/-- What owns blocks: a run or an extent. -/
inductive Owner
  | run (slot : Nat) (role : Role)
  | extent (number : Nat)
deriving DecidableEq, Repr

/-- What owns a page buffer (R124). -/
inductive BufOwner
  | own (o : Owner)
  | relocation (o : Owner)
deriving DecidableEq, Repr

/-- States of a page buffer in use (R124). A FREE buffer is not listed. -/
inductive BufState
  | filling | pending | programming
deriving DecidableEq, Repr

/-- A page buffer in use (R124). The fill count is the number of its bytes. `held`: kept for a relocation (R133).
`discarded`: an owner discard reached it while PROGRAMMING (R126). -/
structure Buf where
  state : BufState
  owner : BufOwner
  block : Nat
  page : Nat
  data : List Byte
  committed : Nat
  held : Bool
  discarded : Bool
deriving DecidableEq, Repr

/-- A run record (R119). Its FILLING buffer, claim and relocation stand in the tables of those. `lowMark`: the source
low mark last taken (R120). `closed`: its tail was closed (R119). -/
structure Run where
  blocks : List Nat
  headOffset : Nat
  lastBank : Option Nat
  lowMark : Nat
  closed : Bool
deriving DecidableEq, Repr

/-- States of an extent record in use (R122). -/
inductive ExtentState
  | writing | closed | published
deriving DecidableEq, Repr

/-- An extent record in use (R122). -/
structure Extent where
  slot : Nat
  segment : Nat
  rendition : Nat
  blocks : List Nat
  committed : Nat
  state : ExtentState
deriving DecidableEq, Repr

/-- A relocation (R133, R134). `active`: it is its owner's relocation in progress; else it waits for the one before it.
`next`: the next page to copy. `copying`: pages being read or programmed. `final`: the failing page is being programmed
into the target. -/
structure Relocation where
  owner : Owner
  failed : Nat
  page : Nat
  active : Bool
  target : Option Nat
  next : Nat
  copying : List Nat
  final : Bool
deriving DecidableEq, Repr

/-- Who waits (R129). -/
inductive Claimant
  | relocation (o : Owner) (failed : Nat)
  | lane (lane : Nat)
  | run (slot : Nat) (role : Role)
deriving DecidableEq, Repr

/-- What is waited for (R129). -/
inductive ClaimKind
  | block | buffer
deriving DecidableEq, Repr

/-- A waiting claim (R129). -/
structure Claim where
  who : Claimant
  kind : ClaimKind
deriving DecidableEq, Repr

/-- Who asked for a READ (R127). A lane names the role and the run offset at which the block begins, a channel the body
page (R153). -/
inductive Reader
  | lane (lane : Nat) (role : Role) (base : Nat)
  | channel (channel : Nat) (bodyPage : Nat)
  | relocation (o : Owner)
deriving DecidableEq, Repr

/-- A READ burst of pages of one block, with the byte range asked for within the block (R127). -/
structure ReadReq where
  reader : Reader
  block : Nat
  pages : List Nat
  low : Nat
  high : Nat
deriving DecidableEq, Repr

/-- A PROGRAM of a buffer into a page of a block. -/
structure ProgramReq where
  buffer : Nat
  block : Nat
  page : Nat
deriving DecidableEq, Repr

/-- A request of the relocation copy class: reads, programs and APPENDs (R130, R137). -/
inductive CopyReq
  | read (r : ReadReq)
  | program (p : ProgramReq)
  | append (block : Nat)
deriving DecidableEq, Repr

/-- The operation a bank performs, an erase apart (R116). `wanted`: the requester has not withdrawn (R127). -/
inductive BankOp
  | read (r : ReadReq) (wanted : Bool)
  | program (p : ProgramReq)
  | append (block place : Nat)
deriving DecidableEq, Repr

/-- The state of the erase a bank holds (R131). -/
inductive EraseState
  | running | commanded | suspended
deriving DecidableEq, Repr

/-- The erase a bank holds (R130, R131). `scrub`: the scrub placed its block (R139). -/
structure Erase where
  block : Nat
  state : EraseState
  suspends : Nat
  scrub : Bool
deriving DecidableEq, Repr

/-- A bank: its lists (R118), its arbiter's queues of classes 1 to 5 (R130), and what it performs. `scrub`: how many
blocks at the head of the erase queue the scrub placed (R139). -/
structure Bank where
  free : List Nat
  eraseQueue : List Nat
  scrub : Nat
  erase : Option Erase
  op : Option BankOp
  intakeProgram : List ProgramReq
  deliveryRead : List ReadReq
  laneRead : List ReadReq
  laneProgram : List ProgramReq
  copy : List CopyReq
deriving DecidableEq, Repr

/-- Store levels (R140). -/
inductive StoreLevel
  | normal | low | exhausted
deriving DecidableEq, Repr

/-- The Store Controller. In the block table an unlisted block is RETIRED with no lost page; page buffers, runs (by
slot × 3 + role code) and extents not listed are FREE, absent and free. -/
structure Stc where
  blocks : Table BlockRec
  banks : Table Bank
  buffers : Table Buf
  runs : Table Run
  extents : Table Extent
  relocations : List Relocation
  claims : List Claim
  ready : Bool
  scrubRemaining : Nat
  lowMark : Nat
  level : StoreLevel
  emptyPlaces : List Nat
  spoiled : Nat
  unreadable : List Nat
  extentPick : Nat
deriving DecidableEq, Repr

/-! ## DLU (R149) -/

/-- Channel states (R149). -/
inductive ChannelState
  | idle | sending | waiting
deriving DecidableEq, Repr

/-- Fetch modes (R150). -/
inductive FetchMode
  | range (last : Nat)
  | follow
deriving DecidableEq, Repr

/-- Items of a channel's output (R149). -/
inductive Item
  | header | body | trailer | ending
deriving DecidableEq, Repr

/-- A staging place (R149, R153). -/
inductive Staging
  | empty
  | requested (page : Nat)
  | full (page : Nat) (bytes : List Byte)
deriving DecidableEq, Repr

/-- Body outcomes and trailer statuses (R149). -/
inductive BodyOutcome
  | ok | readError | stopped
deriving DecidableEq, Repr

/-- How a fetch ended (R149). -/
inductive LastEnding
  | ended | stopped
deriving DecidableEq, Repr

/-- The fetch fields of an active channel (R149, R150). -/
structure Fetch where
  slot : Nat
  rendition : Nat
  mode : FetchMode
  first : Nat
deriving DecidableEq, Repr

/-- A channel record (R149). `bytes`: bytes of the built header, trailer or END header not yet placed. `hasBody`: a body
and a trailer follow the header. `placed`: body bytes placed. `nextPage`: the next body page to request. `padFrom`:
the first padded body byte (R154). `cutDue`: the next bytes begin a new cell under the cut mark (R157). `lastHeader`:
the last segment whose header this fetch placed (R155). -/
structure Channel where
  state : ChannelState
  fetch : Option Fetch
  current : Option Nat
  item : Option Item
  position : Nat
  bytes : List Byte
  hasBody : Bool
  extent : Option Nat
  bodyLength : Nat
  placed : Nat
  nextPage : Nat
  padFrom : Option Nat
  place0 : Staging
  place1 : Staging
  bodyCheck : Word32
  outcome : BodyOutcome
  lastTrailer : Option BodyOutcome
  stopRequested : Bool
  cutDue : Bool
  sent : Nat
  lastHeader : Option Nat
  lastEnding : Option LastEnding
deriving DecidableEq, Repr

end Sys2Proof.Machine
end

