-- ==== Sys2Proof/Machine/Reset.lean ====
section
/-! DEFINITION. The value of each block's state after either kind of reset, as the chapters state it. -/

namespace Sys2Proof.Machine

/-- No condition but TRUNK_SYNC is active (R178). -/
def Conditions.reset : Conditions :=
  ⟨true, false, false, false, false, false, false, false, false⟩

/-- The receiver after reset (R162, R172 to R174). -/
def Trr.reset : Trr where
  sync := .searchFrame
  frameCount := none
  evenExpected := none
  searchFrames := 0
  indexRun := 0
  lastIndex := 0
  checkResults := []
  alignmentRun := 0
  indexRunInSync := 0
  history := []
  lossCause := none
  farEndRun := 0
  shift := 0
  examined := 0
  candidates := []
  superCheck := none
  checkEnable := true
  autoResync := true
  idleFill := 0x5A
  alignmentErrors := 0
  indexErrors := 0
  checkErrors := 0
  controlFailures := 0
  map := []
  pendingMap := none

/-- The transmitter after reset (R161, R174, R176). -/
def Trt.reset : Trt where
  nextIndex := 0
  superCheck := 0xFFFF
  map := []
  pendingMap := none
  frame := none

/-- An intake record after reset (R49). -/
def IntakeRec.reset : IntakeRec where
  parse := .hunt
  seen4C := false
  header := []
  disposition := .append
  declared := 0
  received := 0
  unitStart := none
  writePos := 0
  lastStamp := none
  overrun := .clear
  broken := none

/-- A lane after reset (R90). -/
def Lane.reset : Lane where
  state := .off
  job := none
  chunk := 0
  held := .none
  timer := .stopped
  testChunk := 0
  testCheck := check32Start
  fault := none
  positions := PerRole.all none
  output := []
  reads := PerRole.all none
  received := []
  scratch := none

/-- A lane group after reset (R108). The monitor, and the phase timer of a group in no phase, which stands at 0, are the
model's choice (log 17). -/
def Group.reset : Group where
  state := .off
  phase := none
  left := 0
  monitorFault := false
  enable := false

/-- A channel after reset (R149). The body check and the body length are the model's choice (log 17). -/
def Channel.reset : Channel where
  state := .idle
  fetch := none
  current := none
  item := none
  position := 0
  bytes := []
  hasBody := false
  extent := none
  bodyLength := 0
  placed := 0
  nextPage := 0
  padFrom := none
  place0 := .empty
  place1 := .empty
  bodyCheck := check32Start
  outcome := .ok
  lastTrailer := none
  stopRequested := false
  cutDue := false
  sent := 0
  lastHeader := none
  lastEnding := none

/-- A bank with nothing in any list or queue (R130). -/
def Bank.empty : Bank where
  free := []
  eraseQueue := []
  scrub := 0
  erase := none
  op := none
  intakeProgram := []
  deliveryRead := []
  laneRead := []
  laneProgram := []
  copy := []

/-- A block that no table line names: RETIRED, no lost page (R117). -/
def BlockRec.reset : BlockRec := ⟨.retired, []⟩

/-- The blocks of a bank in increasing block index, block 0 and the listed bad blocks left out (R139). -/
def scrubBlocks (bad : List Nat) (bank : Nat) : List Nat :=
  (List.range' (bank * 4096) 4096).filter (fun g => g != 0 && !bad.contains g)

/-- A bank as the scrub starts: every queue of its arbiter is empty, so the erase of its first block has been granted
(R130, R139). -/
def Bank.scrubStart (bad : List Nat) (bank : Nat) : Bank :=
  match scrubBlocks bad bank with
  | [] => Bank.empty
  | g :: rest =>
    { Bank.empty with
      eraseQueue := rest, scrub := 4095 - (if bank = 0 then 1 else 0) - (bad.filter (fun b => b / 4096 == bank)).length,
      erase := some ⟨g, .running, 0, true⟩ }

/-- The block table as the scrub starts: block 0 RESERVED, the listed blocks BAD, each bank's first block ERASING. -/
def scrubTable (bad : List Nat) : Table BlockRec :=
  let start : Table BlockRec := bad.foldl (fun t b => t.put b ⟨.bad, []⟩) (Table.put [] 0 ⟨.reserved, []⟩)
  [0, 1, 2, 3].foldl
    (fun t b => match (Bank.scrubStart bad b).erase with
      | none => t
      | some e => t.put e.block ⟨.erasing, []⟩) start

/-- The STC after reset (R117 to R140), from the sorted bad list: the blocks it names, its empty places, how many places
are spoiled, and the pages of block 0 the bank cannot read. With no block to scrub the part is READY at once (R139). -/
def Stc.afterReset (bad emptyPlaces : List Nat) (spoiled : Nat) (unreadable : List Nat) (pick : Nat) : Stc where
  blocks := scrubTable bad
  banks := [(0, Bank.scrubStart bad 0), (1, Bank.scrubStart bad 1), (2, Bank.scrubStart bad 2),
    (3, Bank.scrubStart bad 3)]
  buffers := []
  runs := []
  extents := []
  relocations := []
  claims := []
  ready := 16383 - bad.length == 0
  scrubRemaining := 16383 - bad.length
  lowMark := 512
  level := .normal
  emptyPlaces := emptyPlaces
  spoiled := spoiled
  unreadable := unreadable
  extentPick := pick

/-- The nine conditions in the order of R186, one byte each: 1 active, 0 inactive (log 18). -/
def conditionBytes (c : Conditions) : List Byte :=
  flag c.trunkSync ++ flag c.storeExhausted ++ flag c.groupSupply ++ flag c.badlistFull ++ flag c.storeLow
    ++ flag c.laneFailed ++ flag c.returnLost ++ flag c.intakeOverrun ++ flag c.jobFailed

/-- The alarm level: MAJOR over MINOR over NONE (R186). -/
def alarmLevel (c : Conditions) : AlarmLevel :=
  if c.trunkSync || c.storeExhausted || c.groupSupply || c.badlistFull then .major
  else if c.storeLow || c.laneFailed || c.returnLost || c.intakeOverrun || c.jobFailed then .minor
  else .none

/-- The code of an alarm level (spec 11.2). -/
def alarmLevelCode : AlarmLevel → Nat
  | .none => 0
  | .minor => 1
  | .major => 2

/-- The code of a reset cause (R178, R193). -/
def causeCode : ResetCause → Nat
  | .power => 0
  | .directive => 1

/-- The content of an ALARM event (R186). -/
def alarmContent (c : Conditions) (retired : Bool) : List Byte :=
  conditionBytes c ++ be1 (alarmLevelCode (alarmLevel c)) ++ flag retired

/-- The content of a START event (R192). -/
def startContent (cause : ResetCause) (c : Conditions) (retired : Bool) : List Byte :=
  be1 (causeCode cause) ++ be2 Config.partCode ++ be1 Config.revision ++ alarmContent c retired

/-- The CCU after reset: the START event alone is queued (R178, R192). -/
def Ccu.afterReset (cause : ResetCause) : Ccu where
  reserved := []
  replies := []
  events := [⟨.part, .start, 0, startContent cause Conditions.reset false⟩]
  controlOverrun := false
  discards := 0
  conditions := Conditions.reset
  alarmRetired := false
  armed := false
  cause := cause

/-- The SGC after reset (R1, R43, R47, R65, R143). -/
def Sgc.reset : Sgc := ⟨[], [], [], [], [], []⟩

/-- The JDP after reset (R74, R76, R88). -/
def Jdp.reset : Jdp := ⟨[], [], [], 2, true, 0, [], []⟩

end Sys2Proof.Machine
end

