-- ==== Sys2Proof/Machine/State.lean ====
section
/-! DEFINITION. The state of the part: every register, record, list and buffer the spec names, grouped by the block that
owns it (spec 00_scope, Blocks and the state they own), the queue of waiting commands, and the messages under way
between blocks. -/

namespace Sys2Proof.Machine

/-! ## The state -/

/-- The part: the queue of waiting commands, the messages under way, the ten blocks, the banks' contents (`mem`, by
global block × 262144 + offset, an unlisted byte reads 0xFF), and the supply of free values. -/
structure State where
  pending : List Instr
  sent : List Instr
  ccu : Ccu
  trr : Trr
  trt : Trt
  iku : Iku
  sgc : Sgc
  jdp : Jdp
  lanes : Table Lane
  groups : Table Group
  stc : Stc
  mem : List Host.Cell
  channels : Table Channel
  freeDraws : Nat
deriving DecidableEq, Repr

/-- No command of this block stops with a fault: every failure the spec names has a rule that says what follows
(log 37). -/
inductive Fault
deriving DecidableEq, Repr

/-- Refusals. Only a command without a meaning would be refused; every command has one (log 37). -/
inductive Refusal
  /-- Raised by exec's arm of a command that has no meaning yet: safe. -/
  | notModelled (mnemonic : String)
deriving DecidableEq, Repr

/-- The part right after power-on reset: no command waits, no message is under way, the banks read 0xFF throughout and
no bad block is listed (log 12). -/
def State.reset : State where
  pending := []
  sent := []
  ccu := Ccu.afterReset .power
  trr := Trr.reset
  trt := Trt.reset
  iku := ⟨[], []⟩
  sgc := Sgc.reset
  jdp := Jdp.reset
  lanes := []
  groups := []
  stc := Stc.afterReset [] (List.range 512) 0 [] 0
  mem := []
  channels := []
  freeDraws := 0

end Sys2Proof.Machine
end

