-- ==== Sys2Proof/Machine/Ops.lean ====
section
/-! DEFINITION. The named operations every block shares: reading and writing one record, sending and taking a message,
and the CCU's operations on replies, events and alarm conditions (R181, R184, R186). -/

namespace Sys2Proof.Machine

/-! ## Records by number -/

/-- The key of a (slot, role) pair in the tables of intake and run records. -/
def roleKey (slot : Nat) (r : Role) : Nat := slot * 3 + roleCode r

/-- The record of a lane (R90). -/
def State.lane (s : State) (n : Nat) : Lane := s.lanes.atD n Lane.reset
/-- Writes the record of a lane. -/
def State.setLane (s : State) (n : Nat) (l : Lane) : State := { s with lanes := s.lanes.put n l }

/-- The record of a lane group (R108). -/
def State.group (s : State) (g : Nat) : Group := s.groups.atD g Group.reset
/-- Writes the record of a lane group. -/
def State.setGroup (s : State) (g : Nat) (x : Group) : State := { s with groups := s.groups.put g x }

/-- The record of a channel (R149). -/
def State.channel (s : State) (c : Nat) : Channel := s.channels.atD c Channel.reset
/-- Writes the record of a channel. -/
def State.setChannel (s : State) (c : Nat) (x : Channel) : State := { s with channels := s.channels.put c x }

/-- The lecture record of a slot; absent while VACANT (R1). -/
def State.lecture? (s : State) (slot : Nat) : Option Lecture := s.sgc.lectures.at? slot
/-- Writes the lecture record of a slot. -/
def State.setLecture (s : State) (slot : Nat) (l : Lecture) : State :=
  { s with sgc := { s.sgc with lectures := s.sgc.lectures.put slot l } }

/-- The intake record of a (slot, role) (R49). -/
def State.intake (s : State) (slot : Nat) (r : Role) : IntakeRec := s.iku.recs.atD (roleKey slot r) IntakeRec.reset
/-- Writes an intake record. -/
def State.setIntake (s : State) (slot : Nat) (r : Role) (x : IntakeRec) : State :=
  { s with iku := { s.iku with recs := s.iku.recs.put (roleKey slot r) x } }

/-- The discard setting of a slot (R49). -/
def State.discard (s : State) (slot : Nat) : DiscardSetting := s.iku.discard.atD slot .off
/-- Writes the discard setting of a slot. -/
def State.setDiscard (s : State) (slot : Nat) (d : DiscardSetting) : State :=
  { s with iku := { s.iku with discard := s.iku.discard.put slot d } }

/-- A bank (R130). -/
def State.bank (s : State) (b : Nat) : Bank := s.stc.banks.atD b Bank.empty
/-- Writes a bank. -/
def State.setBank (s : State) (b : Nat) (x : Bank) : State :=
  { s with stc := { s.stc with banks := s.stc.banks.put b x } }

/-- The block-table record of a global block (R117). -/
def State.block (s : State) (g : Nat) : BlockRec := s.stc.blocks.atD g BlockRec.reset
/-- Writes a block-table record. -/
def State.setBlock (s : State) (g : Nat) (x : BlockRec) : State :=
  { s with stc := { s.stc with blocks := s.stc.blocks.put g x } }
/-- Changes a block's state and keeps its lost-page set. -/
def State.setBlockState (s : State) (g : Nat) (st : BlockState) : State :=
  s.setBlock g { s.block g with state := st }

/-- The bank of a global block: the block number divided by 4096. -/
def bankOf (g : Nat) : Nat := g / 4096

/-- The run record of a (slot, role) (R119). -/
def State.run? (s : State) (slot : Nat) (r : Role) : Option Run := s.stc.runs.at? (roleKey slot r)
/-- Writes a run record. -/
def State.setRun (s : State) (slot : Nat) (r : Role) (x : Run) : State :=
  { s with stc := { s.stc with runs := s.stc.runs.put (roleKey slot r) x } }

/-- The extent record of a number, when in use (R122). -/
def State.extent? (s : State) (n : Nat) : Option Extent := s.stc.extents.at? n
/-- Writes an extent record. -/
def State.setExtent (s : State) (n : Nat) (x : Extent) : State :=
  { s with stc := { s.stc with extents := s.stc.extents.put n x } }

/-- A page buffer in use (R124). -/
def State.buf? (s : State) (i : Nat) : Option Buf := s.stc.buffers.at? i
/-- Writes a page buffer. -/
def State.setBuf (s : State) (i : Nat) (x : Buf) : State :=
  { s with stc := { s.stc with buffers := s.stc.buffers.put i x } }
/-- Makes a page buffer FREE. -/
def State.freeBuf (s : State) (i : Nat) : State :=
  { s with stc := { s.stc with buffers := s.stc.buffers.del i } }

/-- A job record in use (R74). -/
def State.job? (s : State) (j : Nat) : Option Job := s.jdp.jobs.at? j
/-- Writes a job record. -/
def State.setJob (s : State) (j : Nat) (x : Job) : State := { s with jdp := { s.jdp with jobs := s.jdp.jobs.put j x } }

/-- A valid profile record (R65). -/
def State.profile? (s : State) (p : Nat) : Option Profile := s.sgc.profiles.at? p

/-! ## Messages under way -/

/-- Sends a message: it joins those under way (log 1). -/
def State.send (s : State) (m : Instr) : State := { s with sent := s.sent ++ [m] }

/-- Takes a message: it is under way no more (log 1). -/
def State.received (s : State) (m : Instr) : State := { s with sent := s.sent.erase m }

/-! ## Alarm conditions and events (R184, R186) -/

/-- Whether a condition is active. -/
def Conditions.get (c : Conditions) : Condition → Bool
  | .trunkSync => c.trunkSync
  | .storeExhausted => c.storeExhausted
  | .groupSupply => c.groupSupply
  | .badlistFull => c.badlistFull
  | .storeLow => c.storeLow
  | .laneFailed => c.laneFailed
  | .returnLost => c.returnLost
  | .intakeOverrun => c.intakeOverrun
  | .jobFailed => c.jobFailed

/-- Makes a condition active or inactive. -/
def Conditions.set (c : Conditions) (k : Condition) (b : Bool) : Conditions :=
  match k with
  | .trunkSync => { c with trunkSync := b }
  | .storeExhausted => { c with storeExhausted := b }
  | .groupSupply => { c with groupSupply := b }
  | .badlistFull => { c with badlistFull := b }
  | .storeLow => { c with storeLow := b }
  | .laneFailed => { c with laneFailed := b }
  | .returnLost => { c with returnLost := b }
  | .intakeOverrun => { c with intakeOverrun := b }
  | .jobFailed => { c with jobFailed := b }

/-- Whether a condition is active (R186). -/
def State.condition (s : State) (k : Condition) : Bool := s.ccu.conditions.get k

/-- Queues or rewrites the event of an object in a list of pending events (R184): a rewrite keeps the place and raises
the merge count, saturating at 255. -/
def putEvent : List Event → EventObject → EventKind → List Byte → List Event
  | [], o, k, c => [⟨o, k, 0, c⟩]
  | e :: t, o, k, c =>
    if e.object = o then { e with kind := k, merge := min 255 (e.merge + 1), content := c } :: t
    else e :: putEvent t o k c

/-- Queues an event for an object (R184). -/
def State.queueEvent (s : State) (o : EventObject) (k : EventKind) (content : List Byte) : State :=
  { s with ccu := { s.ccu with events := putEvent s.ccu.events o k content } }

/-- Whether a START event is pending for the PART object (R186). -/
def State.startPending (s : State) : Bool := s.ccu.events.any (fun e => e.object == .part && e.kind == .start)

/-- Queues the ALARM event of the PART object; a pending START event keeps its kind and its reset cause (R186). -/
def State.queueAlarm (s : State) : State :=
  if s.startPending then
    s.queueEvent .part .start (startContent s.ccu.cause s.ccu.conditions s.ccu.alarmRetired)
  else s.queueEvent .part .alarm (alarmContent s.ccu.conditions s.ccu.alarmRetired)

/-- Raises a condition: a newly active one clears ALARM_RETIRED and queues an ALARM event (R186). -/
def State.raise (s : State) (k : Condition) : State :=
  if s.condition k then s
  else State.queueAlarm
    { s with ccu := { s.ccu with conditions := s.ccu.conditions.set k true, alarmRetired := false } }

/-- Lowers a condition (R186). -/
def State.lower (s : State) (k : Condition) : State :=
  { s with ccu := { s.ccu with conditions := s.ccu.conditions.set k false } }

/-- Raises a level condition while its cause holds, lowers it otherwise (R186). -/
def State.level (s : State) (k : Condition) (holds : Bool) : State := if holds then s.raise k else s.lower k

/-! ## Replies (R180, R181) -/

/-- The reply places in use, reserved and filled (R181). -/
def State.placesInUse (s : State) : Nat := s.ccu.reserved.length + s.ccu.replies.length

/-- Reserves a reply place (R181). -/
def State.reserve (s : State) (code : Nat) (tag : Word16) : State :=
  { s with ccu := { s.ccu with reserved := s.ccu.reserved ++ [⟨code, tag⟩] } }

/-- Queues a reply: it fills the place reserved for its directive (R181). -/
def State.reply (s : State) (code : Nat) (tag : Word16) (result : ReplyCode) (fields : List Byte) : State :=
  { s with ccu := { s.ccu with
      reserved := s.ccu.reserved.erase ⟨code, tag⟩, replies := s.ccu.replies ++ [⟨code, tag, result, fields⟩] } }

/-! ## Codes of states, causes and reasons (R193: position in the list of the rule) -/

/-- The code of a lecture state (R1); VACANT is 0. -/
def lectureStateCode : LectureState → Nat
  | .loaded => 1
  | .running => 2
  | .stalled => 3
  | .ending => 4
  | .closed => 5

/-- The code of a lane state (R90). -/
def laneStateCode : LaneState → Nat
  | .off => 0
  | .idle => 1
  | .busy => 2
  | .draining => 3
  | .out => 4
  | .test => 5
  | .failed => 6

/-- The code of a last fault (R90); "Absent" stands first in the rule's list. -/
def laneFaultCode : LaneFault → Nat
  | .sanity => 1
  | .testMismatch => 2
  | .testExpiry => 3
  | .supply => 4

/-- The code of a group state (R108). -/
def groupStateCode : GroupState → Nat
  | .off => 0
  | .rising => 1
  | .on => 2
  | .falling => 3

/-- The code of a channel state (R149). -/
def channelStateCode : ChannelState → Nat
  | .idle => 0
  | .sending => 1
  | .waiting => 2

/-- The code of a sync state (R162). -/
def syncStateCode : SyncState → Nat
  | .searchFrame => 0
  | .searchSuperframe => 1
  | .searchCheck => 2
  | .inSync => 3

/-- The code of a loss cause (R162); "Absent" stands first in the rule's list. -/
def lossCauseCode : LossCause → Nat
  | .alignment => 1
  | .index => 2
  | .check => 3
  | .resync => 4

/-- The code of a store level (R140). -/
def storeLevelCode : StoreLevel → Nat
  | .normal => 0
  | .low => 1
  | .exhausted => 2

/-- The code of a class (R193). -/
def classCode : LectureClass → Nat
  | .live => 0
  | .backlog => 1

/-- The code of a body outcome (spec 11.5). -/
def bodyOutcomeCode : BodyOutcome → Nat
  | .ok => 0
  | .readError => 1
  | .stopped => 2

/-- The code of a last ending (R149); "Absent" stands first in the rule's list. -/
def lastEndingCode : LastEnding → Nat
  | .ended => 1
  | .stopped => 2

/-- The code of a last trailer status (R149); "Absent" stands first in the rule's list. -/
def lastTrailerCode : BodyOutcome → Nat
  | .ok => 1
  | .readError => 2
  | .stopped => 3

/-- The code of the part state (spec 11.2): SCRUBBING 0, READY 1. -/
def partStateCode (ready : Bool) : Nat := if ready then 1 else 0

/-! ## Events of the owners -/

/-- The content of a LECTURE event (R21); a VACANT record shows zeros. -/
def lectureContent (s : State) (slot : Nat) : List Byte :=
  match s.lecture? slot with
  | none => be1 slot ++ be4 0 ++ be1 0 ++ be1 0 ++ flag false
  | some l =>
    be1 slot ++ be4 l.number.toNat ++ be1 (lectureStateCode l.state) ++ be1 (roleCode l.lead) ++ flag l.aborted
      ++ allRoles.flatMap (fun r => if (l.parts.get r).present then
          flag (l.parts.get r).ended ++ flag (l.parts.get r).silent else [])

/-- Queues the LECTURE event of a slot (R21). -/
def State.lectureEvent (s : State) (slot : Nat) : State := s.queueEvent (.lecture slot) .lecture (lectureContent s slot)

/-- The slot, segment and rendition of the job a lane holds. -/
def jobNames (s : State) (l : Lane) : List Byte :=
  match l.job.bind s.job? with
  | none => []
  | some j => be1 j.slot ++ be2 j.segment ++ be1 j.rendition

/-- The content of a LANE event (R107). -/
def laneContent (s : State) (n : Nat) : List Byte :=
  be1 n ++ be1 (laneStateCode (s.lane n).state) ++ optField 1 (fun f => be1 (laneFaultCode f)) (s.lane n).fault
    ++ (match (s.lane n).state with
        | .busy | .draining => jobNames s (s.lane n)
        | _ => [])

/-- Queues the LANE event of a lane (R107). -/
def State.laneEvent (s : State) (n : Nat) : State := s.queueEvent (.lane n) .lane (laneContent s n)

/-- Queues the GROUP event of a group (R115). -/
def State.groupEvent (s : State) (g : Nat) (byFault : Bool) : State :=
  s.queueEvent (.group g) .group
    (be1 g ++ be1 (groupStateCode (s.group g).state) ++ be1 (if (s.group g).monitorFault then 1 else 0) ++ flag byFault)

/-- The content of a CHANNEL event (R160). -/
def channelContent (s : State) (c : Nat) : List Byte :=
  let x := s.channel c
  be1 c ++ be1 (channelStateCode x.state) ++ optField 1 (fun f => be1 f.slot) x.fetch
    ++ optField 1 (fun f => be1 f.rendition) x.fetch ++ optField 2 be2 x.current ++ be2 x.sent
    ++ optField 1 (fun e => be1 (lastEndingCode e)) x.lastEnding
    ++ optField 1 (fun t => be1 (lastTrailerCode t)) x.lastTrailer

/-- Queues the CHANNEL event of a channel (R160). -/
def State.channelEvent (s : State) (c : Nat) : State := s.queueEvent (.channel c) .channel (channelContent s c)

/-- Queues the TRUNK event (R177). The counters are read when the event leaves (R184). -/
def State.trunkEvent (s : State) : State :=
  s.queueEvent .trunk .trunk
    (be1 (syncStateCode s.trr.sync) ++ optField 1 (fun c => be1 (lossCauseCode c)) s.trr.lossCause
      ++ flag (s.condition .returnLost))

/-- The four counters (R173). -/
def counterBytes (t : Trr) : List Byte :=
  be2 t.alignmentErrors ++ be2 t.indexErrors ++ be2 t.checkErrors ++ be2 t.controlFailures

end Sys2Proof.Machine
end

