-- ==== Sys2Proof/Machine/Memory.lean ====
section
/-! DEFINITION. The contents of the store banks: (address, byte) pairs in strictly rising address, none equal to 0xFF,
which is what an unlisted address reads as (R116: an unprogrammed page reads as 0xFF). -/

namespace Sys2Proof.Machine

/-- What an unlisted address reads as (R116). -/
def erasedByte : Byte := 0xFF

/-- The byte at an address. -/
def memRead : List Host.Cell → Nat → Byte
  | [], _ => erasedByte
  | (k, v) :: t, a => if k = a then v else memRead t a

/-- The bytes from an address. -/
def memBytes (m : List Host.Cell) (a n : Nat) : List Byte := (List.range n).map (fun i => memRead m (a + i))

/-- The cells that bytes from an address list: every byte but 0xFF. -/
def cellsFrom : Nat → List Byte → List Host.Cell
  | _, [] => []
  | a, b :: t => if b = erasedByte then cellsFrom (a + 1) t else (a, b) :: cellsFrom (a + 1) t

/-- Replaces the bytes from an address. -/
def memPut (m : List Host.Cell) (a : Nat) (bs : List Byte) : List Host.Cell :=
  m.filter (fun c => decide (c.1 < a)) ++ cellsFrom a bs ++ m.filter (fun c => decide (a + bs.length ≤ c.1))

/-- Erases the bytes from an address. -/
def memErase (m : List Host.Cell) (a n : Nat) : List Host.Cell :=
  m.filter (fun c => decide (c.1 < a) || decide (a + n ≤ c.1))

/-- Every cell lies at or above an address and the rest rise strictly, none 0xFF. -/
def memWfFrom : Nat → List Host.Cell → Bool
  | _, [] => true
  | a, (k, v) :: t => decide (a ≤ k) && decide (v ≠ erasedByte) && memWfFrom (k + 1) t

/-- The canonical form. -/
def Memory.wf (m : List Host.Cell) : Bool := memWfFrom 0 m

/-- The address of a page of a global block. -/
def pageAddress (g page : Nat) : Nat := g * Config.blockBytes + page * Config.pageBytes

/-- The address of a bad-list place: eight places to a page of block 0 (R195). -/
def placeAddress (k : Nat) : Nat := (k / 8) * Config.pageBytes + (k % 8) * Config.placeBytes

/-- A PROGRAM puts a page's bytes (R125). -/
def State.programPage (s : State) (g page : Nat) (bs : List Byte) : State :=
  { s with mem := memPut s.mem (pageAddress g page) bs }

/-- An ERASE makes every byte of a block 0xFF (R116). -/
def State.eraseBytes (s : State) (g : Nat) : State :=
  { s with mem := memErase s.mem (g * Config.blockBytes) Config.blockBytes }

/-- The bytes of an entry place naming a block (R195). -/
def placeEntry (g : Nat) : List Byte :=
  withCheck16 ([0xB5, 0x00] ++ be2 g ++ (be2 g).map (fun b => ~~~b)) ++ List.replicate 504 0

/-- The bytes of a bad-list place. -/
def placeContents (m : List Host.Cell) (k : Nat) : List Byte := memBytes m (placeAddress k) Config.placeBytes

/-- How a place is sorted at reset (R195). -/
inductive PlaceKind
  | entry (block : Nat)
  | empty
  | spoiled
deriving DecidableEq, Repr

/-- The block a place's bytes name: bytes 2 and 3. -/
def placeBlock (bs : List Byte) : Nat := beNat ((bs.drop 2).take 2)

/-- Sorts a place: ENTRY where its bytes match the layout and the check agrees, EMPTY where every byte is 0xFF, else
SPOILED; a page that returns a read error makes its places spoiled (R195). -/
def sortPlace (m : List Host.Cell) (unreadable : List Nat) (k : Nat) : PlaceKind :=
  if unreadable.contains (k / 8) then .spoiled
  else
    let bs := placeContents m k
    if bs.all (· == erasedByte) then .empty
    else if 1 ≤ placeBlock bs ∧ placeBlock bs < 16384 ∧ bs = placeEntry (placeBlock bs) then .entry (placeBlock bs)
    else .spoiled

/-- The blocks the bad list names, each once, in increasing number (R195). -/
def listedBlocks (m : List Host.Cell) (unreadable : List Nat) : List Nat :=
  ((List.range Config.places).foldl
    (fun (t : Table Unit) k => match sortPlace m unreadable k with
      | .entry g => t.put g ()
      | _ => t) []).map (·.1)

/-- The places found empty at reset, lowest first (R195). -/
def emptyPlacesOf (m : List Host.Cell) (unreadable : List Nat) : List Nat :=
  (List.range Config.places).filter (fun k => sortPlace m unreadable k == .empty)

/-- How many places are spoiled at reset (R195). -/
def spoiledOf (m : List Host.Cell) (unreadable : List Nat) : Nat :=
  ((List.range Config.places).filter (fun k => sortPlace m unreadable k == .spoiled)).length

end Sys2Proof.Machine
end

