-- ==== Sys2Proof/Machine/Store.lean ====
section
/-! DEFINITION. The Store Controller (spec 07): store levels, free lists and erase queues, the bank arbiter, page
buffers and their discards, relocation, runs and extents as records, and the ends of bank operations. Serving waiting
claims stands in Claims.lean. -/

namespace Sys2Proof.Machine

/-! ## Levels (R118, R140) -/

/-- The free blocks of the store: those in all four free lists (R118). -/
def State.freeBlocks (s : State) : Nat :=
  (s.bank 0).free.length + (s.bank 1).free.length + (s.bank 2).free.length + (s.bank 3).free.length

/-- Used bad-list places: every place that is not empty (R142). -/
def State.usedPlaces (s : State) : Nat := Config.places - s.stc.emptyPlaces.length

/-- The content of a STORE event (R140). -/
def storeContent (s : State) : List Byte :=
  be1 (partStateCode s.stc.ready) ++ be1 (storeLevelCode s.stc.level) ++ be2 s.freeBlocks
    ++ be2 s.stc.scrubRemaining ++ be2 s.usedPlaces

/-- Queues the STORE event (R140). -/
def State.storeEvent (s : State) : State := s.queueEvent .store .store (storeContent s)

/-- The store level that the two conditions give (R140). -/
def storeLevelOf (ready : Bool) (free lowMark : Nat) : StoreLevel :=
  if ready then (if free = 0 then .exhausted else if free < lowMark then .low else .normal) else .normal

/-- Evaluates the two store conditions and queues a STORE event at a change of store level (R140), behind the PART event
of a condition raised: the model's choice (log 72). -/
def State.evalLevels (s : State) : State :=
  let s1 := (s.level .storeExhausted (s.stc.ready && s.freeBlocks == 0)).level .storeLow
    (s.stc.ready && decide (s.freeBlocks < s.stc.lowMark))
  let level := storeLevelOf s.stc.ready s.freeBlocks s.stc.lowMark
  if level = s.stc.level then s1
  else State.storeEvent { s1 with stc := { s1.stc with level := level } }

/-! ## The bank arbiter (R130, R131, R137, R138) -/

/-- An APPEND finds no empty place: BADLIST_FULL holds until reset, with a STORE event at its onset (R138), behind the
PART event: the model's choice (log 72). -/
def State.badlistFull (s : State) : State :=
  if s.condition .badlistFull then s else (s.raise .badlistFull).storeEvent

/-- Starts a program: its buffer becomes PROGRAMMING (R125). -/
def State.startProgram (s : State) (b : Nat) (x : Bank) (p : ProgramReq) : State :=
  let s1 := s.setBank b { x with op := some (.program p) }
  match s1.buf? p.buffer with
  | none => s1
  | some buf => s1.setBuf p.buffer { buf with state := .programming }

/-- Grants the relocation copy queue's head; APPENDs that find no empty place are dropped (R130, R137, R138). That an
APPEND finds this only at its grant, and waits in its class like any request before, is the model's choice (log 83).
Answers whether a request was granted. -/
def State.grantCopy (s : State) (b : Nat) (x : Bank) : List CopyReq → State × Bool
  | [] => (s.setBank b { x with copy := [] }, false)
  | .read r :: t => (s.setBank b { x with copy := t, op := some (.read r true) }, true)
  | .program p :: t => (s.startProgram b { x with copy := t } p, true)
  | .append g :: t =>
    match s.stc.emptyPlaces with
    | [] => State.grantCopy s.badlistFull b x t
    | k :: _ => (s.setBank b { x with copy := t, op := some (.append g k) }, true)

/-- Grants class 6: the resume of a suspended erase, else the start of an erase of the queue's head (R118, R130). -/
def State.grantErase (s : State) (b : Nat) : State :=
  let x := s.bank b
  match x.erase with
  | some e => s.setBank b { x with erase := some { e with state := .running } }
  | none =>
    match x.eraseQueue with
    | [] => s
    | g :: t =>
      (s.setBank b { x with
        eraseQueue := t, scrub := x.scrub - 1, erase := some ⟨g, .running, 0, decide (0 < x.scrub)⟩ }).setBlockState g
        .erasing

/-- Whether the bank can take a grant: no operation runs, and an erase it holds is suspended (R130, R131). -/
def Bank.canGrant (x : Bank) : Bool :=
  x.op.isNone && (match x.erase with
    | none => true
    | some e => e.state == .suspended)

/-- The arbiter of a bank grants in class order (R130). -/
def State.arbitrate (s : State) (b : Nat) : State :=
  let x := s.bank b
  if !x.canGrant then s
  else match x.intakeProgram with
    | p :: t => s.startProgram b { x with intakeProgram := t } p
    | [] => match x.deliveryRead with
      | r :: t => s.setBank b { x with deliveryRead := t, op := some (.read r true) }
      | [] => match x.laneRead with
        | r :: t => s.setBank b { x with laneRead := t, op := some (.read r true) }
        | [] => match x.laneProgram with
          | p :: t => s.startProgram b { x with laneProgram := t } p
          | [] =>
            let g := s.grantCopy b x x.copy
            if g.2 then g.1 else g.1.grantErase b

/-- A request of classes 1 to 5 has joined a queue: a running erase below 16 suspends is commanded to suspend, else the
arbiter grants what it can (R131). -/
def State.afterJoin (s : State) (b : Nat) : State :=
  let x := s.bank b
  match x.erase with
  | some e =>
    if e.state = .running ∧ e.suspends < 16 then s.setBank b { x with erase := some { e with state := .commanded } }
    else s.arbitrate b
  | none => s.arbitrate b

/-- A request joins the relocation copy queue of a bank. -/
def State.joinCopy (s : State) (b : Nat) (r : CopyReq) : State :=
  (s.setBank b { s.bank b with copy := (s.bank b).copy ++ [r] }).afterJoin b

/-- A request joins the delivery READ queue of its block's bank. -/
def State.joinDeliveryRead (s : State) (r : ReadReq) : State :=
  let b := bankOf r.block
  (s.setBank b { s.bank b with deliveryRead := (s.bank b).deliveryRead ++ [r] }).afterJoin b

/-- A request joins the lane READ queue of its block's bank. -/
def State.joinLaneRead (s : State) (r : ReadReq) : State :=
  let b := bankOf r.block
  (s.setBank b { s.bank b with laneRead := (s.bank b).laneRead ++ [r] }).afterJoin b

/-- Applies a change to every bank. -/
def State.mapBanks (s : State) (f : Bank → Bank) : State :=
  { s with stc := { s.stc with banks := s.stc.banks.map (fun e => (e.1, f e.2)) } }

/-- Takes queued programs out of a bank's queues. -/
def Bank.dropPrograms (x : Bank) (drop : ProgramReq → Bool) : Bank :=
  { x with
    intakeProgram := x.intakeProgram.filter (fun p => !drop p)
    laneProgram := x.laneProgram.filter (fun p => !drop p)
    copy := x.copy.filter (fun c => match c with
      | .program p => !drop p
      | _ => true) }

/-- Withdraws reads: queued ones leave, a granted burst completes with its bytes dropped (R127). -/
def Bank.withdrawReads (x : Bank) (drop : ReadReq → Bool) : Bank :=
  { x with
    deliveryRead := x.deliveryRead.filter (fun r => !drop r)
    laneRead := x.laneRead.filter (fun r => !drop r)
    copy := x.copy.filter (fun c => match c with
      | .read r => !drop r
      | _ => true)
    op := match x.op with
      | some (.read r wanted) => some (.read r (wanted && !drop r))
      | o => o }

/-- A requester withdraws its reads (R127). -/
def State.withdrawReads (s : State) (who : Reader → Bool) : State := s.mapBanks (·.withdrawReads (fun r => who r.reader))

/-! ## Blocks (R117, R118, R128, R136) -/

/-- A block becomes RETIRED and joins the tail of its bank's erase queue (R118). -/
def State.retireBlock (s : State) (g : Nat) : State :=
  let b := bankOf g
  ((s.setBlockState g .retired).setBank b { s.bank b with eraseQueue := (s.bank b).eraseQueue ++ [g] }).arbitrate b

/-- A block becomes BAD and an APPEND naming it is queued (R136, R137). -/
def State.badBlock (s : State) (g : Nat) : State := (s.setBlockState g .bad).joinCopy 0 (.append g)

/-- The block that the starting bank or the next non-empty one gives (R128). -/
def State.freeHead (s : State) (start : Nat) : Option Nat :=
  ((List.range 4).map (fun i => (start + i) % 4)).findSome? (fun b => (s.bank b).free.head?)

/-- Takes a block from the head of its bank's free list: it becomes OPEN (R128). -/
def State.takeBlock (s : State) (g : Nat) : State :=
  let b := bankOf g
  ((s.setBank b { s.bank b with free := (s.bank b).free.tail }).setBlockState g .opened).evalLevels

/-! ## Page buffers (R124 to R127) -/

/-- How many page buffers are FREE (R124). -/
def State.freeBuffers (s : State) : Nat := Config.buffers - s.stc.buffers.length

/-- Gives out the lowest-numbered FREE buffer (log 7). -/
def State.giveBuffer (s : State) (o : BufOwner) (g page : Nat) : State :=
  match s.stc.buffers.freeFrom Config.buffers 0 with
  | none => s
  | some i => s.setBuf i ⟨.filling, o, g, page, [], 0, false, false⟩

/-- The number of the FILLING buffer of an owner. -/
def State.fillingOf (s : State) (o : Owner) : Option Nat :=
  (s.stc.buffers.find? (fun e => e.2.owner == .own o && e.2.state == .filling)).map (·.1)

/-- Whether a block is the failed block of a relocation (R133). -/
def State.relocating (s : State) (g : Nat) : Bool := s.stc.relocations.any (fun r => r.failed == g)

/-- A PENDING, fully committed buffer is held while its block is being relocated, else offered under its owner's class
(R125, R133). -/
def State.offer (s : State) (i : Nat) : State :=
  match s.buf? i with
  | none => s
  | some buf =>
    if s.relocating buf.block then s.setBuf i { buf with held := true }
    else
      let b := bankOf buf.block
      let x := s.bank b
      let p : ProgramReq := ⟨i, buf.block, buf.page⟩
      match buf.owner with
      | .own (.run _ _) => (s.setBank b { x with intakeProgram := x.intakeProgram ++ [p] }).afterJoin b
      | .own (.extent _) => (s.setBank b { x with laneProgram := x.laneProgram ++ [p] }).afterJoin b
      | .relocation _ => s.joinCopy b (.program p)

/-- Owner discard of one buffer: FREE without programming, or after the program it is in (R126). -/
def State.discardBuf (s : State) (i : Nat) : State :=
  match s.buf? i with
  | none => s
  | some buf =>
    match buf.state with
    | .programming => s.setBuf i { buf with discarded := true }
    | _ => (s.mapBanks (·.dropPrograms (fun p => p.buffer == i))).freeBuf i

/-- Owner discard of every buffer that meets a test (R126). -/
def State.discardWhere (s : State) (p : Buf → Bool) : State :=
  (s.stc.buffers.filter (fun e => p e.2)).foldl (fun t e => t.discardBuf e.1) s

/-- Discard of an extent's uncommitted output (R126). -/
def State.discardUncommitted (s : State) (n : Nat) : State :=
  (s.stc.buffers.filter (fun e => e.2.owner == .own (.extent n) && !e.2.discarded
    && decide (e.2.committed < e.2.data.length))).foldl
    (fun t e =>
      if e.2.committed = 0 then t.freeBuf e.1
      else t.setBuf e.1 { e.2 with state := .filling, data := e.2.data.take e.2.committed, held := false }) s

/-- The committed bytes of the buffer a page is bound to (R127). -/
def State.bufferedPage (s : State) (g page : Nat) : Option (List Byte) :=
  (s.stc.buffers.find? (fun e => e.2.block == g && e.2.page == page && !e.2.discarded
    && (match e.2.owner with
        | .own _ => true
        | .relocation _ => false))).map (fun e => e.2.data.take e.2.committed)

/-- A page as a bank reads it. -/
def State.bankPage (s : State) (g page : Nat) : List Byte := memBytes s.mem (pageAddress g page) Config.pageBytes

/-- Whether a page is in its block's lost-page set (R117). -/
def State.pageLost (s : State) (g page : Nat) : Bool := (s.block g).lost.contains page

/-- Adds pages to a block's lost-page set (R134). -/
def State.losePages (s : State) (g : Nat) (pages : List Nat) : State :=
  s.setBlock g { s.block g with lost := (s.block g).lost ++ pages }

/-! ## Owners' block lists -/

/-- The block list of an owner. -/
def State.ownerBlocks (s : State) : Owner → List Nat
  | .run slot r => match s.run? slot r with
    | none => []
    | some x => x.blocks
  | .extent n => match s.extent? n with
    | none => []
    | some x => x.blocks

/-- Whether a block is in a PUBLISHED extent. -/
def State.inPublished (s : State) (g : Nat) : Bool :=
  s.stc.extents.any (fun e => e.2.state == .published && e.2.blocks.contains g)

/-- Whether any page buffer is bound to a block. -/
def State.bufferBound (s : State) (g : Nat) : Bool := s.stc.buffers.any (fun e => e.2.block == g)

/-- A block of a PUBLISHED extent becomes PROTECTED when no page buffer is bound to it (R123). -/
def State.protectTest (s : State) (g : Nat) : State :=
  if s.inPublished g && !s.bufferBound g && !s.relocating g then s.setBlockState g .guarded else s

/-! ## Claims (R129) -/

/-- A waiting claim joins the order. -/
def State.addClaim (s : State) (c : Claim) : State :=
  { s with stc := { s.stc with claims := s.stc.claims ++ [c] } }

/-- A claimant's waiting claim is withdrawn. -/
def State.withdrawClaim (s : State) (who : Claimant) : State :=
  { s with stc := { s.stc with claims := s.stc.claims.filter (fun c => c.who != who) } }

/-! ## Relocation (R133 to R135) -/

/-- The relocation in progress of an owner. -/
def State.activeReloc (s : State) (o : Owner) : Option Relocation :=
  s.stc.relocations.find? (fun r => r.owner == o && r.active)

/-- Writes the relocation of a failed block. -/
def State.setReloc (s : State) (x : Relocation) : State :=
  { s with stc := { s.stc with relocations := s.stc.relocations.map (fun r => if r.failed = x.failed then x else r) } }

/-- Removes the relocation of a failed block. -/
def State.dropReloc (s : State) (failed : Nat) : State :=
  { s with stc := { s.stc with relocations := s.stc.relocations.filter (fun r => r.failed != failed) } }

/-- The held buffer of a relocation's failing page. -/
def State.failingBuffer (s : State) (r : Relocation) : Option Nat :=
  (s.stc.buffers.find? (fun e => e.2.owner == .own r.owner && e.2.block == r.failed && e.2.page == r.page)).map (·.1)

/-- Copies on: lost pages pass into the target's lost-page set, the next burst of up to `most` pages is read with one
buffer a page, or the failing page is programmed (R134; log 32). No burst begins while a page of the one before is under
way: the model's choice (log 81). -/
def State.copyOn (s : State) (o : Owner) (most : Nat) : State :=
  match s.activeReloc o with
  | none => s
  | some r =>
    match r.target with
    | none => s
    | some t =>
      if r.final || !r.copying.isEmpty then s
      else
        let lost := (s.block r.failed).lost
        let skip := (List.range' r.next (r.page - r.next)).takeWhile lost.contains
        let n := r.next + skip.length
        let s1 := (s.losePages t skip).setReloc { r with next := n }
        if r.page ≤ n then
          match s1.failingBuffer r with
          | none => s1
          | some i => (s1.setReloc { r with next := n, final := true }).joinCopy (bankOf t) (.program ⟨i, t, r.page⟩)
        else if s1.freeBuffers = 0 then s1.addClaim ⟨.relocation o r.failed, .buffer⟩
        else
          let burst := ((List.range' n (r.page - n)).takeWhile (fun p => !lost.contains p)).take (min most s1.freeBuffers)
          let s2 := burst.foldl (fun (q : State) p => q.giveBuffer (.relocation o) t p) s1
          (s2.setReloc { r with next := n + burst.length, copying := burst }).joinCopy (bankOf r.failed)
            (.read ⟨.relocation o, r.failed, burst, 0, Config.blockBytes⟩)

/-- A block is taken as a relocation's target; its copy begins when the step's claims have been served
(R129, R133, R134; log 47). -/
def State.takeTarget (s : State) (r : Relocation) (g : Nat) : State :=
  (s.takeBlock g).setReloc { r with target := some g, next := 0, copying := [], final := false }

/-- Asks for a target: granted at once, or a waiting claim (R128, R133). -/
def State.askTarget (s : State) (r : Relocation) : State :=
  match s.freeHead ((bankOf r.failed + 1) % 4) with
  | none => s.addClaim ⟨.relocation r.owner r.failed, .block⟩
  | some g => s.takeTarget r g

/-- The owner's next waiting relocation starts when it has none in progress (R133). Of several failed blocks that wait
the one that failed first is taken: the model's choice (log 59). -/
def State.nextReloc (s : State) (o : Owner) : State :=
  if (s.activeReloc o).isSome then s
  else match s.stc.relocations.find? (fun r => r.owner == o) with
    | none => s
    | some r => (s.setReloc { r with active := true }).askTarget { r with active := true }

/-- A program of page `page` of block `g` has failed: its buffer `i` and the buffers of the block's queued programs are
held, and the relocation starts or waits for the owner's present one (R133). -/
def State.startReloc (s : State) (o : Owner) (g page i : Nat) : State :=
  let r : Relocation := ⟨o, g, page, (s.activeReloc o).isNone, none, 0, [], false⟩
  let queued := s.stc.buffers.filter (fun e =>
    e.2.block == g && e.2.state == .pending && e.2.committed == e.2.data.length)
  let s1 := queued.foldl (fun t e => t.setBuf e.1 { e.2 with held := true }) s
  let s2 := s1.mapBanks (·.dropPrograms (fun p => p.block == g))
  let s3 := match s2.buf? i with
    | none => s2
    | some buf => s2.setBuf i { buf with state := .pending, held := true }
  let s4 : State := { s3 with stc := { s3.stc with relocations := s3.stc.relocations ++ [r] } }
  if r.active then s4.askTarget r else s4

/-- The owner's list names the target where it named the failed block; a run's last bank follows its tail (R134). -/
def State.replaceBlock (s : State) (o : Owner) (failed target : Nat) : State :=
  let sub : List Nat → List Nat := fun l => l.map (fun g => if g = failed then target else g)
  match o with
  | .run slot r => match s.run? slot r with
    | none => s
    | some x => s.setRun slot r { x with
        blocks := sub x.blocks,
        lastBank := if x.blocks.getLast? = some failed then some (bankOf target) else x.lastBank }
  | .extent n => match s.extent? n with
    | none => s
    | some x => s.setExtent n { x with blocks := sub x.blocks }

/-- Queued reads of the failed block move to the target's bank, naming the same pages of the target (R134). -/
def State.moveReads (s : State) (failed target : Nat) : State :=
  let x := s.bank (bankOf failed)
  let named : ReadReq → Bool := fun r => r.block == failed
  let renamed : ReadReq → ReadReq := fun r => { r with block := target }
  let s1 := s.setBank (bankOf failed) { x with
    deliveryRead := x.deliveryRead.filter (fun r => !named r), laneRead := x.laneRead.filter (fun r => !named r) }
  let s2 := ((x.deliveryRead.filter named).map renamed).foldl State.joinDeliveryRead s1
  ((x.laneRead.filter named).map renamed).foldl State.joinLaneRead s2

/-- The relocation switches in one step (R134). The held buffers are offered in page order (R116), and before the READs
of the failed block join the target's bank: the model's choice (log 74). -/
def State.switchReloc (s : State) (r : Relocation) (t i : Nat) : State :=
  let later := (s.stc.buffers.filter (fun e => e.2.block == r.failed && e.1 != i))
  let s1 := (s.replaceBlock r.owner r.failed t).setBlockState t (s.block r.failed).state
  let s2 := ((s1.dropReloc r.failed).freeBuf i)
  let s3 := later.foldl (fun q e => q.setBuf e.1 { e.2 with block := t, held := false }) s2
  let held : Table Nat := (later.filter (fun e => e.2.held)).foldl (fun (m : Table Nat) e => m.put e.2.page e.1) []
  let s4 := held.foldl (fun q e => q.offer e.2) s3
  (((s4.moveReads r.failed t).badBlock r.failed).protectTest t).nextReloc r.owner

/-- A program into the target fails: the target becomes BAD and the copy starts again (R135). -/
def State.retryReloc (s : State) (r : Relocation) (t i : Nat) : State :=
  let s1 := s.discardWhere (fun b => b.owner == .relocation r.owner)
  let s2 := match s1.buf? i with
    | none => s1
    | some buf => s1.setBuf i { buf with state := .pending, held := true }
  let r1 : Relocation := { r with target := none, next := 0, copying := [], final := false }
  ((s2.badBlock t).setReloc r1).askTarget r1

/-- A relocation is abandoned (R135): its claim, target, buffers and reads go, and the failed block becomes BAD. -/
def State.abandonReloc (s : State) (r : Relocation) : State :=
  let s1 := (s.withdrawClaim (.relocation r.owner r.failed)).dropReloc r.failed
  let s2 := if r.active then
      (s1.withdrawReads (· == .relocation r.owner)).discardWhere (fun b => b.owner == .relocation r.owner)
    else s1
  let s3 := s2.discardWhere (fun b => b.block == r.failed)
  let s4 := match r.target with
    | none => s3
    | some t => s3.retireBlock t
  s4.badBlock r.failed

/-! ## Giving blocks up: retirement and release (R120, R121, R123) -/

/-- Every relocation of an owner is abandoned, each buffer bound to its blocks is discarded, and each of its blocks that
is not BAD becomes RETIRED, from the head of the block list to its tail: the model's choice (log 75). -/
def State.giveUpBlocks (s : State) (o : Owner) (blocks : List Nat) : State :=
  let s1 := (s.stc.relocations.filter (fun r => r.owner == o)).foldl State.abandonReloc s
  let s2 := s1.discardWhere (fun b => b.owner == .own o)
  blocks.foldl (fun q g => if (q.block g).state = .bad then q else q.retireBlock g) s2

/-- Retires a run's head block (R120). -/
def State.retireHead (s : State) (slot : Nat) (r : Role) (x : Run) (g : Nat) (rest : List Nat) : State :=
  let s1 := s.discardWhere (fun b => b.block == g)
  let s2 := (s1.stc.relocations.filter (fun q => q.failed == g)).foldl State.abandonReloc s1
  let s3 := if (s2.block g).state = .bad then s2 else s2.retireBlock g
  (s3.setRun slot r { x with blocks := rest, headOffset := x.headOffset + Config.blockBytes }).nextReloc (.run slot r)

/-- Retires head blocks while they lie at or below the low mark (R120). -/
def State.retireHeads (s : State) (slot : Nat) (r : Role) : Nat → State
  | 0 => s
  | fuel + 1 =>
    match s.run? slot r with
    | none => s
    | some x =>
      match x.blocks with
      | [] => s
      | g :: rest =>
        if x.headOffset + Config.blockBytes ≤ x.lowMark then
          State.retireHeads (s.retireHead slot r x g rest) slot r fuel
        else s

/-- The run-retire test of a run (R120). -/
def State.retireTest (s : State) (slot : Nat) (r : Role) : State :=
  match s.run? slot r with
  | none => s
  | some x => s.retireHeads slot r (x.blocks.length + 1)

/-- Releases a run (R121). A source low mark under way to it is taken with it (log 25). -/
def State.releaseRun (s : State) (slot : Nat) (r : Role) : State :=
  match s.run? slot r with
  | none => s
  | some x =>
    let s1 := (s.withdrawClaim (.run slot r)).giveUpBlocks (.run slot r) x.blocks
    { s1 with
      stc := { s1.stc with runs := s1.stc.runs.del (roleKey slot r) }
      sent := s1.sent.filter (fun m => match m with
        | .sourceLowMark sl ro _ => !(sl == slot && ro == r)
        | _ => true) }

/-! ## Extents (R122, R123, R125) -/

/-- An extent record in use for an owner. -/
def State.extentFor (s : State) (n slot segment rendition : Nat) : Option Extent :=
  (s.extent? n).filter (fun x => x.slot == slot && x.segment == segment && x.rendition == rendition)

/-- The free extent record given next (log 7). -/
def State.freeExtent (s : State) : Option Nat := s.stc.extents.freeFrom Config.extents s.stc.extentPick

/-- Takes an extent record for a job (R122). -/
def State.takeExtent (s : State) (n slot segment rendition : Nat) (st : ExtentState) : State :=
  { s with stc := { s.stc with
      extents := s.stc.extents.put n ⟨slot, segment, rendition, [], 0, st⟩, extentPick := (n + 1) % Config.extents } }

/-- Gives an extent's blocks up, frees its record and tells the JDP (R123). -/
def State.freeExtentRecord (s : State) (n : Nat) (x : Extent) : State :=
  let s1 := s.giveUpBlocks (.extent n) x.blocks
  State.send { s1 with stc := { s1.stc with extents := s1.stc.extents.del n } } .extentRecordFreed

/-- Give up: taken in WRITING and CLOSED (R123). -/
def State.giveUpExtent (s : State) (n slot segment rendition : Nat) : State :=
  match s.extentFor n slot segment rendition with
  | none => s
  | some x => if x.state = .published then s else s.freeExtentRecord n x

/-- Release: taken in PUBLISHED (R123). -/
def State.releaseExtent (s : State) (n slot segment rendition : Nat) : State :=
  match s.extentFor n slot segment rendition with
  | none => s
  | some x => if x.state = .published then s.freeExtentRecord n x else s

/-- Protect: a CLOSED extent becomes PUBLISHED (R123). -/
def State.protectExtent (s : State) (n slot segment rendition : Nat) : State :=
  match s.extentFor n slot segment rendition with
  | none => s
  | some x =>
    if x.state = .closed then x.blocks.foldl State.protectTest (s.setExtent n { x with state := .published }) else s

/-- Pads a FILLING buffer with 0xFF to the end of its page, the pad committed; it becomes PENDING and is offered
(R119, R123). -/
def State.padBuffer (s : State) (i : Nat) : State :=
  match s.buf? i with
  | none => s
  | some b =>
    (s.setBuf i { b with
      state := .pending, committed := Config.pageBytes,
      data := b.data ++ List.replicate (Config.pageBytes - b.data.length) erasedByte }).offer i

/-- The FILLING buffer of an owner is padded and its tail block becomes SEALED (R119, R123). -/
def State.sealTail (s : State) (o : Owner) (blocks : List Nat) : State :=
  let s1 := match s.fillingOf o with
    | none => s
    | some i => s.padBuffer i
  match blocks.getLast? with
  | none => s1
  | some g => if (s1.block g).state = .opened then s1.setBlockState g .sealed else s1

/-- Close: a WRITING extent becomes CLOSED (R123). -/
def State.closeExtent (s : State) (n slot segment rendition : Nat) : State :=
  match s.extentFor n slot segment rendition with
  | none => s
  | some x =>
    if x.state = .writing then (s.sealTail (.extent n) x.blocks).setExtent n { x with state := .closed } else s

/-- The output offset at which a buffer's page of an extent begins. -/
def outputBase (blocks : List Nat) (b : Buf) : Nat :=
  blocks.findIdx (· == b.block) * Config.blockBytes + b.page * Config.pageBytes

/-- A chunk commit: the committed length and each buffer's committed count advance, and the PENDING buffers thus fully
committed are offered in page order (R125). -/
def State.commitExtent (s : State) (n : Nat) (x : Extent) (length : Nat) : State :=
  let mine := s.stc.buffers.filter (fun e => e.2.owner == .own (.extent n) && !e.2.discarded)
  let upTo : Buf → Nat := fun b => min b.data.length (length - outputBase x.blocks b)
  let s1 := (s.setExtent n { x with committed := length })
  let s2 := mine.foldl (fun q e => q.setBuf e.1 { e.2 with committed := upTo e.2 }) s1
  let ready : Table Nat := (mine.filter (fun e => e.2.state == .pending && e.2.committed != e.2.data.length
    && upTo e.2 == e.2.data.length)).foldl (fun (t : Table Nat) e => t.enter (outputBase x.blocks e.2) e.1) []
  ready.foldl (fun q e => q.offer e.2) s2

/-! ## A new block for a run or an extent (R128) -/

/-- A block joins the tail of a run's block list; the previous tail becomes SEALED (R128). -/
def State.appendRunBlock (s : State) (slot : Nat) (r : Role) (x : Run) (g : Nat) : State :=
  let s1 := s.takeBlock g
  let s2 := match x.blocks.getLast? with
    | none => s1
    | some p => s1.setBlockState p .sealed
  (s2.setRun slot r { x with blocks := x.blocks ++ [g], lastBank := some (bankOf g) }).retireTest slot r

/-- The starting bank of a run's next block (R128). -/
def runStart (slot : Nat) (r : Role) (x : Run) : Nat :=
  match x.lastBank with
  | some b => (b + 1) % 4
  | none => (slot + roleCode r) % 4

/-- The starting bank of an extent's next block (R128). -/
def extentStart (x : Extent) : Nat :=
  match x.blocks.getLast? with
  | some g => (bankOf g + 1) % 4
  | none => (x.segment + x.rendition) % 4

/-- A block joins the tail of an extent's block list; the previous tail becomes SEALED (R128). -/
def State.appendExtentBlock (s : State) (n : Nat) (x : Extent) (g : Nat) : State :=
  let s1 := s.takeBlock g
  let s2 := match x.blocks.getLast? with
    | none => s1
    | some p => s1.setBlockState p .sealed
  s2.setExtent n { x with blocks := x.blocks ++ [g] }

/-! ## Ends of bank operations (R116, R118, R125, R131, R137) -/

/-- A relocation buffer's page has left the copy: programmed, or lost (R134). The copy goes on when the step's claims
have been served (R129; log 47). -/
def State.pageCopied (s : State) (o : Owner) (page : Nat) : State :=
  match s.activeReloc o with
  | none => s
  | some r => s.setReloc { r with copying := r.copying.filter (· != page) }

/-- The relocation into which a program of a buffer went, when it was one (R134). -/
def State.relocOf (s : State) (p : ProgramReq) (buf : Buf) : Option Relocation :=
  match buf.owner with
  | .relocation o => s.activeReloc o
  | .own o => (s.activeReloc o).filter (fun r => r.final && r.target == some p.block)

/-- A program has ended with success: the page holds the buffer's bytes (R125, R134). -/
def State.programDone (s : State) (p : ProgramReq) (buf : Buf) : State :=
  let s1 := s.programPage p.block p.page buf.data
  if buf.discarded then s1.freeBuf p.buffer
  else match s1.relocOf p buf with
    | some r => match buf.owner with
      | .relocation o => (s1.freeBuf p.buffer).pageCopied o p.page
      | .own _ => s1.switchReloc r p.block p.buffer
    | none => (s1.freeBuf p.buffer).protectTest p.block

/-- A program has ended failed (R126, R133, R135). -/
def State.programFailed (s : State) (p : ProgramReq) (buf : Buf) : State :=
  if buf.discarded then
    let b := bankOf p.block
    ((s.freeBuf p.buffer).setBank b { s.bank b with
      eraseQueue := (s.bank b).eraseQueue.filter (· != p.block) }).badBlock p.block
  else match s.relocOf p buf with
    | some r => match buf.owner with
      | .relocation _ => (s.freeBuf p.buffer).retryReloc r p.block p.buffer
      | .own _ => s.retryReloc r p.block p.buffer
    | none => match buf.owner with
      | .own o => s.startReloc o p.block p.page p.buffer
      | .relocation _ => s.freeBuf p.buffer

/-- The end of a PROGRAM (R125). -/
def State.endProgram (s : State) (b : Nat) (p : ProgramReq) (success : Bool) : State :=
  let s1 := s.setBank b { s.bank b with op := none }
  match s1.buf? p.buffer with
  | none => s1.arbitrate b
  | some buf => (if success then s1.programDone p buf else s1.programFailed p buf).arbitrate b

/-- The bytes of a place after an APPEND: the entry, or what the device left. -/
def State.writePlace (s : State) (k : Nat) (bs : List Byte) : State :=
  { s with mem := memPut s.mem (placeAddress k) (bs.take Config.placeBytes) }

/-- The end of an APPEND: the place holds the entry, or is spoiled and the same entry is appended again at the next
empty place (R137; log 31). -/
def State.endAppend (s : State) (b g k : Nat) (success : Bool) (left : List Byte) : State :=
  let x := s.bank b
  let s1 : State := { s with stc := { s.stc with emptyPlaces := s.stc.emptyPlaces.filter (· != k) } }
  if success then ((s1.writePlace k (placeEntry g)).setBank b { x with op := none }).arbitrate b
  else
    (State.setBank
      { s1.writePlace k left with stc := { s1.stc with spoiled := s1.stc.spoiled + 1 } }
      b { x with op := none, copy := .append g :: x.copy }).arbitrate b

/-- An erase of a block the scrub placed lowers the scrub remaining; at 0 the part is READY (R139). -/
def State.scrubCount (s : State) (scrub : Bool) : State :=
  if scrub then
    let s1 : State := { s with stc := { s.stc with scrubRemaining := s.stc.scrubRemaining - 1 } }
    if s1.stc.scrubRemaining = 0 ∧ s1.stc.ready = false then
      (State.evalLevels { s1 with stc := { s1.stc with ready := true } }).storeEvent
    else s1
  else s

/-- The end of an erase (R118, R136, R139). -/
def State.endErase (s : State) (b : Nat) (e : Erase) (success : Bool) : State :=
  let s1 := s.setBank b { s.bank b with erase := none }
  let s2 := if success then
      ((s1.eraseBytes e.block).setBlock e.block ⟨.free, []⟩).setBank b
        { s1.bank b with free := (s1.bank b).free ++ [e.block] }
    else s1.badBlock e.block
  (s2.evalLevels.scrubCount e.scrub).arbitrate b

/-- Pages returned to a relocation: read ones are programmed into the target, others are lost there (R134). -/
def State.relocRead (s : State) (o : Owner) (r : ReadReq) (errors : List Nat) : State :=
  match s.activeReloc o with
  | none => s
  | some x =>
    match x.target with
    | none => s
    | some t =>
      let page : State → Nat → State := fun q p =>
        match q.stc.buffers.find? (fun e => e.2.owner == .relocation o && e.2.page == p && !e.2.discarded) with
        | none => q
        | some e =>
          if errors.contains p then ((q.freeBuf e.1).losePages t [p]).pageCopied o p
          else (q.setBuf e.1 { e.2 with
            state := .pending, data := q.bankPage r.block p, committed := Config.pageBytes }).offer e.1
      r.pages.foldl page s

end Sys2Proof.Machine
end

