-- ==== Sys2Proof/Machine/Runs.lean ====
section
/-! DEFINITION. The Intake Unit (spec 03): writing units into runs, breaking and completing them, overruns, the parse
of a role's byte stream, and what the intake does at a loss of sync, a close and an abort. -/

namespace Sys2Proof.Machine

/-! ## Space in a run (R59) -/

/-- Asks for the block that the write position needs, when the run's list does not reach it yet: answers whether the run
has it (R59, R128). -/
def State.runBlock (s : State) (slot : Nat) (r : Role) (x : Run) (pos : Nat) : State × Bool :=
  if pos < x.headOffset + x.blocks.length * Config.blockBytes then (s, true)
  else if Config.intakeReserve < s.freeBlocks then
    match s.freeHead (runStart slot r x) with
    | none => (s, false)
    | some g => (s.appendRunBlock slot r x g, true)
  else (s.addClaim ⟨.run slot r, .block⟩, false)

/-- The block and page of a run offset. -/
def runPage (x : Run) (pos : Nat) : Nat × Nat :=
  (x.blocks.getD ((pos - x.headOffset) / Config.blockBytes) 0, pos % Config.blockBytes / Config.pageBytes)

/-- Asks for the page buffer of the page at the write position: answers whether the run has it (R59, R124). -/
def State.runBuffer (s : State) (slot : Nat) (r : Role) (pos : Nat) : State × Bool :=
  match s.run? slot r with
  | none => (s, false)
  | some x =>
    if (s.fillingOf (.run slot r)).isSome then (s, true)
    else if s.freeBuffers = 0 then (s.addClaim ⟨.run slot r, .buffer⟩, false)
    else (s.giveBuffer (.own (.run slot r)) (runPage x pos).1 (runPage x pos).2, true)

/-- Whether the next byte of a run can be written, asking for a block and a buffer where a page begins (R59). -/
def State.runReady (s : State) (slot : Nat) (r : Role) (pos : Nat) : State × Bool :=
  if (s.fillingOf (.run slot r)).isSome then (s, true)
  else match s.run? slot r with
    | none => (s, false)
    | some x =>
      let b := s.runBlock slot r x pos
      if b.2 then b.1.runBuffer slot r pos else b

/-- Puts bytes of one page into the FILLING buffer; a full buffer is committed, becomes PENDING and is offered
(R54, R55, R125). -/
def State.putRun (s : State) (slot : Nat) (r : Role) (bs : List Byte) : State :=
  let rec0 := s.intake slot r
  let s1 := s.setIntake slot r { rec0 with writePos := rec0.writePos + bs.length }
  match s1.fillingOf (.run slot r) with
  | none => s1
  | some i => match s1.buf? i with
    | none => s1
    | some b =>
      if b.data.length + bs.length < Config.pageBytes then s1.setBuf i { b with data := b.data ++ bs }
      else (s1.setBuf i { b with state := .pending, data := b.data ++ bs, committed := Config.pageBytes }).offer i

/-- Writes bytes at the write position, page by page; answers the bytes that a refusal left unwritten (R54, R59). -/
def State.writeRun (slot : Nat) (r : Role) : Nat → List Byte → State → State × List Byte
  | 0, bs, s => (s, bs)
  | fuel + 1, bs, s =>
    match bs with
    | [] => (s, [])
    | b :: t =>
      let q := s.runReady slot r (s.intake slot r).writePos
      if q.2 then
        let n := Config.pageBytes - (q.1.intake slot r).writePos % Config.pageBytes
        State.writeRun slot r fuel ((b :: t).drop n) (q.1.putRun slot r ((b :: t).take n))
      else (q.1, b :: t)

/-- How many pages a write of `n` bytes can touch. -/
def writeFuel (n : Nat) : Nat := n / Config.pageBytes + 3

/-- Writes bytes into a run. -/
def State.writeBytes (s : State) (slot : Nat) (r : Role) (bs : List Byte) : State × List Byte :=
  State.writeRun slot r (writeFuel bs.length) bs s

/-! ## Units (R53 to R62) -/

/-- The stamp of a unit header. -/
def headerStamp (h : List Byte) : Stamp := BitVec.ofNat 32 (beNat ((h.drop 4).take 4))

/-- The declared body length of a unit header. -/
def headerLength (h : List Byte) : Nat := beNat ((h.drop 8).take 2)

/-- Whether a unit counts as KEY: VOICE always does (R57). -/
def headerKey (r : Role) (h : List Byte) : Bool := (r == .voice) || (h.getD 3 0).getLsbD 0

/-- The kind byte of a unit header: MEDIA 1, END 2, FILLER 3 (spec 11.4). -/
def headerKind (h : List Byte) : Nat := (h.getD 2 0).toNat

/-- An accepted header: a known kind and an agreeing check (R51). -/
def headerAccepted (h : List Byte) : Bool :=
  (headerKind h == 1 || headerKind h == 2 || headerKind h == 3)
    && (h.drop 14).take 2 == be2 (check16 (h.take 14)).toNat

/-- The intake suffix (spec 11.4). -/
def suffixBytes (good : Bool) (received : Nat) : List Byte :=
  [if good then 0 else 1, 0, 0, 0] ++ be4 received

/-- The end of the unit in flight: the record returns to HUNT (R52). -/
def IntakeRec.hunt (x : IntakeRec) : IntakeRec :=
  { x with parse := .hunt, seen4C := false, header := [], unitStart := none }

/-- An overrun of a role starts: a report to the SGC and the condition INTAKE_OVERRUN (R61). -/
def State.startOverrun (s : State) (slot : Nat) (r : Role) : State :=
  ((s.setIntake slot r { (s.intake slot r).hunt with overrun := .waiting }).send (.overrunReport slot)).raise
    .intakeOverrun

/-- The suffix is written: it is committed, and the unit noticed (R55, R58). -/
def State.noticeUnit (s : State) (slot : Nat) (r : Role) (stamp : Stamp) (key good : Bool) (start : Nat) : State :=
  let s1 := match s.fillingOf (.run slot r) with
    | none => s
    | some i => match s.buf? i with
      | none => s
      | some b => s.setBuf i { b with committed := b.data.length }
  let x := s1.intake slot r
  (s1.setIntake slot r { x.hunt with lastStamp := some stamp, broken := none }).send
    (.unitNotice ⟨slot, r, stamp, key, some ⟨good, start, x.writePos⟩⟩)

/-- What is still to be written of a broken unit: the rest of its header, the pad and the suffix (R60). -/
def brokenRest (u : BrokenUnit) (reached : Nat) : List Byte :=
  let suffix := suffixBytes u.good u.received
  if reached < 16 then u.header.drop reached ++ List.replicate u.declared 0 ++ suffix
  else if reached < 16 + u.declared then List.replicate (16 + u.declared - reached) 0 ++ suffix
  else suffix.drop (reached - 16 - u.declared)

/-- Writes on a broken unit from the point reached: answers whether it is complete and noticed (R60, R62). -/
def State.completeUnit (s : State) (slot : Nat) (r : Role) (u : BrokenUnit) : State × Bool :=
  let w := s.writeBytes slot r (brokenRest u ((s.intake slot r).writePos - u.start))
  if w.2.isEmpty then (w.1.noticeUnit slot r u.stamp u.key u.good u.start, true) else (w.1, false)

/-- Holds a unit as the role's broken unit (R60, R61). -/
def State.holdBroken (s : State) (slot : Nat) (r : Role) (u : BrokenUnit) : State :=
  s.setIntake slot r { s.intake slot r with broken := some u }

/-- The unit in BODY as a broken unit, with a received count. -/
def IntakeRec.asBroken (x : IntakeRec) (r : Role) (start : Nat) (good : Bool) (received : Nat) : BrokenUnit :=
  ⟨good, start, x.header, headerStamp x.header, headerKey r x.header, x.declared, received⟩

/-- A request during a unit was refused: the unit is held as broken and an overrun starts (R61; log 20, log 21). -/
def State.refusedInUnit (s : State) (slot : Nat) (r : Role) (good : Bool) : State :=
  let x := s.intake slot r
  match x.unitStart with
  | none => s.startOverrun slot r
  | some start => (s.holdBroken slot r (x.asBroken r start good x.received)).startOverrun slot r

/-- The body is complete: the GOOD suffix is written (R54). -/
def State.finishUnit (s : State) (slot : Nat) (r : Role) : State :=
  let x := s.intake slot r
  match x.unitStart with
  | none => s.setIntake slot r x.hunt
  | some start =>
    let w := s.writeBytes slot r (suffixBytes true x.received)
    if w.2.isEmpty then w.1.noticeUnit slot r (headerStamp x.header) (headerKey r x.header) true start
    else w.1.refusedInUnit slot r (decide (w.2.length < 8))

/-- Breaks a unit in BODY with disposition APPEND (R60). Space that is not at once there starts an overrun (log 22). -/
def State.breakUnit (s : State) (slot : Nat) (r : Role) : State :=
  let x := s.intake slot r
  match x.unitStart with
  | none => s.setIntake slot r x.hunt
  | some start =>
    let u := x.asBroken r start false x.received
    let c := s.completeUnit slot r u
    if c.2 then c.1 else (c.1.holdBroken slot r u).startOverrun slot r

/-! ## Header fates (R53 to R57) -/

/-- A skipped unit: BODY with disposition SKIP, or HUNT at once where it has no body (R53). -/
def State.skipUnit (s : State) (slot : Nat) (r : Role) (h : List Byte) : State :=
  let x := s.intake slot r
  if headerLength h = 0 then s.setIntake slot r x.hunt
  else s.setIntake slot r { x with
    parse := .body, header := h, disposition := .skip, declared := headerLength h, received := 0, unitStart := none }

/-- Whether the discard setting excludes a unit (R57). -/
def excluded (d : DiscardSetting) (r : Role) (key : Bool) : Bool :=
  match d with
  | .off => false
  | .all => true
  | .keyOnly lead taken => taken || !(key && r == lead)

/-- The taken indication of KEY_ONLY set to a value (R57). -/
def DiscardSetting.withTaken (d : DiscardSetting) (taken : Bool) : DiscardSetting :=
  match d with
  | .keyOnly lead _ => .keyOnly lead taken
  | o => o

/-- Appends a unit under test 5: its header is written; a refusal before its first byte drops the unit (R54, R61). -/
def State.appendUnit (s : State) (slot : Nat) (r : Role) (h : List Byte) : State :=
  let s0 := s.setDiscard slot ((s.discard slot).withTaken true)
  let x := s0.intake slot r
  let s1 := s0.setIntake slot r { x with
    parse := .body, header := h, disposition := .append, declared := headerLength h, received := 0,
    unitStart := some x.writePos }
  let w := s1.writeBytes slot r h
  if w.2.isEmpty then (if headerLength h = 0 then w.1.finishUnit slot r else w.1)
  else if w.2.length = h.length then
    (w.1.setDiscard slot ((s.discard slot).withTaken false)).startOverrun slot r
  else w.1.refusedInUnit slot r false

/-- Whether a MEDIA unit is late: below the floor stamp or the last noticed stamp (R53 test 3). -/
def lateUnit (floor last : Option Stamp) (stamp : Stamp) : Bool :=
  (floor.any (fun f => stampBelow stamp f)) || (last.any (fun l => stampBelow stamp l))

/-- The fate of an accepted header (R53); an END header is a role-end notice, its body skipped (R56). -/
def State.unitFate (s : State) (slot : Nat) (r : Role) (h : List Byte) : State :=
  let x := s.intake slot r
  let stamp := headerStamp h
  if headerKind h = 2 then (s.send (.roleEndNotice slot r)).skipUnit slot r h
  else if headerKind h = 3 then s.skipUnit slot r h
  else if lateUnit ((s.lecture? slot).bind (fun l => (l.parts.get r).floorStamp)) x.lastStamp stamp then
    (s.send (.lateDropReport slot r stamp)).skipUnit slot r h
  else if excluded (s.discard slot) r (headerKey r h) then
    ((s.setIntake slot r { x with lastStamp := some stamp }).send
      (.unitNotice ⟨slot, r, stamp, headerKey r h, none⟩)).skipUnit slot r h
  else s.appendUnit slot r h

/-! ## The byte stream (R50 to R52) -/

/-- Hunts over bytes kept from a rejected header: from the first marker on they begin a header, else the record hunts on
(R51). -/
def rehunt : List Byte → List Byte × Bool
  | [] => ([], false)
  | [b] => ([], b == 0x4C)
  | a :: b :: t => if a = 0x4C ∧ b = 0x55 then (a :: b :: t, false) else rehunt (b :: t)

/-- The header held is complete: it is tested (R51). -/
def State.testHeader (s : State) (slot : Nat) (r : Role) (h : List Byte) : State :=
  let x := s.intake slot r
  if headerAccepted h then (s.setIntake slot r x.hunt).unitFate slot r h
  else
    let q := rehunt (h.drop 2)
    s.setIntake slot r { x.hunt with
      parse := if q.1.isEmpty then .hunt else .header, header := q.1, seen4C := q.2 }

/-- One body byte (R53, R54). -/
def State.bodyByte (s : State) (slot : Nat) (r : Role) (x : IntakeRec) (b : Byte) : State :=
  match x.disposition with
  | .skip =>
    if x.received + 1 < x.declared then s.setIntake slot r { x with received := x.received + 1 }
    else s.setIntake slot r x.hunt
  | .append =>
    let w := s.writeBytes slot r [b]
    if w.2.isEmpty then
      let s1 := w.1.setIntake slot r { w.1.intake slot r with received := x.received + 1 }
      if x.received + 1 < x.declared then s1 else s1.finishUnit slot r
    else w.1.refusedInUnit slot r false

/-- One byte of a role's stream; in overrun it is discarded (R51, R52, R61). -/
def State.takeByte (slot : Nat) (r : Role) (s : State) (b : Byte) : State :=
  let x := s.intake slot r
  if x.overrun != .clear then s
  else match x.parse with
    | .hunt =>
      if x.seen4C && b == 0x55 then
        s.setIntake slot r { x with parse := .header, header := [0x4C, 0x55], seen4C := false }
      else s.setIntake slot r { x with seen4C := b == 0x4C }
    | .header =>
      let h := x.header ++ [b]
      if h.length < 16 then s.setIntake slot r { x with header := h } else s.testHeader slot r h
    | .body => s.bodyByte slot r x b

/-- Whether a lecture record takes cells of a role (R50). -/
def takesCells (l : Option Lecture) (r : Role) : Bool :=
  match l with
  | none => false
  | some l => l.state != .closed && (l.parts.get r).present

/-- The IKU takes one payload cell (R50). -/
def State.takeCell (s : State) (entry : ForwardEntry) (bytes : List Byte) : State :=
  match entry with
  | .free => s
  | .role slot r => if takesCells (s.lecture? slot) r then bytes.foldl (State.takeByte slot r) s else s

/-! ## Loss of sync, close, abort (R63, R64) -/

/-- A record at a loss of sync (R63). -/
def State.lossRecord (s : State) (slot : Nat) (r : Role) : State :=
  let x := s.intake slot r
  if x.overrun != .clear then s
  else if x.parse = .body ∧ x.disposition = .append then s.breakUnit slot r
  else s.setIntake slot r x.hunt

/-- The intake record keys as slots and roles. -/
def intakeKeys (s : State) : List (Nat × Role) :=
  s.iku.recs.filterMap (fun e => (roleOfCode (e.1 % 3)).map (fun r => (e.1 / 3, r)))

/-- The payload cells under way. -/
def payloadCells (s : State) : List (ForwardEntry × List Byte) :=
  s.sent.filterMap (fun m => match m with
    | .payloadCell e bs => some (e, bs)
    | _ => none)

/-- Whether a message is a payload cell. -/
def isPayloadCell : Instr → Bool
  | .payloadCell _ _ => true
  | _ => false

/-- The TRR tells the IKU of a loss of sync: the cells delivered before it are taken first, then every record drops or
breaks its unit (R63; log 24), by increasing slot and role code: the model's choice (log 56). -/
def State.intakeLoss (s : State) : State :=
  let s1 := (payloadCells s).foldl (fun q c => q.takeCell c.1 c.2)
    { s with sent := s.sent.filter (fun m => !isPayloadCell m) }
  (intakeKeys s1).foldl (fun q k => q.lossRecord k.1 k.2) s1

/-- A run's tail is closed (R64, R119). -/
def State.closeRunTail (s : State) (slot : Nat) (r : Role) : State :=
  match s.run? slot r with
  | none => s
  | some x => (s.setRun slot r { x with closed := true }).sealTail (.run slot r) x.blocks

/-- A role's intake at the change to CLOSED without ABORTED (R64; log 44). -/
def State.closeRole (s : State) (slot : Nat) (r : Role) : State :=
  let x := s.intake slot r
  let s1 := if x.parse = .body ∧ x.disposition = .append then s.breakUnit slot r else s.setIntake slot r x.hunt
  if (s1.intake slot r).broken.isSome then s1
  else
    let s2 := (s1.setIntake slot r { s1.intake slot r with overrun := .clear }).withdrawClaim (.run slot r)
    s2.closeRunTail slot r

/-- A role's intake at an abort or an archive: everything in flight is dropped (R64). -/
def State.dropRole (s : State) (slot : Nat) (r : Role) : State :=
  let x := s.intake slot r
  s.setIntake slot r { x.hunt with overrun := .clear, broken := none }

/-- The overrun's claim is granted: a held broken unit is completed, else the record hunts again (R62). The tail of a
CLOSED lecture's run is closed when the completion is done (R64). -/
def State.overrunGranted (s : State) (slot : Nat) (r : Role) : State :=
  let x := s.intake slot r
  match x.broken with
  | none => s.setIntake slot r { x.hunt with overrun := .clear }
  | some u =>
    let c := (s.setIntake slot r { x with overrun := .completing }).completeUnit slot r u
    if c.2 then
      let s1 := c.1.setIntake slot r { c.1.intake slot r with overrun := .clear }
      match s1.lecture? slot with
      | none => s1
      | some l => if l.state = .closed then s1.closeRunTail slot r else s1
    else c.1.setIntake slot r { c.1.intake slot r with overrun := .waiting }

end Sys2Proof.Machine
end

