-- ==== Sys2Proof/Machine/Claims.lean ====
section
/-! DEFINITION. Waiting claims and who is granted what (R129), with the lane's writing into its extent, which a grant
lets go on (R93, R94). -/

namespace Sys2Proof.Machine

/-! ## A lane and its extent (R93, R123) -/

/-- The job a lane holds. -/
def State.laneJob (s : State) (n : Nat) : Option Job := (s.lane n).job.bind s.job?

/-- The extent a lane writes, while its record is still in use for the lane's job (R123). -/
def State.laneExtent (s : State) (n : Nat) : Option (Nat × Extent) :=
  match s.laneJob n with
  | none => none
  | some j => match j.extent with
    | none => none
    | some e => (s.extentFor e j.slot j.segment j.rendition).map (fun x => (e, x))

/-- Where the next output byte of an extent goes: the end of its last buffer that no discard has reached, else its
committed length (R93, R126). -/
def State.extentEnd (s : State) (n : Nat) (x : Extent) : Nat :=
  (s.stc.buffers.filter (fun e => e.2.owner == .own (.extent n) && !e.2.discarded)).foldl
    (fun a e => max a (outputBase x.blocks e.2 + e.2.data.length)) x.committed

/-- Writes the lane's queued output into the FILLING buffer of its extent as far as the page has room; a full buffer
becomes PENDING (R93, R125). -/
def State.laneFill (s : State) (n : Nat) : State :=
  let l := s.lane n
  match s.laneExtent n with
  | none => s.setLane n { l with output := [] }
  | some (e, _) =>
    match s.fillingOf (.extent e) with
    | none => s
    | some i => match s.buf? i with
      | none => s
      | some b =>
        let room := Config.pageBytes - b.data.length
        let data := b.data ++ l.output.take room
        (s.setBuf i { b with
          data := data, state := if data.length < Config.pageBytes then .filling else .pending }).setLane n
          { l with output := l.output.drop room }

/-- Gives a lane the buffer of the page at the end of its extent, and the lane writes on (R93). -/
def State.laneTakeBuffer (s : State) (n e : Nat) (x : Extent) : State :=
  let pos := s.extentEnd e x
  (s.giveBuffer (.own (.extent e)) (x.blocks.getD (pos / Config.blockBytes) 0)
    (pos % Config.blockBytes / Config.pageBytes)).laneFill n

/-- A lane stops being HELD: a PAUSED timer runs on (R94). -/
def State.unhold (s : State) (n : Nat) : State :=
  let l := s.lane n
  s.setLane n { l with
    held := .none
    timer := match l.timer with
      | .paused t => .running t
      | o => o }

/-- A lane becomes HELD with a waiting claim; HELD for BLOCK pauses its timer (R94). -/
def State.hold (s : State) (n : Nat) (kind : ClaimKind) : State :=
  let l := s.lane n
  (s.setLane n { l with
    held := match kind with
      | .block => .block
      | .buffer => .buffer
    timer := match kind, l.timer with
      | .block, .running t => .paused t
      | _, o => o }).addClaim ⟨.lane n, kind⟩

/-! ## Grants (R129) -/

/-- Whether a claim's reserve rule allows it now (R124, R128). A lane whose extent record is freed waits for nothing
(log 38). -/
def State.grantable (s : State) (c : Claim) : Bool :=
  match c.who, c.kind with
  | .relocation _ _, .block => decide (0 < s.freeBlocks)
  | .relocation _ _, .buffer => decide (0 < s.freeBuffers)
  | .lane n, .block => decide (0 < s.freeBlocks) || (s.laneExtent n).isNone
  | .lane n, .buffer => decide (Config.laneReserve < s.freeBuffers) || (s.laneExtent n).isNone
  | .run _ _, .block => decide (Config.intakeReserve < s.freeBlocks)
  | .run _ _, .buffer => decide (0 < s.freeBuffers)

/-- The waiting claims in the order of R129: relocations, lanes in increasing number, runs. -/
def claimOrder (cs : List Claim) : List Claim :=
  cs.filter (fun c => match c.who with
    | .relocation _ _ => true
    | _ => false)
  ++ (List.range 12).flatMap (fun n => cs.filter (fun c => c.who == .lane n))
  ++ cs.filter (fun c => match c.who with
    | .run _ _ => true
    | _ => false)

/-- Gives a run the block or buffer it waited for (R128, R129). -/
def State.giveRun (s : State) (slot : Nat) (r : Role) (kind : ClaimKind) : State :=
  match s.run? slot r with
  | none => s
  | some x =>
    let pos := (s.intake slot r).writePos
    match kind with
    | .block => (s.runBlock slot r x pos).1
    | .buffer => (s.runBuffer slot r pos).1

/-- Gives a lane the block or buffer it waited for (R94, R129). -/
def State.giveLane (s : State) (n : Nat) (kind : ClaimKind) : State :=
  match s.laneExtent n with
  | none => s.unhold n
  | some (e, x) => match kind with
    | .buffer => (s.unhold n).laneTakeBuffer n e x
    | .block => match s.freeHead (extentStart x) with
      | none => s
      | some g => (s.unhold n).appendExtentBlock e x g

/-- Grants a claim: one block, or one page buffer, with which a relocation reads its next page (R129, R134). -/
def State.grant (s : State) (c : Claim) : State :=
  let s1 := s.withdrawClaim c.who
  match c.who with
  | .relocation o failed => match c.kind with
    | .buffer => s1.copyOn o 1
    | .block => match s1.stc.relocations.find? (fun r => r.failed == failed) with
      | none => s1
      | some r => s1.askTarget r
  | .lane n => s1.giveLane n c.kind
  | .run slot r => s1.giveRun slot r c.kind

/-- Grants the first grantable claim of the order, again and again: one page buffer or block a claim. -/
def State.serveLoop : Nat → State → State
  | 0, s => s
  | fuel + 1, s =>
    match (claimOrder s.stc.claims).find? s.grantable with
    | none => s
    | some c => State.serveLoop fuel (s.grant c)

/-- Whether a relocation's copy can go on: it has its target and nothing under way, and waits for no claim (R134).
The READs of the next burst are queued only when every page of the burst before has been programmed into the target or
found lost: the model's choice (log 81). -/
def State.canCopy (s : State) (r : Relocation) : Bool :=
  r.active && r.target.isSome && !r.final && r.copying.isEmpty
    && !s.stc.claims.any (fun c => c.who == .relocation r.owner r.failed)

/-- The copies that can go on do so, in the order the relocations began (R134). -/
def State.resumeCopies (s : State) : State :=
  s.stc.relocations.foldl (fun q r => if q.canCopy r then q.copyOn r.owner 8 else q) s

/-- The overruns whose claims of `before` have been granted end, in the order of R129 (R62). -/
def State.endOverruns (s : State) (before : List Claim) : State :=
  (before.filter (fun c => !s.stc.claims.contains c)).foldl (fun q c => match c.who with
    | .run slot r => q.overrunGranted slot r
    | _ => q) s

/-- Serves the waiting claims after blocks or buffers have come free: every claim that can be granted is granted its one
block or buffer (R129). Only what no waiting claim takes is left to the completions of overruns, which may ask for more
(R62), and after them to the copies that go on (R134; log 47). -/
def State.serveClaims (s : State) : State :=
  ((State.serveLoop (s.stc.claims.length + Config.buffers) s).endOverruns s.stc.claims).resumeCopies

end Sys2Proof.Machine
end

