-- ==== Sys2Proof/Machine/Jobs.lean ====
section
/-! DEFINITION. The Job Dispatcher (spec 05) with the lane's side of a job (spec 06): returns, failures, yields, the
start of a job's walk and of a chunk, dispatch passes and preemption. -/

namespace Sys2Proof.Machine

/-! ## Counts (R77, R89) -/

/-- The lane numbers. -/
def laneNumbers : List Nat := List.range 12

/-- Whether a lane is BUSY or DRAINING with a job of a class. -/
def State.laneRuns (s : State) (c : LectureClass) (n : Nat) : Bool :=
  ((s.lane n).state == .busy || (s.lane n).state == .draining)
    && (match s.laneJob n with
        | none => false
        | some j => j.cls == c)

/-- The backlog count (R77). -/
def State.backlogCount (s : State) : Nat := (laneNumbers.filter (s.laneRuns .backlog)).length

/-- The number of lanes running LIVE jobs (R89). -/
def State.liveRunning (s : State) : Nat := (laneNumbers.filter (s.laneRuns .live)).length

/-- Whether some lane is IDLE. -/
def State.anyIdle (s : State) : Bool := laneNumbers.any (fun n => (s.lane n).state == .idle)

/-- LANE_FAILED holds while some lane is FAILED (R107). -/
def State.evalLaneFailed (s : State) : State :=
  s.level .laneFailed (laneNumbers.any (fun n => (s.lane n).state == .failed))

/-! ## Lists and records (R75, R76) -/

/-- The list of a class. -/
def Jdp.list (d : Jdp) : LectureClass → List Nat
  | .live => d.live
  | .backlog => d.backlog

/-- Writes the list of a class. -/
def Jdp.setList (d : Jdp) (c : LectureClass) (l : List Nat) : Jdp :=
  match c with
  | .live => { d with live := l }
  | .backlog => { d with backlog := l }

/-- A fresh job takes the lowest free record and joins the tail of its class's list (R75, R76). -/
def State.createJob (s : State) (j : Job) : State :=
  match s.jdp.jobs.freeFrom Config.jobs 0 with
  | none => s
  | some k =>
    let d := (s.setJob k j).jdp
    { s with jdp := d.setList j.cls (d.list j.cls ++ [k]) }

/-- A job leaves its list, and waits for no extent record. -/
def State.unlistJob (s : State) (k : Nat) : State :=
  { s with jdp := { s.jdp with
      live := s.jdp.live.filter (· != k), backlog := s.jdp.backlog.filter (· != k)
      waits := s.jdp.waits.filter (· != k) } }

/-- Whether a message is a discard request for a job. -/
def isDiscardOf (k : Nat) : Instr → Bool
  | .discardRequest _ job => job == k
  | _ => false

/-- A job record is freed, and the SGC told (R75). A discard request for the job would find nothing and goes with it
(R98; log 42). -/
def State.freeJob (s : State) (k : Nat) : State :=
  let s1 := s.unlistJob k
  State.send
    { s1 with
      jdp := { s1.jdp with jobs := s1.jdp.jobs.del k }
      sent := s1.sent.filter (fun m => !isDiscardOf k m) } .jobRecordFreed

/-- A job that leaves a lane without ending returns to the head of its class's list (R76); one that an abort is
discarding is dropped instead (R87, R98). -/
def State.returnJob (s : State) (k : Nat) (j : Job) : State :=
  if s.sent.any (isDiscardOf k) then s.freeJob k
  else
    let d := (s.setJob k { j with lane := none, order := none }).jdp
    { s with jdp := d.setList j.cls (k :: d.list j.cls) }

/-- A lane's yield is spent or withdrawn (R82, R83). -/
def State.clearYield (s : State) (n : Nat) : State :=
  { s with jdp := { s.jdp with yields := s.jdp.yields.filter (· != n) } }

/-! ## A lane lets its job go (R96 to R102) -/

/-- Whether a READ was asked for by a lane. -/
def Reader.ofLane (n : Nat) : Reader → Bool
  | .lane m _ _ => m == n
  | _ => false

/-- A lane's chunk is overtaken: timer stopped, claim and reads withdrawn, uncommitted output discarded, yield withdrawn
(R83, R96 to R102, R126). -/
def State.overtake (s : State) (n : Nat) : State :=
  let s1 := match s.laneExtent n with
    | none => s
    | some (e, _) => s.discardUncommitted e
  let s2 := ((s1.withdrawClaim (.lane n)).withdrawReads (Reader.ofLane n)).clearYield n
  s2.setLane n { s2.lane n with
    held := .none, timer := .stopped, output := [], reads := PerRole.all none, received := [] }

/-- A lane takes a state without a job, and a LANE event is queued when its state changes (R107). -/
def State.laneWithout (s : State) (n : Nat) (st : LaneState) : State :=
  let l := s.lane n
  let s1 := s.setLane n { l with
    state := st, job := none, held := .none, timer := .stopped, positions := PerRole.all none, output := [],
    reads := PerRole.all none, received := [] }
  if l.state = st then s1 else s1.laneEvent n

/-- The state of a lane whose job has ended: IDLE from BUSY, OUT from DRAINING (R95, R97, R98). -/
def afterJob : LaneState → LaneState
  | .draining => .out
  | _ => .idle

/-- A job ends FAILED (R85): its extent is given up, its outcome reported, its record freed, JOB_FAILED raised. -/
def State.failJob (s : State) (k : Nat) (j : Job) (reason : FailReason) : State :=
  let s1 := match j.extent with
    | none => s
    | some e => s.giveUpExtent e j.slot j.segment j.rendition
  ((s1.send (.jobOutcome j.slot j.segment j.rendition (.failed reason))).freeJob k).raise .jobFailed

/-- The job of a lane ends FAILED with one of the three reasons a lane reports (R85, R97). The PART event of JOB_FAILED
(R85 step 4) is queued before the LANE event of the lane's new state (R97 step 4): the model's choice (log 72). -/
def State.failLaneJob (s : State) (n : Nat) (reason : FailReason) : State :=
  match (s.lane n).job, s.laneJob n with
  | some k, some j => ((s.overtake n).failJob k j reason).laneWithout n (afterJob (s.lane n).state)
  | _, _ => s

/-- The job of a lane returns to the head of its class's list, its chunk overtaken, and the lane takes a state
(R84, R102, R114). -/
def State.returnLaneJob (s : State) (n : Nat) (st : LaneState) : State :=
  match (s.lane n).job, s.laneJob n with
  | some k, some j => ((s.overtake n).returnJob k j).laneWithout n st
  | _, _ => s

/-- A job ends DONE: its extent is closed, its outcome reported, its record freed (R75, R80). -/
def State.finishJob (s : State) (k : Nat) (j : Job) (e : Nat) : State :=
  ((s.closeExtent e j.slot j.segment j.rendition).send (.jobOutcome j.slot j.segment j.rendition (.done e))).freeJob k

/-! ## Source positions (R91, R92) -/

/-- The segment record a job works on. -/
def State.jobSegment (s : State) (j : Job) : Option Segment :=
  (s.lecture? j.slot).bind (fun l => l.window.find? (fun g => g.number == j.segment))

/-- The block of a run offset. -/
def runBlockAt (x : Run) (off : Nat) : Nat := x.blocks.getD ((off - x.headOffset) / Config.blockBytes) 0

/-- The page of a run offset within its block. -/
def pageAt (off : Nat) : Nat := off % Config.blockBytes / Config.pageBytes

/-- The first stamp of a chunk (R91). -/
def chunkStart (g : Segment) (k : Nat) : Stamp := (g.leadStart.getD 0) + BitVec.ofNat 32 (1000 * k)

/-- The roles a job's profile consumes. -/
def State.jobRoles (s : State) (j : Job) : List Role :=
  match s.profile? j.profile with
  | none => []
  | some p => allRoles.filter (fun r => p.roles.get r)

/-- The start offset of each role that a job's profile consumes and whose range in the job's segment is not EMPTY
(R91). -/
def State.jobStarts (s : State) (j : Job) : PerRole (Option Nat) :=
  match s.jobSegment j with
  | none => PerRole.all none
  | some g => g.ranges.map (fun r x =>
      if (s.jobRoles j).contains r && x.status != .empty then x.startOffset else none)

/-- The ticks of the sanity timer of a job's chunk (R73, R96). -/
def State.chunkTicks (s : State) (j : Job) : Nat :=
  match s.profile? j.profile with
  | none => 0
  | some p => p.limit * Config.ticksPerMs

/-- The reading of a role at a chunk's start: from its read position, at the chunk's end already where nothing of its
range is left (R92). -/
def SourceRead.start (x : RoleRange) (off : Nat) : SourceRead := ⟨false, off, off, decide (x.endOffset.getD 0 ≤ off)⟩

/-- The readings of a job's roles at a chunk's start (R92). -/
def State.chunkReads (s : State) (j : Job) (positions : PerRole (Option Nat)) : PerRole (Option SourceRead) :=
  match s.jobSegment j with
  | none => PerRole.all none
  | some g => positions.map (fun r o => o.map (SourceRead.start (g.ranges.get r)))

/-- A chunk starts from the read positions (R91, R96). -/
def State.startChunk (s : State) (n : Nat) (j : Job) (k : Nat) (positions : PerRole (Option Nat)) : State :=
  s.setLane n { s.lane n with
    chunk := k, held := .none, timer := .running (s.chunkTicks j), positions := positions, output := [],
    reads := s.chunkReads j positions, received := [] }

/-- A lane begins to walk each role from its start offset to the chunk numbered chunks done; its sanity timer starts
with the chunk (R91). -/
def State.startWalk (s : State) (n : Nat) (j : Job) (starts : PerRole (Option Nat)) : State :=
  s.setLane n { s.lane n with
    chunk := j.done, held := .none, timer := .stopped, positions := PerRole.all none, output := [],
    reads := starts.map (fun _ o => o.map (fun off => ⟨true, off, off, false⟩)), received := [] }

/-- A lane begins the job it was handed: the walk for chunk 0 passes over nothing (R91). -/
def State.beginJob (s : State) (n : Nat) (j : Job) : State :=
  let starts := s.jobStarts j
  if j.done = 0 ∨ starts = PerRole.all none then s.startChunk n j j.done starts else s.startWalk n j starts

/-! ## Dispatch (R77, R78, R71) -/

/-- What came of offering a job to a lane (R78). -/
inductive Offered
  | handed | waits | ended
deriving DecidableEq, Repr

/-- Whether every role a job consumes is EMPTY in its segment (R71). -/
def State.emptySource (s : State) (j : Job) : Bool :=
  match s.jobSegment j with
  | none => false
  | some g => (s.jobRoles j).all (fun r => (g.ranges.get r).status == .empty)

/-- A job refused an extent record waits for one to be reported freed (R78). -/
def State.waitExtent (s : State) (k : Nat) : State := { s with jdp := { s.jdp with waits := s.jdp.waits ++ [k] } }

/-- The lane becomes BUSY with a job and begins it at the chunk numbered chunks done (R78 step 3, R91). -/
def State.handOver (s : State) (n k : Nat) (j : Job) : State × Offered :=
  let count := s.jdp.count + 1
  let j1 : Job := { j with lane := some n, order := some count }
  let s1 := (s.unlistJob k).setJob k j1
  let s2 : State := { s1 with jdp := { s1.jdp with count := count } }
  let l := s2.lane n
  let s3 := (s2.setLane n { l with state := .busy, job := some k }).beginJob n j1
  (if l.state = .busy then s3 else s3.laneEvent n, .handed)

/-- Offers the job at the head of a list to a lane (R78). One that was refused an extent record does not ask again
before a record is reported freed. -/
def State.offerJob (s : State) (n k : Nat) : State × Offered :=
  match s.job? k with
  | none => (s.unlistJob k, .ended)
  | some j =>
    match j.extent with
    | some e =>
      if s.emptySource j then (s.finishJob k j e, .ended) else s.handOver n k j
    | none =>
      if s.jdp.waits.contains k then (s, .waits)
      else match s.freeExtent with
      | none => (s.waitExtent k, .waits)
      | some e =>
        let j1 : Job := { j with extent := some e }
        if s.emptySource j then
          ((s.takeExtent e j.slot j.segment j.rendition .closed).finishJob k j1 e, .ended)
        else ((s.takeExtent e j.slot j.segment j.rendition .writing).setJob k j1).handOver n k j1

/-- The candidate of a dispatch pass (R77). -/
def State.candidate (s : State) : Option Nat :=
  if decide (s.backlogCount < s.jdp.floor) && !s.jdp.backlog.isEmpty then s.jdp.backlog.head?
  else match s.jdp.live with
    | k :: _ => some k
    | [] => s.jdp.backlog.head?

/-- A dispatch pass (R77). -/
def State.dispatchLoop : Nat → State → State
  | 0, s => s
  | fuel + 1, s =>
    match laneNumbers.find? (fun n => (s.lane n).state == .idle) with
    | none => s
    | some n => match s.candidate with
      | none => s
      | some k =>
        let o := s.offerJob n k
        match o.2 with
        | .waits => o.1
        | _ => State.dispatchLoop fuel o.1

/-! ## Preemption (R81 to R83) -/

/-- Yields are withdrawn, latest set first, while they exceed a bound of R81 or a lane is IDLE (R83; log 29). -/
def State.withdrawYields : Nat → State → State
  | 0, s => s
  | fuel + 1, s =>
    let y := s.jdp.yields
    if y.isEmpty then s
    else if !s.jdp.preemption || s.anyIdle || decide (s.jdp.live.length < y.length)
        || decide (s.backlogCount - s.jdp.floor < y.length) then
      State.withdrawYields fuel { s with jdp := { s.jdp with yields := y.dropLast } }
    else s

/-- Whether a lane's job is being discarded by an abort (R87). -/
def State.discarding (s : State) (n : Nat) : Bool :=
  match (s.lane n).job with
  | none => false
  | some k => s.sent.any (isDiscardOf k)

/-- Whether a lane can take a yield (R81); one whose job an abort is discarding cannot (R87; log 86). -/
def State.canYield (s : State) (n : Nat) : Bool :=
  (s.lane n).state == .busy && s.laneRuns .backlog n && !s.jdp.yields.contains n && !s.discarding n

/-- The dispatch order of the job a lane holds. -/
def State.laneOrder (s : State) (n : Nat) : Word32 := ((s.laneJob n).bind (fun j => j.order)).getD 0

/-- The lane whose job has the latest dispatch order (R81). -/
def State.latestLane (s : State) : List Nat → Option Nat
  | [] => none
  | n :: t => match s.latestLane t with
    | none => some n
    | some m => if stampLater (s.laneOrder n) (s.laneOrder m) then some n else some m

/-- Sets yields one at a time while every condition of R81 would still hold. -/
def State.setYields : Nat → State → State
  | 0, s => s
  | fuel + 1, s =>
    let y := s.jdp.yields
    if s.jdp.preemption && !s.anyIdle && decide (y.length < s.jdp.live.length)
        && decide (y.length < s.backlogCount - s.jdp.floor) then
      match s.latestLane (laneNumbers.filter s.canYield) with
      | none => s
      | some n => State.setYields fuel { s with jdp := { s.jdp with yields := y ++ [n] } }
    else s

/-- What the JDP does after an event that touches its inputs: a dispatch pass, then the yields (R77, R81, R83). -/
def State.settle (s : State) : State :=
  let s1 := State.dispatchLoop (s.jdp.live.length + s.jdp.backlog.length + 1) s
  State.setYields 12 (State.withdrawYields 13 s1)

/-- A yield is spent: the lane takes the head of the LIVE list without the choice of R77 (R82 step 3). -/
def State.takeLive (n : Nat) : Nat → State → State
  | 0, s => s.laneWithout n .idle
  | fuel + 1, s =>
    match s.jdp.live with
    | [] => s.laneWithout n .idle
    | k :: _ =>
      let o := s.offerJob n k
      match o.2 with
      | .handed => o.1
      | .waits => o.1.laneWithout n .idle
      | .ended => State.takeLive n fuel o.1

/-! ## The chunk end (R95) -/

/-- The units at which a lane's readings stand: at the end of a chunk, each role's next read position (R92). -/
def Lane.nextPositions (l : Lane) : PerRole (Option Nat) := l.reads.map (fun _ o => o.map SourceRead.unit)

/-- The commit of a chunk (R95 steps 1 to 3; chunks done rises by one, R79). The lane needs no read of the chunk any
more (R127). -/
def State.commitChunk (s : State) (n k : Nat) (j : Job) : State :=
  let s1 := match s.laneExtent n with
    | none => s
    | some (e, x) => s.commitExtent e x (s.extentEnd e x)
  ((s1.setJob k { j with done := j.done + 1 }).withdrawReads (Reader.ofLane n)).setLane n
    { s1.lane n with timer := .stopped }

/-- What follows a commit (R95 steps 4 to 6; the end of a drain, R101). `j` is the job with its chunks done raised. -/
def State.afterCommit (s : State) (n k : Nat) (j : Job) : State :=
  let yields := s.jdp.yields.contains n
  let st := (s.lane n).state
  if j.done = j.total then
    let s1 := (s.clearYield n).finishJob k j (j.extent.getD 0)
    if yields then
      State.takeLive n (s1.jdp.live.length + 1)
        (s1.setLane n { s1.lane n with job := none, positions := PerRole.all none })
    else s1.laneWithout n (afterJob st)
  else if yields then
    let s1 := (s.clearYield n).returnJob k j
    State.takeLive n (s1.jdp.live.length + 1)
      (s1.setLane n { s1.lane n with job := none, positions := PerRole.all none })
  else if st = .draining then (s.returnJob k j).laneWithout n .out
  else s.startChunk n j j.done (s.lane n).nextPositions

end Sys2Proof.Machine
end

