-- ==== Sys2Proof/Machine/Segments.lean ====
section
/-! DEFINITION. The Segment Controller's windows (spec 02) and the roles of a lecture (spec 01): opening, cutting,
ending and sealing segments, filing unit notices, admission, lead failover and the stretch discard. -/

namespace Sys2Proof.Machine

/-! ## Records -/

/-- Changes the lecture record of a slot that is not VACANT. -/
def State.modLecture (s : State) (slot : Nat) (f : Lecture → Lecture) : State :=
  match s.lecture? slot with
  | none => s
  | some l => s.setLecture slot (f l)

/-- Changes the part of one role. -/
def Lecture.modPart (l : Lecture) (r : Role) (f : RolePart → RolePart) : Lecture :=
  { l with parts := l.parts.set r (f (l.parts.get r)) }

/-- Changes the part of every role. -/
def Lecture.mapParts (l : Lecture) (f : RolePart → RolePart) : Lecture := { l with parts := l.parts.map (fun _ p => f p) }

/-- Changes the segment record of a number in the window. -/
def Lecture.modSegment (l : Lecture) (n : Nat) (f : Segment → Segment) : Lecture :=
  { l with window := l.window.map (fun g => if g.number = n then f g else g) }

/-- The OPEN segment of the window (R22). -/
def Lecture.openSegment (l : Lecture) : Option Segment := l.window.find? (fun g => g.state == .opened)

/-- The CUTTING segment of the window (R22). -/
def Lecture.cuttingSegment (l : Lecture) : Option Segment := l.window.find? (fun g => g.state == .cutting)

/-- A segment record of the window. -/
def Lecture.segment (l : Lecture) (n : Nat) : Option Segment := l.window.find? (fun g => g.number == n)

/-- The present roles of a lecture. -/
def Lecture.roles (l : Lecture) : List Role := allRoles.filter (fun r => (l.parts.get r).present)

/-- Whether a role is live: present, neither ended nor silent (R2). -/
def Lecture.live (l : Lecture) (r : Role) : Bool :=
  (l.parts.get r).present && !(l.parts.get r).ended && !(l.parts.get r).silent

/-- The segment length in milliseconds. -/
def Lecture.segMs (l : Lecture) : Nat := l.segLength * 1000

/-- A role range with no start and no end (R24). -/
def RoleRange.fresh : RoleRange := ⟨none, none, none, none, .pending, .normal, none, false⟩

/-- The target stamp: the smallest base + m·S at or beyond L + S/2 (R26). -/
def targetStamp (base lead : Stamp) (seg : Nat) : Stamp :=
  let d : Int := (lead - base).toInt + seg / 2
  base + BitVec.ofInt 32 (-((-d) / seg) * seg)

/-- Empties the candidate lists of every role (R31). -/
def Lecture.clearLists (l : Lecture) : Lecture := l.mapParts (fun p => { p with candidates := [] })

/-! ## The stretch discard and the IKU (R33) -/

/-- Sets the stretch discard and the IKU's discard setting with it (R33, R57). -/
def State.setStretch (s : State) (slot : Nat) (m : Stretch) : State :=
  match s.lecture? slot with
  | none => s
  | some l =>
    (s.setLecture slot { l with stretch := m }).setDiscard slot
      (match m with
       | .off => .off
       | .all => .all
       | .keyOnly => .keyOnly l.lead false)

/-- A stretch discard ends (R33). -/
def State.endStretch (s : State) (slot : Nat) : State :=
  match s.lecture? slot with
  | none => s
  | some l => if l.stretch = .off then s else s.setStretch slot .off

/-- Whether a cut of the OPEN segment is possible now: room in the window or segment 65535, and no CUTTING record
(R29, R33). -/
def Lecture.canCut (l : Lecture) (g : Segment) : Bool :=
  (decide (l.window.length < 8) || g.number == 65535) && l.cuttingSegment.isNone

/-- Moves a stretch discard from ALL to KEY_ONLY where a cut has become possible (R33). -/
def State.moveStretch (s : State) (slot : Nat) : State :=
  match s.lecture? slot with
  | none => s
  | some l => match l.openSegment with
    | none => s
    | some g => if l.stretch = .all ∧ l.canCut g = true then s.setStretch slot .keyOnly else s

/-! ## Source low marks (R42) -/

/-- The source low mark of a role (R42). -/
def Lecture.sourceMark (l : Lecture) (r : Role) : Nat :=
  let noticed := (l.parts.get r).noticedEnd
  (l.window.filter (fun g => g.state != .complete)).foldl
    (fun a g => min a ((g.ranges.get r).startOffset.getD noticed)) noticed

/-- Presents a role's source low mark to the STC when it has risen (R42). -/
def State.presentMark (slot : Nat) (s : State) (r : Role) : State :=
  match s.lecture? slot with
  | none => s
  | some l =>
    let m := l.sourceMark r
    if (l.parts.get r).lowMark < m then
      (s.setLecture slot (l.modPart r (fun p => { p with lowMark := m }))).send (.sourceLowMark slot r m)
    else s

/-- Presents the source low marks of every present role (R42), by increasing role code: the model's choice (log 78). -/
def State.presentMarks (s : State) (slot : Nat) : State :=
  match s.lecture? slot with
  | none => s
  | some l => l.roles.foldl (State.presentMark slot) s

/-! ## Admission (R43, R44) -/

/-- Asks the JDP for one job for each rendition of a segment, in order (R44). -/
def State.createJobs (s : State) (slot : Nat) (l : Lecture) (g : Segment) : State :=
  (l.profiles.zipIdx).foldl (fun q p =>
    q.createJob ⟨slot, g.number, p.2, p.1, l.cls, 0, g.chunkCount, 0, none, none, none⟩) s

/-- Admits a segment (R44). The JDP then dispatches (R77). -/
def State.admitSegment (s : State) (slot n : Nat) : State :=
  match s.lecture? slot with
  | none => s
  | some l => match l.segment n with
    | none => s
    | some g =>
      State.settle ((s.setLecture slot (l.modSegment n (fun g => { g with state := .working }))).createJobs slot l g)

/-- Whether a waiting segment fits the job pool (R43). -/
def State.fits (s : State) (slot : Nat) : Bool :=
  match s.lecture? slot with
  | none => true
  | some l => decide (l.profiles.length ≤ Config.jobs - s.jdp.jobs.length)

/-- Tries admission: the LIVE list while its head fits, then the BACKLOG list (R43). -/
def State.admitLoop : Nat → State → State
  | 0, s => s
  | fuel + 1, s =>
    match s.sgc.liveAdmission with
    | e :: t =>
      if s.fits e.1 then State.admitLoop fuel (State.admitSegment { s with sgc := { s.sgc with liveAdmission := t } } e.1 e.2)
      else s
    | [] => match s.sgc.backlogAdmission with
      | e :: t =>
        if s.fits e.1 then
          State.admitLoop fuel (State.admitSegment { s with sgc := { s.sgc with backlogAdmission := t } } e.1 e.2)
        else s
      | [] => s

/-- Tries admission (R43). -/
def State.tryAdmission (s : State) : State :=
  State.admitLoop (s.sgc.liveAdmission.length + s.sgc.backlogAdmission.length) s

/-- A segment joins the tail of its class's admission list (R43). -/
def State.joinAdmission (s : State) (c : LectureClass) (slot n : Nat) : State :=
  match c with
  | .live => { s with sgc := { s.sgc with liveAdmission := s.sgc.liveAdmission ++ [(slot, n)] } }
  | .backlog => { s with sgc := { s.sgc with backlogAdmission := s.sgc.backlogAdmission ++ [(slot, n)] } }

/-! ## Sealing (R38, R39) -/

/-- A role range taken to the role's current end (R24). Its end stamp is that of the last unit filed before the role's
end, also where units noticed after that end have moved the noticed end: the model's choice (log 64). -/
def RoleRange.endAt (x : RoleRange) (noticed : Nat) : RoleRange :=
  match x.startOffset with
  | none => { x with
      startOffset := some noticed, startStamp := none, endOffset := some noticed, endStamp := none, cut := .ended }
  | some _ => { x with endOffset := some noticed, endStamp := x.lastUnit, cut := .ended }

/-- The status of a sealed range (R39). -/
def RoleRange.sealStatus (x : RoleRange) : RoleStatus :=
  if x.startOffset = x.endOffset then .empty else if x.skewEnded then .short else .normal

/-- The later of two stamps, either of which may be absent. -/
def laterOf (a b : Option Stamp) : Option Stamp :=
  match a, b with
  | none, b => b
  | a, none => a
  | some a, some b => some (if stampLater b a then b else a)

/-- The end stamp of a sealed segment (R39). -/
def Segment.sealEnd (g : Segment) (roles : List Role) : Option Stamp :=
  match g.cutStamp with
  | some b => some b
  | none => roles.foldl (fun a r => laterOf a (g.ranges.get r).endStamp) none

/-- The duration of a sealed segment (R39). -/
def sealDuration (lead last : Option Stamp) (segMs : Nat) : Nat :=
  match lead, last with
  | some a, some e => if stampLater e a then min (e - a).toNat (4 * segMs) else 0
  | _, _ => 0

/-- The chunk count of a duration (R39). -/
def chunksOf (duration : Nat) : Nat := max 1 ((duration + 999) / 1000)

/-- The segment with its sealing fields fixed (R39). -/
def Segment.fixed (g : Segment) (l : Lecture) : Segment :=
  let ranges := g.ranges.map (fun r x => if (l.parts.get r).present then { x with status := x.sealStatus } else x)
  let last := g.sealEnd l.roles
  let d := sealDuration g.leadStart last l.segMs
  { g with
    state := .sealed, ranges := ranges, endStamp := last, duration := d, chunkCount := chunksOf d, skewRunning := false,
    skewLeft := 0 }

/-- Seals a segment: it joins its admission list and admission is tried (R39). A stretch discard may now move (R33). -/
def State.sealSegment (s : State) (slot n : Nat) : State :=
  match s.lecture? slot with
  | none => s
  | some l =>
    (((s.setLecture slot (l.modSegment n (fun g => g.fixed l))).moveStretch slot).joinAdmission l.cls slot n).tryAdmission

/-- Ends the OPEN segment at its current end and seals it (R38). -/
def State.endOpen (s : State) (slot : Nat) : State :=
  match s.lecture? slot with
  | none => s
  | some l => match l.openSegment with
    | none => s
    | some g =>
      let ended : Segment := { g with ranges := g.ranges.map (fun r x =>
        if (l.parts.get r).present then x.endAt (l.parts.get r).noticedEnd else x) }
      let l1 := { (l.modSegment g.number (fun _ => ended)).clearLists with forcedCut := false }
      ((s.setLecture slot l1).endStretch slot).sealSegment slot g.number

/-! ## Opening (R25) -/

/-- The lead's start of a segment whose lead start is known at opening: the unit's stamp and start offset. -/
def startRange (stamp : Stamp) (offset : Nat) : RoleRange :=
  ⟨some offset, some stamp, none, none, .pending, .normal, some stamp, false⟩

/-- A segment record as it opens (R25). Until it is sealed its duration and chunk count are 0, the model's choice
(R23 gives none; log 53). -/
def freshSegment (l : Lecture) (lead : Option Stamp) (ranges : PerRole RoleRange) : Segment where
  number := l.nextSegment
  state := .opened
  leadStart := lead
  target := match lead, l.base with
    | some a, some b => some (targetStamp b a l.segMs)
    | _, _ => none
  cutRole := none
  cutStamp := none
  endStamp := none
  duration := 0
  chunkCount := 0
  ranges := ranges
  forcedCut := false
  postponed := false
  damaged := false
  lateDrop := false
  leadWait := false
  renditions := l.profiles.map (fun _ => .pending)
  skewRunning := false
  skewLeft := 0

/-- Opens the next segment: it joins the window, lists empty, a forced cut is disarmed and a stretch discard ends
(R20, R25). -/
def State.openNext (s : State) (slot : Nat) (lead : Option Stamp) (ranges : PerRole RoleRange) : State :=
  match s.lecture? slot with
  | none => s
  | some l =>
    let l1 : Lecture := { l.clearLists with
      window := l.window ++ [freshSegment l lead ranges], forcedCut := false,
      nextSegment := min 65535 (l.nextSegment + 1), endMark := l.endMark || l.nextSegment == 65535 }
    (s.setLecture slot l1).endStretch slot

/-! ## States of the lecture (R12, R14 to R16, R20) -/

/-- Stops every gap timer (R7). -/
def Lecture.stopGaps (l : Lecture) : Lecture := l.mapParts (fun p => { p with gapRunning := false, gapLeft := 0 })

/-- The lecture becomes CLOSED without ABORTED: runs' tails are closed and the channels are told (R16, R64, R152). The
roles are broken and closed by increasing role code, behind the LECTURE event: the model's choices (log 65, log 85). -/
def State.closeLecture (s : State) (slot : Nat) : State :=
  match s.lecture? slot with
  | none => s
  | some l =>
    let s1 := (s.setLecture slot { l.stopGaps with state := .closed }).lectureEvent slot
    (l.roles.foldl (fun q r => q.closeRole slot r) s1).send (.channelWake slot)

/-- In ENDING an empty window closes the lecture (R16). -/
def State.testClosed (s : State) (slot : Nat) : State :=
  match s.lecture? slot with
  | none => s
  | some l => if l.state = .ending ∧ l.window.isEmpty then s.closeLecture slot else s

/-- The lecture becomes ENDING (R14 to R16, R20). -/
def State.enterEnding (s : State) (slot : Nat) : State :=
  ((s.modLecture slot (fun l => { l.stopGaps with state := .ending })).lectureEvent slot).testClosed slot

/-- The lecture stalls (R12). -/
def State.stall (s : State) (slot : Nat) : State :=
  ((s.modLecture slot (fun l => { l with state := .stalled })).endOpen slot).lectureEvent slot

/-- Lead failover (R8, R34). -/
def State.failover (s : State) (slot : Nat) : State :=
  match s.lecture? slot with
  | none => s
  | some l =>
    if (l.state = .ending ∨ l.state = .closed) ∨ l.live l.lead = true then s
    else match rankedRoles.find? l.live with
      | none => s
      | some r =>
        let s1 := s.setLecture slot { l.clearLists with lead := r }
        let s2 := if l.stretch = .keyOnly then s1.setStretch slot .keyOnly else s1
        s2.lectureEvent slot

/-! ## Filing a unit notice (R27 to R35) -/

/-- A unit notice with offsets. -/
structure FiledUnit where
  role : Role
  stamp : Stamp
  key : Bool
  good : Bool
  start : Nat
  stop : Nat
deriving DecidableEq, Repr

/-- Changes the range of a role in a segment. -/
def Segment.modRange (g : Segment) (r : Role) (f : RoleRange → RoleRange) : Segment :=
  { g with ranges := g.ranges.set r (f (g.ranges.get r)) }

/-- Whether every present role of a segment is CUT or ENDED. -/
def Segment.settled (g : Segment) (roles : List Role) : Bool := roles.all (fun r => (g.ranges.get r).cut != .pending)

/-- The unit of a PENDING role tested against the CUTTING segment (R35): whether it is the cut. -/
def State.fileCutting (s : State) (slot : Nat) (l : Lecture) (g : Segment) (u : FiledUnit) : State × Bool :=
  if u.good && stampFrom u.stamp (g.cutStamp.getD 0) then
    let g1 := g.modRange u.role (fun x => { x with endOffset := some u.start, endStamp := some u.stamp, cut := .cut })
    let s1 := s.setLecture slot (l.modSegment g.number (fun _ => g1))
    (if g1.settled l.roles then s1.sealSegment slot g.number else s1, true)
  else
    (s.setLecture slot (l.modSegment g.number (fun _ => g.modRange u.role (fun x => { x with
      lastUnit := some u.stamp }))), false)

/-- The unit tested as the start of its role in the OPEN segment (R27). -/
def Segment.fileStart (g : Segment) (l : Lecture) (u : FiledUnit) : Segment :=
  match g.leadStart with
  | none =>
    if u.role = l.lead then
      if u.key then
        { g.modRange u.role (fun _ => startRange u.stamp u.start) with
          leadStart := some u.stamp, target := l.base.map (fun b => targetStamp b u.stamp l.segMs) }
      else { g with leadWait := true }
    else g
  | some lead =>
    if u.good && stampFrom u.stamp lead then g.modRange u.role (fun _ => startRange u.stamp u.start) else g

/-- How a role that is not the cut role stands at the lead cut (R29 step 2, R35). -/
def cutRange (l : Lecture) (b : Stamp) (r : Role) (x : RoleRange) : RoleRange :=
  let p := l.parts.get r
  if p.ended || x.startOffset.isNone then x.endAt p.noticedEnd
  else match p.candidates.find? (fun c => stampFrom c.stamp b) with
    | some c => { x with endOffset := some c.offset, endStamp := some c.stamp, cut := .cut }
    | none => x

/-- The range of a role in the segment that opens at a lead cut: a role cut from its list starts there with its cut unit
(R25, R35; log 46). -/
def nextRange (l : Lecture) (u : FiledUnit) (r : Role) (x : RoleRange) : RoleRange :=
  if r = u.role then startRange u.stamp u.start
  else match x.cut, x.endOffset, x.endStamp with
    | .cut, some o, some t => { startRange t o with lastUnit := (l.parts.get r).noticedStamp }
    | _, _, _ => RoleRange.fresh

/-- Takes the lead cut (R29, R32, R41). At the cut of segment 65535 a segment that seals at once is admitted and its jobs
dispatched before the LECTURE event of ENDING is queued: the model's choice (log 85). -/
def State.leadCut (s : State) (slot : Nat) (l : Lecture) (g : Segment) (u : FiledUnit) : State :=
  let ranges := g.ranges.map (fun r x =>
    if !(l.parts.get r).present then x
    else if r = u.role then { x with endOffset := some u.start, endStamp := some u.stamp, cut := .cut }
    else cutRange l u.stamp r x)
  let g1 : Segment := { g with
    cutRole := some u.role, cutStamp := some u.stamp, ranges := ranges, forcedCut := g.forcedCut || l.forcedCut }
  let sealNow := g1.settled l.roles
  let g2 : Segment := if sealNow then g1 else { g1 with
    state := .cutting, skewRunning := true, skewLeft := l.skewLimit * 1000 * Config.ticksPerMs }
  let s1 := s.setLecture slot { (l.modSegment g.number (fun _ => g2)).clearLists with forcedCut := false }
  let s2 := (if sealNow then s1.sealSegment slot g.number else s1).endStretch slot
  if g.number = 65535 then s2.enterEnding slot
  else s2.openNext slot (some u.stamp) (ranges.map (fun r x => nextRange l u r x))

/-- Starts a stretch discard (R33). -/
def State.startStretch (s : State) (slot : Nat) (l : Lecture) (g : Segment) : State :=
  let l1 := { (l.modSegment g.number (fun g => { g with damaged := true })).clearLists with forcedCut := false }
  (s.setLecture slot l1).setStretch slot (if l.canCut g then .keyOnly else .all)

/-- A unit of the lead role whose start is known: the lead cut, the postponement or the stretch limit (R29, R30, R33).
-/
def State.fileLead (s : State) (slot : Nat) (l : Lecture) (g : Segment) (u : FiledUnit) : State :=
  let due := l.forcedCut || (u.key && (g.target.any (fun t => stampFrom u.stamp t)))
  if due && l.canCut g then s.leadCut slot l g u
  else
    let g1 := { g.modRange u.role (fun x => { x with lastUnit := some u.stamp }) with postponed := g.postponed || due }
    let l1 := l.modSegment g.number (fun _ => g1)
    let s1 := s.setLecture slot l1
    let limit := g.leadStart.map (fun a => a + BitVec.ofNat 32 (4 * l.segMs))
    if l.stretch = .off ∧ limit.any (fun t => stampFrom u.stamp t) = true then s1.startStretch slot l1 g1 else s1

/-- A unit of another role whose start is known: the candidate list, or a forced cut at its 257th entry (R31, R32). -/
def State.fileOther (s : State) (slot : Nat) (l : Lecture) (g : Segment) (u : FiledUnit) : State :=
  let l1 := l.modSegment g.number (fun _ => g.modRange u.role (fun x => { x with lastUnit := some u.stamp }))
  if u.good && (g.target.any (fun t => stampFrom u.stamp t)) then
    if (l.parts.get u.role).candidates.length < 256 then
      s.setLecture slot (l1.modPart u.role (fun p => { p with candidates := p.candidates ++ [⟨u.stamp, u.start⟩] }))
    else s.setLecture slot { l1 with forcedCut := true }
  else s.setLecture slot l1

/-- Steps 3 and 4 of R28. -/
def State.fileOpen (s : State) (slot : Nat) (u : FiledUnit) : State :=
  match s.lecture? slot with
  | none => s
  | some l => match l.openSegment with
    | none => s
    | some g =>
      if (g.ranges.get u.role).startOffset.isNone then
        s.setLecture slot (l.modSegment g.number (fun g => g.fileStart l u))
      else if u.role = l.lead then s.fileLead slot l g u
      else s.fileOther slot l g u

/-- Files a unit of a role that has not ended (R28 steps 2 to 4). -/
def State.fileUnit (s : State) (slot : Nat) (u : FiledUnit) : State :=
  match s.lecture? slot with
  | none => s
  | some l => match l.cuttingSegment with
    | none => s.fileOpen slot u
    | some g =>
      if (g.ranges.get u.role).cut = .pending then
        let c := s.fileCutting slot l g u
        if c.2 then c.1.fileOpen slot u else c.1
      else s.fileOpen slot u

/-! ## What a reported unit does to its role (R7, R9) -/

/-- A reported unit of a role: its silent flag clears and its gap timer restarts, except after the role's end; in ENDING
and CLOSED the timer stays STOPPED (R7, R9, R16, R40; log 28). -/
def Lecture.heard (l : Lecture) (r : Role) : Lecture :=
  l.modPart r (fun p =>
    if p.ended then p
    else if l.state = .ending ∨ l.state = .closed then { p with silent := false }
    else { p with silent := false, gapRunning := true, gapLeft := l.gapLimit * 1000 * Config.ticksPerMs })

/-- Whether a lecture waits to open its next segment: it runs with no OPEN segment, segments are left to open, and the
window has room (R13, R22; log 52). -/
def Lecture.opensNext (l : Lecture) : Bool :=
  l.state == .running && l.openSegment.isNone && !l.endMark && decide (l.window.length < 8)

/-- Opens the segment a resumed lecture waits for, once the window has room. R13 opens it at the resume and names no
test of room; R22 lets no window hold more than 8 records. Until a record leaves, the lecture runs with no OPEN
segment and its units are filed into none: the model's choice (log 52). -/
def State.openDue (s : State) (slot : Nat) : State :=
  match s.lecture? slot with
  | none => s
  | some l => if l.opensNext then s.openNext slot none (PerRole.all RoleRange.fresh) else s

/-- A unit notice resumes a STALLED lecture (R13, R20). With 8 records in the window the next segment opens later
(log 52). -/
def State.resume (s : State) (slot : Nat) : State :=
  match s.lecture? slot with
  | none => s
  | some l =>
    if l.state = .stalled then
      let s1 := (s.setLecture slot { l with state := .running }).lectureEvent slot
      if l.endMark then s1.enterEnding slot else s1.openDue slot
    else s

/-- The first lead KEY unit in LOADED starts the lecture (R11). -/
def State.startLecture (s : State) (slot : Nat) (u : FiledUnit) : State :=
  ((s.modLecture slot (fun l => { l with base := some u.stamp, state := .running })).openNext slot (some u.stamp)
    ((PerRole.all RoleRange.fresh).set u.role (startRange u.stamp u.start))).lectureEvent slot

/-- The last stamp and the noticed end of a role follow a notice, the latter with the stamp of its unit
(R2, R24, R36; log 45). -/
def Lecture.noted (l : Lecture) (n : UnitNotice) : Lecture :=
  l.modPart n.role (fun p => { p with
    lastStamp := some n.stamp
    noticedEnd := match n.place with
      | none => p.noticedEnd
      | some x => x.stop
    noticedStamp := match n.place with
      | none => p.noticedStamp
      | some _ => some n.stamp })

/-- The notice as a filed unit, when it carries offsets. -/
def filedUnit (n : UnitNotice) : Option FiledUnit :=
  n.place.map (fun p => ⟨n.role, n.stamp, n.key, p.good, p.start, p.stop⟩)

/-- What the SGC does with a notice once the role has been heard: a unit of an ended role belongs to no segment and
starts no lecture (R10; log 54), else it starts a LOADED lecture, or is filed (R11, R28). -/
def State.useNotice (s : State) (slot : Nat) (n : UnitNotice) : State :=
  match s.lecture? slot, filedUnit n with
  | some l, some u =>
    if (l.parts.get u.role).ended then s
    else if l.state = .loaded then (if u.role = l.lead ∧ u.key then s.startLecture slot u else s)
    else s.fileUnit slot u
  | _, _ => s

/-- The SGC takes a unit notice (R28, R7 to R13). Failover comes first: in LOADED a KEY unit whose own notice moves the
lead to its role starts the lecture (R8, R9, R11), the model's choice (log 62); in RUNNING the unit whose own notice
moves the lead to its role is filed as the lead's, so that it is itself tested for the lead cut (R28, R34), the model's
choice too (log 79). The LECTURE events of a failover and a resume are queued before the unit is filed: the model's
choice (log 85). -/
def State.takeNotice (s : State) (n : UnitNotice) : State :=
  match s.lecture? n.slot with
  | none => s
  | some l =>
    if l.state = .closed ∨ (l.parts.get n.role).present = false then s
    else
      let s1 := s.setLecture n.slot ((l.heard n.role).noted n)
      ((((s1.failover n.slot).resume n.slot).useNotice n.slot n).presentMarks n.slot)

end Sys2Proof.Machine
end

