-- ==== Sys2Proof/Machine/Publication.lean ====
section
/-! DEFINITION. Publication into the catalogue (R46, R47, R143), release and archive of entries (R146, R148), look-ups
(R144), and the abort of a lecture (R17, R18, R87). -/

namespace Sys2Proof.Machine

/-! ## The catalogue (R143) -/

/-- The free entries (R143). -/
def State.freeEntries (s : State) : Nat := Config.catalogue - s.sgc.catalogue.length

/-- Whether a catalogue entry belongs to a segment of a slot. -/
def CatalogueEntry.of (e : CatalogueEntry) (slot segment : Nat) : Bool := e.slot == slot && e.segment == segment

/-- Whether some role of a segment is SHORT (R143). -/
def Segment.short (g : Segment) (l : Lecture) : Bool := l.roles.any (fun r => (g.ranges.get r).status == .short)

/-- The extent of a rendition outcome; none stands for ABSENT (R46). -/
def RenditionState.extent? : RenditionState → Option Nat
  | .done e => some e
  | _ => none

/-- The entries of a published segment, in rendition-index order (R46, R143). -/
def entriesOf (slot : Nat) (l : Lecture) (g : Segment) : List CatalogueEntry :=
  g.renditions.zipIdx.map (fun p =>
    ⟨slot, g.number, p.2, p.1.extent?, g.leadStart, g.duration, g.forcedCut, g.postponed, g.damaged, g.lateDrop,
      g.short l⟩)

/-! ## Publication (R46, R47) -/

/-- The head of a lecture's window when it is COMPLETE and next to publish (R46). -/
def Lecture.publishable (l : Lecture) : Option Segment :=
  l.window.head?.filter (fun g => g.state == .complete && g.number == l.nextPublish)

/-- Whether a lecture's head can be published now: it is COMPLETE and its entries fit (R46). -/
def State.headFits (s : State) (slot : Nat) : Bool :=
  match s.lecture? slot with
  | none => false
  | some l => l.publishable.isSome && decide (l.profiles.length ≤ s.freeEntries)

/-- Publishes the head of a lecture's window (R46 steps 1 to 3). -/
def State.publishHead (s : State) (slot : Nat) (l : Lecture) (g : Segment) : State :=
  let entries := entriesOf slot l g
  let s1 := entries.foldl (fun q e => match e.extent with
    | none => q
    | some n => q.protectExtent n slot g.number e.rendition) s
  let s2 := s1.setLecture slot { l with
    window := l.window.tail, nextPublish := l.nextPublish + 1, published := l.published + 1 }
  { s2 with sgc := { s2.sgc with
      catalogue := s2.sgc.catalogue ++ entries, waiting := s2.sgc.waiting.filter (· != slot) } }

/-- A lecture joins the tail of the wait order, once (R47). -/
def State.joinWaiting (s : State) (slot : Nat) : State :=
  if s.sgc.waiting.contains slot then s else { s with sgc := { s.sgc with waiting := s.sgc.waiting ++ [slot] } }

/-- Publishes a lecture's heads while each is COMPLETE and its entries fit; a head that does not fit waits
(R46 step 4, R47). -/
def State.publishLoop (slot : Nat) : Nat → State → State
  | 0, s => s
  | fuel + 1, s =>
    match s.lecture? slot with
    | none => s
    | some l => match l.publishable with
      | none => s
      | some g =>
        if l.profiles.length ≤ s.freeEntries then State.publishLoop slot fuel (s.publishHead slot l g)
        else s.joinWaiting slot

/-- What follows a publication step of a lecture: a segment that waited for room opens (R22; log 52), R16, R33, the low
marks, and the notice to the DLU (R46 step 5, R42, R152). -/
def State.afterPublication (s : State) (slot : Nat) : State :=
  ((((s.send (.channelWake slot)).openDue slot).moveStretch slot).presentMarks slot).testClosed slot

/-- Publishes from a lecture's head in one step (R46). -/
def State.publishFrom (s : State) (slot : Nat) : State := (State.publishLoop slot 9 s).afterPublication slot

/-- A segment has become COMPLETE: it is published if it is the head and nothing holds it back (R45 to R47). -/
def State.tryPublish (s : State) (slot : Nat) : State :=
  match (s.lecture? slot).bind Lecture.publishable with
  | none => s
  | some _ =>
    if s.sgc.waiting.isEmpty && s.headFits slot then s.publishFrom slot else s.joinWaiting slot

/-- Serves the publication wait order (R47). A lecture whose next head does not fit joins the tail again and the service
goes on with the next one, until one that does not fit stands first: the model's choice (log 55). -/
def State.serveWaiting : Nat → State → State
  | 0, s => s
  | fuel + 1, s =>
    match s.sgc.waiting with
    | [] => s
    | slot :: _ => if s.headFits slot then State.serveWaiting fuel (s.publishFrom slot) else s

/-- Serves the publication wait order after entries have come free (R47). -/
def State.entriesFreed (s : State) : State := State.serveWaiting (s.sgc.waiting.length + 33) s

/-! ## Outcomes (R45) -/

/-- A job's outcome as a rendition state (R45). -/
def outcomeState : JobResult → RenditionState
  | .done e => .done e
  | .failed reason => .failed reason

/-- Sets an element of a list of renditions. -/
def setRendition (l : List RenditionState) (i : Nat) (v : RenditionState) : List RenditionState := l.set i v

/-- The segment with an outcome taken; COMPLETE when none is PENDING (R45). -/
def Segment.outcome (g : Segment) (rendition : Nat) (v : RenditionState) : Segment :=
  let r := setRendition g.renditions rendition v
  { g with renditions := r, state := if g.state = .working ∧ r.all (· != .pending) then .complete else g.state }

/-- The SGC takes a job's outcome (R45). -/
def State.takeOutcome (s : State) (slot segment rendition : Nat) (v : RenditionState) : State :=
  match s.lecture? slot with
  | none => s
  | some l => match l.segment segment with
    | none => s
    | some g =>
      let s1 := s.setLecture slot (l.modSegment segment (fun g => g.outcome rendition v))
      let s2 := s1.presentMarks slot
      if (g.outcome rendition v).state = .complete then s2.tryPublish slot else s2

/-! ## Release (R146) and archive (R148) -/

/-- Removes entries from the catalogue and releases their extents (R146, R148). -/
def State.removeEntries (s : State) (p : CatalogueEntry → Bool) : State :=
  let s1 := (s.sgc.catalogue.filter p).foldl (fun q e => match e.extent with
    | none => q
    | some n => q.releaseExtent n e.slot e.segment e.rendition) s
  { s1 with sgc := { s1.sgc with catalogue := s1.sgc.catalogue.filter (fun e => !p e) } }

/-- The number of segments among catalogue entries, which hold each segment's entries together. -/
def segmentCount (es : List CatalogueEntry) : Nat := (es.filter (fun e => e.rendition == 0)).length

/-- Whether a message concerns a lecture slot and comes to nothing once the slot is VACANT (log 25). -/
def Instr.ofSlot (slot : Nat) : Instr → Bool
  | .unitNotice n => n.slot == slot
  | .roleEndNotice sl _ => sl == slot
  | .lateDropReport sl _ _ => sl == slot
  | .overrunReport sl => sl == slot
  | .jobOutcome sl _ _ _ => sl == slot
  | .sourceLowMark sl _ _ => sl == slot
  | _ => false

/-- Makes the record of a slot VACANT (R148 step 3). -/
def State.vacate (s : State) (slot : Nat) : State :=
  { s with
    sgc := { s.sgc with lectures := s.sgc.lectures.del slot }
    sent := s.sent.filter (fun m => !Instr.ofSlot slot m) }

/-- Archives a CLOSED lecture (R148 steps 1 to 3). The runs are released by increasing role code: the model's choice
(log 77). -/
def State.archive (s : State) (slot : Nat) (l : Lecture) : State :=
  let s1 := s.removeEntries (fun e => e.slot == slot)
  let s2 := l.roles.foldl (fun q r => (q.releaseRun slot r).dropRole slot r) s1
  s2.vacate slot

/-! ## Abort (R17, R18, R87) -/

/-- The JDP drops a job of an aborted lecture (R87). -/
def State.dropJob (s : State) (k : Nat) (j : Job) : State :=
  match j.lane with
  | none => s.freeJob k
  | some n => (s.clearYield n).send (.discardRequest n k)

/-- The JDP drops every job record of a slot (R87), by increasing record number: the model's choice (log 71). -/
def State.dropJobs (s : State) (slot : Nat) : State :=
  (s.jdp.jobs.filter (fun e => e.2.slot == slot)).foldl (fun q e => q.dropJob e.1 e.2) s

/-- The STC gives up every extent of a slot in WRITING or CLOSED (R18), by increasing extent number: the model's choice
(log 70). -/
def State.giveUpExtents (s : State) (slot : Nat) : State :=
  (s.stc.extents.filter (fun e => e.2.slot == slot)).foldl
    (fun q e => q.giveUpExtent e.1 slot e.2.segment e.2.rendition) s

/-- The SGC's own part of an abort (R17 steps 1 to 3). -/
def State.abortRecord (s : State) (slot : Nat) (l : Lecture) : State :=
  let s1 := s.setLecture slot { l.stopGaps.clearLists with
    state := .closed, aborted := true, window := [], forcedCut := false, stretch := .off }
  { s1.setDiscard slot .off with sgc := { s1.sgc with
      liveAdmission := s1.sgc.liveAdmission.filter (fun e => e.1 != slot)
      backlogAdmission := s1.sgc.backlogAdmission.filter (fun e => e.1 != slot)
      waiting := s1.sgc.waiting.filter (· != slot) } }

/-- Aborts a lecture (R17, R18). The DLU is asked for nothing: the wake has its waiting
channels look again, and they find the lecture CLOSED (R19). The extents are given up before the runs are released, and
the runs by increasing role code: the model's choice (log 70). -/
def State.abort (s : State) (slot : Nat) (l : Lecture) : State :=
  let s1 := (s.abortRecord slot l).dropJobs slot
  let s2 := s1.giveUpExtents slot
  let s3 := l.roles.foldl (fun q r => (q.releaseRun slot r).dropRole slot r) s2
  ((s3.send (.channelWake slot)).lectureEvent slot).settle

/-! ## Look-up (R144) -/

/-- The answers of a look-up (R144). -/
inductive Answer
  | entry (e : CatalogueEntry)
  | released | notYet | neverOpened | dropped
deriving DecidableEq, Repr

/-- Whether a segment has opened (R144). -/
def Lecture.opened (l : Lecture) (n : Nat) : Bool := decide (n < l.nextSegment) || (n == 65535 && l.endMark)

/-- The look-up of a segment (R144). -/
def State.lookUp (s : State) (slot segment rendition : Nat) (l : Lecture) : Answer :=
  match s.sgc.catalogue.find? (fun e => e.of slot segment && e.rendition == rendition) with
  | some e => .entry e
  | none =>
    if segment < l.nextPublish then .released
    else if l.state ≠ .closed then .notYet
    else if l.opened segment then .dropped else .neverOpened

end Sys2Proof.Machine
end

