-- ==== Sys2Proof/Machine/Channels.lean ====
section
/-! DEFINITION. The Delivery Unit (spec 08): headers and trailers, beginning and finishing segments, body reads
through two staging places, filling a return cell, and stopping. -/

namespace Sys2Proof.Machine

/-! ## Bytes of headers and trailers (R155, R158, spec 11.5) -/

/-- A bit of a flags field. -/
def bit (b : Bool) (n : Nat) : Nat := if b then 2 ^ n else 0

/-- The flags field of a SEGMENT header (spec 11.5). -/
def headerFlags (absent last : Bool) (e : Option CatalogueEntry) : Nat :=
  bit absent 0 + bit last 1
    + (match e with
       | none => 0
       | some e => bit e.forcedCut 2 + bit e.postponed 3 + bit e.short 4 + bit e.damaged 5 + bit e.lateDrop 6
           + bit e.leadStart.isSome 7)

/-- The 64 bytes of a SEGMENT or END header (spec 11.5): kind, channel, lecture, segment, rendition, label, flags, start
stamp, duration and body length. -/
def deliveryHeader (kind channel : Nat) (l : Lecture) (segment rendition label flags : Nat) (start : Stamp)
    (duration length : Nat) : List Byte :=
  withCheck16 ([0x4C, 0x44] ++ be1 kind ++ be1 channel ++ be4 l.number.toNat ++ be2 l.course.toNat ++ be2 segment
    ++ be1 rendition ++ be1 0 ++ be2 label ++ be2 flags ++ be4 start.toNat ++ be4 duration ++ be4 length
    ++ List.replicate 32 0)

/-- The 16 bytes of a trailer (spec 11.5). -/
def trailerBytes (status : BodyOutcome) (check : Word32) : List Byte :=
  withCheck16 ([0x4C, 0x54] ++ be1 (bodyOutcomeCode status) ++ be1 0 ++ be4 (check32Final check).toNat
    ++ List.replicate 6 0)

/-- The output label of a lecture's rendition (R70). -/
def State.outputLabel (s : State) (l : Lecture) (rendition : Nat) : Nat :=
  match (l.profiles[rendition]?).bind s.profile? with
  | none => 0
  | some p => p.label.toNat

/-- Whether a segment ends the fetch (R151). -/
def Fetch.endsAt (f : Fetch) (n : Nat) : Bool :=
  n == 65535 || (match f.mode with
    | .range last => n == last
    | .follow => false)

/-- Whether the header of a segment carries LAST (R155). -/
def lastFlag (f : Fetch) (l : Lecture) (n : Nat) : Bool :=
  match f.mode with
  | .range last => n == last
  | .follow => l.state == .closed && l.opened n && !(decide (n < 65535) && l.opened (n + 1))

/-! ## Body pages (R153, R154) -/

/-- The staging place of a body page: the page number modulo 2, the model's choice (log 76). -/
def Channel.place (x : Channel) (j : Nat) : Staging := if j % 2 = 0 then x.place0 else x.place1

/-- Writes the staging place of a body page. -/
def Channel.setPlace (x : Channel) (j : Nat) (p : Staging) : Channel :=
  if j % 2 = 0 then { x with place0 := p } else { x with place1 := p }

/-- Bytes of a body page that the body reaches. -/
def bodyPageLength (length j : Nat) : Nat := min Config.pageBytes (length - j * Config.pageBytes)

/-- A page after a body page `j`. -/
def Staging.after (p : Staging) (j : Nat) : Bool :=
  match p with
  | .empty => false
  | .requested k => decide (j ≤ k)
  | .full k _ => decide (j ≤ k)

/-- A read error of a body page: the pad begins at its first byte, later pages are withdrawn or dropped (R154). -/
def State.bodyError (s : State) (c j : Nat) : State :=
  let x := s.channel c
  let start := j * Config.pageBytes
  let x1 : Channel := { x with
    outcome := .readError
    padFrom := match x.padFrom with
      | none => some start
      | some p => some (min p start)
    place0 := if x.place0.after j then .empty else x.place0
    place1 := if x.place1.after j then .empty else x.place1 }
  (s.setChannel c x1).withdrawReads (fun r => match r with
    | .channel d k => d == c && decide (j < k)
    | _ => false)

/-- A body page returned: FULL in its place (R153). -/
def State.stagePage (s : State) (c j : Nat) (bs : List Byte) : State :=
  let x := s.channel c
  s.setChannel c (x.setPlace j (.full j (bs.take (bodyPageLength x.bodyLength j))))

/-- Requests the next body page not yet requested into its place (R153, R127). -/
def State.requestPage (s : State) (c : Nat) : State :=
  let x := s.channel c
  let j := x.nextPage
  if x.bodyLength ≤ j * Config.pageBytes ∨ x.padFrom.isSome then s
  else match x.extent.bind s.extent? with
    | none => s
    | some e =>
      let g := e.blocks.getD (j / Config.blockPages) 0
      let page := j % Config.blockPages
      let s1 := s.setChannel c { x with nextPage := j + 1 }
      match s.bufferedPage g page with
      | some bs => s1.stagePage c j bs
      | none =>
        if s.pageLost g page then s1.bodyError c j
        else
          (s1.setChannel c ((s1.channel c).setPlace j (.requested j))).joinDeliveryRead
            ⟨.channel c j, g, [page], page * Config.pageBytes,
              page * Config.pageBytes + bodyPageLength x.bodyLength j⟩

/-- The end of a delivery READ (R153, R154). -/
def State.channelRead (s : State) (c j : Nat) (r : ReadReq) (errors : List Nat) : State :=
  if (s.channel c).place j = .requested j then
    if r.pages.any errors.contains then s.bodyError c j
    else s.stagePage c j (s.bankPage r.block (r.pages.headD 0))
  else s

/-! ## Beginning a segment (R151, R155) -/

/-- A channel's state follows, with a CHANNEL event when it changes (R160). -/
def State.setChannelState (s : State) (c : Nat) (x : Channel) (st : ChannelState) : State :=
  let s1 := s.setChannel c { x with state := st }
  if (s.channel c).state = st then s1 else s1.channelEvent c

/-- A channel becomes IDLE: its fetch fields and current segment become absent (R155, R156, R160). -/
def State.channelIdle (s : State) (c : Nat) (ending : LastEnding) : State :=
  let x := s.channel c
  let s1 := s.setChannel c { Channel.reset with
    bodyCheck := x.bodyCheck, outcome := x.outcome, lastTrailer := x.lastTrailer, sent := x.sent,
    lastEnding := some ending }
  s1.channelEvent c

/-- The channel with an item built and nothing of it placed. -/
def Channel.build (x : Channel) (item : Item) (bs : List Byte) : Channel :=
  { x with item := some item, position := 0, bytes := bs }

/-- Builds the END header (R155). -/
def State.buildEnd (s : State) (c : Nat) (x : Channel) (f : Fetch) (l : Lecture) : State :=
  s.setChannelState c
    ({ x with hasBody := false, extent := none, bodyLength := 0, placed := 0 }.build .ending
      (deliveryHeader 2 c l (x.lastHeader.getD f.first) f.rendition 0 0 0 0 0)) .sending

/-- Builds the header of an ABSENT segment (R151, R158). -/
def State.buildAbsent (s : State) (c : Nat) (x : Channel) (f : Fetch) (l : Lecture) (n : Nat)
    (e : Option CatalogueEntry) : State :=
  s.setChannelState c
    ({ x with hasBody := false, extent := none, bodyLength := 0, placed := 0, current := some n }.build .header
      (deliveryHeader 1 c l n f.rendition (s.outputLabel l f.rendition) (headerFlags true (lastFlag f l n) e)
        ((e.bind CatalogueEntry.leadStart).getD 0) ((e.map CatalogueEntry.duration).getD 0) 0)) .sending

/-- Builds the header of a segment with a body and requests its first pages (R151, R153, R158). The body outcome is OK
again from here on: the model's choice (log 66). -/
def State.buildBody (s : State) (c : Nat) (x : Channel) (f : Fetch) (l : Lecture) (n : Nat) (e : CatalogueEntry)
    (extent length : Nat) : State :=
  ((s.setChannelState c
    ({ x with
        hasBody := true, extent := some extent, bodyLength := length, current := some n, placed := 0, nextPage := 0,
        padFrom := none, place0 := .empty, place1 := .empty, bodyCheck := check32Start, outcome := .ok }.build .header
      (deliveryHeader 1 c l n f.rendition (s.outputLabel l f.rendition) (headerFlags false (lastFlag f l n) (some e))
        (e.leadStart.getD 0) e.duration length)) .sending).requestPage c).requestPage c

/-- A channel begins a segment by a look-up (R151). -/
def State.beginSegment (s : State) (c n : Nat) : State :=
  let x := s.channel c
  match x.fetch with
  | none => s
  | some f => match s.lecture? f.slot with
    | none => s
    | some l => match s.lookUp f.slot n f.rendition l with
      | .entry e => match e.extent with
        | some m => s.buildBody c x f l n e m (((s.extent? m).map (fun y => y.committed)).getD 0)
        | none => s.buildAbsent c x f l n (some e)
      | .released => s.buildAbsent c x f l n none
      | .dropped => s.buildAbsent c x f l n none
      | .notYet => s.setChannelState c { x with
          current := some n, item := none, position := 0, bytes := [], hasBody := false, extent := none, bodyLength := 0,
          placed := 0 } .waiting
      | .neverOpened => match f.mode with
        | .follow => s.buildEnd c { x with current := some n } f l
        | .range _ => s.buildAbsent c x f l n none

/-- A segment is finished: it is counted, and the fetch ends or the next segment begins (R151, R155, R156). -/
def State.finishSegment (s : State) (c : Nat) : State :=
  let x := { s.channel c with sent := min 65535 ((s.channel c).sent + 1) }
  let s1 := s.setChannel c x
  match x.fetch, x.current with
  | some f, some n =>
    if x.stopRequested then s1.channelIdle c .stopped
    else if f.endsAt n then
      match s1.lecture? f.slot with
      | none => s1.channelIdle c .ended
      | some l => s1.buildEnd c x f l
    else s1.beginSegment c (n + 1)
  | _, _ => s1

/-! ## Placing bytes (R157) -/

/-- The channel with its trailer built (R151, R158). -/
def Channel.buildTrailer (x : Channel) : Channel := x.build .trailer (trailerBytes x.outcome x.bodyCheck)

/-- What follows the last byte of an item (R151, R155, R156). -/
def State.itemDone (s : State) (c : Nat) : State :=
  let x := s.channel c
  match x.item with
  | some .header =>
    let x1 := { x with lastHeader := x.current }
    if !x.hasBody then (s.setChannel c x1).finishSegment c
    else if x.stopRequested then s.setChannel c ({ x1 with outcome := .stopped, cutDue := true }.buildTrailer)
    else if x.bodyLength = 0 then s.setChannel c x1.buildTrailer
    else s.setChannel c { x1 with item := some .body, position := 0, bytes := [] }
  | some .body => s.setChannel c x.buildTrailer
  | some .trailer => (s.setChannel c { x with lastTrailer := some x.outcome }).finishSegment c
  | some .ending => s.channelIdle c (if x.stopRequested then .stopped else .ended)
  | none => s

/-- The body bytes ready from the next one to be placed, within its page (R153, R154). -/
def Channel.readyBody (x : Channel) : List Byte :=
  let left := x.bodyLength - x.placed
  match x.padFrom with
  | some p =>
    if p ≤ x.placed then List.replicate (min left 256) 0
    else match x.place (x.placed / Config.pageBytes) with
      | .full _ bs => (bs.drop (x.placed % Config.pageBytes)).take (p - x.placed)
      | _ => []
  | none => match x.place (x.placed / Config.pageBytes) with
    | .full j bs => if j = x.placed / Config.pageBytes then bs.drop (x.placed % Config.pageBytes) else []
    | _ => []

/-- Places body bytes: they enter the body check, an emptied place takes the next request (R153). -/
def State.placeBody (s : State) (c : Nat) (bs : List Byte) : State :=
  let x := s.channel c
  let placed := x.placed + bs.length
  let j := x.placed / Config.pageBytes
  let emptied := decide (j < placed / Config.pageBytes) || placed == x.bodyLength
  let x1 : Channel := { x with
    placed := placed, position := x.position + bs.length, bodyCheck := check32From x.bodyCheck bs }
  let s1 := s.setChannel c (if emptied then x1.setPlace j .empty else x1)
  let s2 := if emptied then s1.requestPage c else s1
  if placed = x.bodyLength then s2.itemDone c else s2

/-- Places bytes of a header or trailer. -/
def State.placeItem (s : State) (c room : Nat) : State :=
  let x := s.channel c
  let s1 := s.setChannel c { x with
    position := x.position + min room x.bytes.length, bytes := x.bytes.drop room }
  if x.bytes.length ≤ room then s1.itemDone c else s1

/-- Fills a cell with the channel's ready bytes across item boundaries (R157). -/
def State.fillLoop (c : Nat) : Nat → State → List Byte → State × List Byte
  | 0, s, acc => (s, acc)
  | fuel + 1, s, acc =>
    let x := s.channel c
    let room := 256 - acc.length
    if room = 0 ∨ (x.cutDue = true ∧ acc ≠ []) then (s, acc)
    else match x.item with
      | none => (s, acc)
      | some .body =>
        let bs := x.readyBody.take room
        if bs.isEmpty then (s, acc) else State.fillLoop c fuel (s.placeBody c bs) (acc ++ bs)
      | some _ =>
        State.fillLoop c fuel ((s.setChannel c { x with cutDue := false }).placeItem c room) (acc ++ x.bytes.take room)

/-- A return cell of a channel: its bytes and its cut mark (R157). -/
def State.fillCell (s : State) (c : Nat) : State × List Byte × Bool :=
  let cut := (s.channel c).cutDue
  let f := State.fillLoop c 300 s []
  (f.1, f.2, cut && !f.2.isEmpty)

/-! ## Stopping (R156) -/

/-- The DLU takes a STOP on an active channel: the state that follows and the reply code (R156). Behind a partly placed
header with a body the body outcome keeps its value until the header's last byte is placed and the STOPPED trailer is
built: the model's choice (log 84). -/
def State.stopChannel (s : State) (c : Nat) : State × ReplyCode :=
  let s1 := s.withdrawReads (fun r => match r with
    | .channel d _ => d == c
    | _ => false)
  let x := { s1.channel c with place0 := .empty, place1 := .empty }
  let s2 := s1.setChannel c x
  let asked : Channel := { x with stopRequested := true }
  let cut : Channel := ({ asked with outcome := .stopped, cutDue := true }).buildTrailer
  match x.item with
  | none => (s2.channelIdle c .stopped, .done)
  | some .header =>
    if x.position = 0 then (s2.channelIdle c .stopped, .done) else (s2.setChannel c asked, .pending)
  | some .ending =>
    if x.position = 0 then (s2.channelIdle c .stopped, .done) else (s2.setChannel c asked, .pending)
  | some .body => (s2.setChannel c cut, .pending)
  | some .trailer => if x.position = 0 then (s2.setChannel c cut, .pending) else (s2.setChannel c asked, .pending)

/-- The SGC's notice of a lecture slot wakes the channels that wait on it (R152). Several look up again in increasing
channel number: the model's choice (log 60). -/
def State.wakeChannels (s : State) (slot : Nat) : State :=
  (List.range 8).foldl (fun q c =>
    let x := q.channel c
    match x.state, x.fetch, x.current with
    | .waiting, some f, some n => if f.slot = slot then q.beginSegment c n else q
    | _, _, _ => q) s

end Sys2Proof.Machine
end

