-- ==== Sys2Proof/Machine/Trunk.lean ====
section
/-! DEFINITION. The Trunk Receiver and the Trunk Transmitter (spec 09): frame search, sync states, counting and
delivery of forward frames, cell maps, and the building of return frames with the report the CCU gives. -/

namespace Sys2Proof.Machine

/-! ## Alignment words and searches (R162, R163) -/

/-- The alignment word of an even frame. -/
def alignWord : Word32 := 0x4C6D3A91#32

/-- The alignment word of an odd frame: the complement. -/
def alignComplement : Word32 := 0xB392C56E#32

/-- The alignment word of a parity. -/
def parityWord (even : Bool) : Word32 := if even then alignWord else alignComplement

/-- The bits of a frame. -/
def frameBits : Nat := 131072

/-- The search state emptied: examination starts afresh from the next bit (R163, R164, R171). -/
def Trr.searching (t : Trr) : Trr :=
  { t with
    sync := .searchFrame, frameCount := none, evenExpected := none, searchFrames := 0, indexRun := 0, lastIndex := 0,
    checkResults := [], shift := 0, examined := 0, candidates := [], superCheck := none }

/-- Writes the receiver and queues a TRUNK event (R177). -/
def State.trunkChange (s : State) (t : Trr) : State := State.trunkEvent { s with trr := t }

/-- A search gives up: back to SEARCH_FRAME (R164, R165). -/
def State.searchAgain (s : State) : State := s.trunkChange s.trr.searching

/-- The candidates after a bit: those due are tested, the others stand (R163). -/
def testCandidates (word : Word32) (at_ : Nat) (cs : List Candidate) : List Candidate :=
  cs.filterMap (fun c =>
    if c.due ≠ at_ then some c
    else if c.complementSeen = false ∧ word = alignComplement then some ⟨at_ + frameBits, true⟩
    else none)

/-- Whether a candidate passes its second test at a bit (R163). -/
def candidatePasses (word : Word32) (at_ : Nat) (cs : List Candidate) : Bool :=
  cs.any (fun c => c.due == at_ && c.complementSeen && word == alignWord)

/-- One bit of the forward signal in SEARCH_FRAME (R163). -/
def State.searchBit (s : State) (bit : Bool) : State :=
  let t := s.trr
  if t.sync ≠ .searchFrame then s
  else
    let word := (t.shift <<< 1) ||| (if bit then 1 else 0)
    let n := t.examined + 1
    if candidatePasses word n t.candidates then
      s.trunkChange { t.searching with sync := .searchSuperframe, evenExpected := some false }
    else
      let cs := testCandidates word n t.candidates
      { s with trr := { t with
          shift := word, examined := n,
          candidates := if 32 ≤ n ∧ word = alignWord then cs ++ [⟨n + frameBits, false⟩] else cs } }

/-! ## The superframe check (R161) -/

/-- The bytes of cells 1 to 63 of a forward frame. -/
def coveredBytes (f : ForwardFrame) : List Byte := f.control ++ f.payload.flatten

/-- The check in computation after a frame of a frame count: it starts afresh at frame count 0 (R161). -/
def nextSuperCheck (t : Trr) (count : Nat) (f : ForwardFrame) : Option Word16 :=
  if count = 0 then some (check16From 0xFFFF#16 (coveredBytes f))
  else t.superCheck.map (fun r => check16From r (coveredBytes f))

/-- The comparison made at a frame, if one is: frame count 0, checking enabled, a computed superframe behind it
(R161). -/
def superCompare (t : Trr) (count : Nat) (f : ForwardFrame) : Option Bool :=
  if count = 0 ∧ t.checkEnable = true then t.superCheck.map (fun r => r == f.check) else none

/-- A list of results with one more, the oldest dropped beyond a length. -/
def addResult (l : List Bool) (r : Option Bool) (n : Nat) : List Bool :=
  match r with
  | none => l
  | some b => ((l ++ [b]).reverse.take n).reverse

/-- How many results are wrong. -/
def wrongResults (l : List Bool) : Nat := (l.filter (fun b => !b)).length

/-- How many results are correct. -/
def correctResults (l : List Bool) : Nat := (l.filter (fun b => b)).length

/-! ## Entering and leaving IN_SYNC (R166, R169, R170) -/

/-- Entry to IN_SYNC (R166). Search frames keep their value, which is that of SEARCH_CHECK, or 0 from SEARCH_SUPERFRAME:
the model's choice (log 67). -/
def State.enterSync (s : State) (t : Trr) : State :=
  (s.lower .trunkSync).trunkChange { t with
    sync := .inSync, alignmentRun := 0, indexRunInSync := 0, history := [], lossCause := none }

/-- The receiver leaves IN_SYNC (R170). One TRUNK event is queued, also where RETURN_LOST is lowered with it: the
model's choice (R177; log 68). -/
def State.leaveSync (s : State) (cause : LossCause) : State :=
  let t : Trr := { s.trr.searching with
    lossCause := some cause, alignmentRun := 0, indexRunInSync := 0, history := [], farEndRun := 0 }
  ((((State.intakeLoss { s with trr := t }).lower .returnLost).raise .trunkSync).trunkEvent).serveClaims

/-- The first resync condition that holds (R168). -/
def resyncCondition (t : Trr) : Option LossCause :=
  if 4 ≤ t.alignmentRun then some .alignment
  else if 2 ≤ t.indexRunInSync then some .index
  else if t.checkEnable = true ∧ 45 ≤ wrongResults t.history then some .check
  else none

/-! ## Delivery (R167, R169, R174) -/

/-- The forward map in force for a frame: a pending change comes into force at its activation (R174). -/
def Trr.activate (t : Trr) (count : Nat) : Trr :=
  match t.pendingMap with
  | some (m, .next) => { t with map := m, pendingMap := none }
  | some (m, .frame k) => if k = count then { t with map := m, pendingMap := none } else t
  | none => t

/-- The far-end flag of a delivered frame whose alignment word was right (R169). -/
def State.farEnd (s : State) (flag : Bool) : State :=
  let t := s.trr
  if flag = s.condition .returnLost then { s with trr := { t with farEndRun := 0 } }
  else if t.farEndRun + 1 < 2 then { s with trr := { t with farEndRun := t.farEndRun + 1 } }
  else (State.level { s with trr := { t with farEndRun := 0 } } .returnLost flag).trunkEvent

/-- The payload cells of a frame with their map entries, in position order (R167). -/
def payloadMessages (m : Table ForwardEntry) (cells : List (List Byte)) : List Instr :=
  cells.zipIdx.map (fun p => .payloadCell (m.atD (p.2 + 2) .free) p.1)

/-- Delivers a frame: its control cell, its payload cells with the map in force, and its far-end flag (R167). -/
def State.deliver (s : State) (f : ForwardFrame) (count : Nat) (wordRight : Bool) : State :=
  let t := s.trr.activate count
  let s1 : State := { s with
    trr := t, sent := s.sent ++ (.controlCell f.control :: payloadMessages t.map (f.payload.take 62)) }
  if wordRight then s1.farEnd (f.flags.getLsbD 0) else s1

/-! ## Frames in the search states and in IN_SYNC (R164, R165, R167) -/

/-- Whether a number is even. -/
def isEven (n : Nat) : Bool := n % 2 == 0

/-- A frame taken in SEARCH_SUPERFRAME (R164). With checking off search frames are 0 in IN_SYNC (log 67). -/
def State.searchSuperframe (s : State) (f : ForwardFrame) : State :=
  let t := s.trr
  let even := t.evenExpected.getD false
  let frames := min 255 (t.searchFrames + 1)
  let index := f.index.toNat
  if f.word ≠ parityWord even then s.searchAgain
  else
    let inRange := decide (index < 20) && isEven index == even
    let fits := inRange && (t.indexRun == 0 || index == (t.lastIndex + 1) % 20)
    let run := if fits then t.indexRun + 1 else if inRange then 1 else 0
    let t1 : Trr := { t with
      searchFrames := frames, indexRun := run, lastIndex := index, evenExpected := some (!even) }
    if 3 ≤ run then
      let t2 : Trr := { t1 with frameCount := some index, searchFrames := 0, checkResults := [], superCheck := none }
      if t.checkEnable then s.trunkChange { t2 with sync := .searchCheck } else s.enterSync t2
    else if 60 ≤ frames then s.searchAgain
    else { s with trr := t1 }

/-- The frame count of the next frame (R165, R167). -/
def Trr.nextCount (t : Trr) : Nat := (t.frameCount.getD 0 + 1) % 20

/-- A frame taken in SEARCH_CHECK (R165). -/
def State.searchCheck (s : State) (f : ForwardFrame) : State :=
  let t := s.trr
  let count := t.nextCount
  let frames := min 255 (t.searchFrames + 1)
  if f.word ≠ parityWord (isEven count) ∨ f.index.toNat ≠ count then s.searchAgain
  else
    let results := addResult t.checkResults (superCompare t count f) 3
    let t1 : Trr := { t with
      frameCount := some count, searchFrames := frames, checkResults := results, evenExpected := some (!isEven count),
      superCheck := nextSuperCheck t count f }
    if 2 ≤ correctResults results then (s.enterSync t1).deliver f count true
    else if 160 ≤ frames then s.searchAgain
    else { s with trr := t1 }

/-- A saturating 16-bit counter raised by one when a test fails (R173). -/
def raise16 (n : Nat) (fails : Bool) : Nat := if fails then min 65535 (n + 1) else n

/-- A saturating 8-bit run: raised by one when a test fails, else 0 (R162). -/
def runOf (n : Nat) (fails : Bool) : Nat := if fails then min 255 (n + 1) else 0

/-- The receiver after the tests of a frame in IN_SYNC (R167). -/
def Trr.tested (t : Trr) (f : ForwardFrame) : Trr :=
  let count := t.nextCount
  let badWord := f.word != parityWord (isEven count)
  let badIndex := f.index.toNat != count
  let result := superCompare t count f
  { t with
    frameCount := some count, evenExpected := some (!isEven count)
    alignmentErrors := raise16 t.alignmentErrors badWord, alignmentRun := runOf t.alignmentRun badWord
    indexErrors := raise16 t.indexErrors badIndex, indexRunInSync := runOf t.indexRunInSync badIndex
    history := addResult t.history result 50, checkErrors := raise16 t.checkErrors (result == some false)
    superCheck := nextSuperCheck t count f }

/-- A frame taken in IN_SYNC (R167, R168). -/
def State.inSync (s : State) (f : ForwardFrame) : State :=
  let t := s.trr.tested f
  let s1 : State := { s with trr := t }
  let cause := if t.autoResync then resyncCondition t else none
  match cause with
  | some c => s1.leaveSync c
  | none =>
    let count := s.trr.nextCount
    s1.deliver f count (f.word == parityWord (isEven count))

/-! ## Return frames (R161, R174, R176, R183) -/

/-- The code of a reply (spec 11.3). -/
def replyCodeByte : ReplyCode → Nat
  | .done => 0
  | .pending => 1
  | .format => 2
  | .range => 3
  | .state => 4
  | .busy => 5
  | .interlock => 6
  | .inUse => 7
  | .unknown => 8

/-- The kind and number of an event object (spec 11.3). -/
def objectCode : EventObject → Nat × Nat
  | .lecture n => (1, n)
  | .lane n => (2, n)
  | .group n => (3, n)
  | .channel n => (4, n)
  | .trunk => (5, 0)
  | .store => (6, 0)
  | .part => (7, 0)

/-- The code of an event kind (spec 11.3). -/
def eventKindCode : EventKind → Nat
  | .lecture => 1
  | .lane => 2
  | .group => 3
  | .channel => 4
  | .trunk => 5
  | .store => 6
  | .start => 7
  | .alarm => 8

/-- The control cell of a reply (spec 11.3). -/
def replyCell (r : Reply) : List Byte :=
  envelope 0xA0 r.tag (be1 r.code ++ be1 (replyCodeByte r.result) ++ r.fields)

/-- The control cell of an event; a TRUNK event's counters are taken as it leaves (R177, R184, spec 11.3). -/
def eventCell (t : Trr) (e : Event) : List Byte :=
  let o := objectCode e.object
  envelope 0xA1 (word16 (BitVec.ofNat 8 o.1) (BitVec.ofNat 8 o.2))
    (be1 (eventKindCode e.kind) ++ be1 e.merge ++ e.content
      ++ (match e.object with
          | .trunk => counterBytes t
          | _ => []))

/-- An empty control cell (spec 11.3). -/
def emptyCell : List Byte := envelope 0 0 []

/-- The CCU gives the TRT one report: the oldest filled reply, else the head event, else nothing; it leaves the queue
(R183, R184). -/
def State.giveReport (s : State) : State × List Byte :=
  match s.ccu.replies with
  | r :: t => ({ s with ccu := { s.ccu with replies := t } }, replyCell r)
  | [] => match s.ccu.events with
    | e :: t => ({ s with ccu := { s.ccu with events := t } }, eventCell s.trr e)
    | [] => (s, emptyCell)

/-- The return flags byte (R176, spec 11.2). -/
def returnFlags (s : State) : Nat :=
  (if s.trr.sync = .inSync then 0 else 1) + (if s.ccu.controlOverrun then 2 else 0)
    + (if s.ccu.alarmRetired then 4 else 0) + (if s.stc.ready then 8 else 0)
    + 16 * alarmLevelCode (alarmLevel s.ccu.conditions)

/-- The return map in force for a frame (R174). -/
def Trt.activate (t : Trt) (index : Nat) : Trt :=
  match t.pendingMap with
  | some (m, .next) => { t with map := m, pendingMap := none }
  | some (m, .frame k) => if k = index then { t with map := m, pendingMap := none } else t
  | none => t

/-- One payload cell of a return frame: its bytes, its count and its cut mark (R157, R176). -/
def State.returnCell (s : State) (entry : ReturnEntry) : State × List Byte × Nat :=
  match entry with
  | .free => (s, List.replicate 256 s.trr.idleFill, 0)
  | .channel c =>
    let f := s.fillCell c
    (f.1, f.2.1 ++ List.replicate (256 - f.2.1.length) s.trr.idleFill,
      f.2.1.length + (if f.2.2 then 32768 else 0))

/-- The payload cells of a return frame in position order (R157). -/
def State.returnCells (m : Table ReturnEntry) : List Nat → State → State × List (List Byte) × List Nat
  | [], s => (s, [], [])
  | p :: t, s =>
    let c := s.returnCell (m.atD p .free)
    let r := State.returnCells m t c.1
    (r.1, c.2.1 :: r.2.1, c.2.2 :: r.2.2)

/-- The header cell of a return frame (spec 11.2). -/
def returnHeader (index flags check : Nat) (entries : List Nat) : List Byte :=
  be4 (parityWord (isEven index)).toNat ++ be1 index ++ be1 flags ++ be2 check ++ entries.flatMap be2
    ++ List.replicate 124 0

/-- The TRT builds the next return frame (R176). -/
def State.buildReturn (s : State) : State :=
  let index := s.trt.nextIndex
  let t := s.trt.activate index
  let flags := returnFlags s
  let g := State.giveReport { s with trt := t }
  let cells := State.returnCells t.map (List.range' 2 62) g.1
  let check := if index = 0 then t.superCheck.toNat else 0
  let start := if index = 0 then 0xFFFF#16 else t.superCheck
  let frame : ReturnFrame := ⟨index, returnHeader index flags check cells.2.2, g.2, cells.2.1⟩
  { cells.1 with trt := { t with
      nextIndex := (index + 1) % 20, superCheck := check16From start (g.2 ++ cells.2.1.flatten), frame := some frame } }

end Sys2Proof.Machine
end

