-- ==== Sys2Proof/Machine/Control.lean ====
section
/-! DEFINITION. The Control Channel Unit (spec 10): resets, taking a control cell, the way every directive is taken and
answered, and the CCU's own directives. -/

namespace Sys2Proof.Machine

/-- The outcome of a step of the part. -/
abbrev Result := Host.Outcome State Fault Refusal

/-! ## Resets (R139, R178, R191, R192) -/

/-- The bytes an APPEND that a reset abandons leaves in its place: a free value (R116; log 15). -/
def State.abandonAppend (s : State) : State :=
  match (s.bank 0).op with
  | some (.append _ k) =>
    { s with
      mem := memPut s.mem (placeAddress k) ((List.range Config.placeBytes).map (Config.abandonedPlaceByte s.freeDraws))
      freeDraws := s.freeDraws + 1 }
  | _ => s

/-- A group after reset: OFF; its monitor follows its input (R108). -/
def Group.afterReset (g : Group) : Group := { Group.reset with monitorFault := g.monitorFault }

/-- The STC after reset: it reads the bad list and begins the scrub (R139, R195). -/
def State.stcAfterReset (s : State) (unreadable : List Nat) : Stc :=
  Stc.afterReset (listedBlocks s.mem unreadable) (emptyPlacesOf s.mem unreadable) (spoiledOf s.mem unreadable) unreadable
    s.stc.extentPick

/-- Every block takes its after-reset state; the waiting commands, the banks' contents and the inputs stay
(R178, R191). -/
def State.resetBlocks (s : State) (cause : ResetCause) (unreadable : List Nat) (frame : Option ReturnFrame) : State where
  pending := s.pending
  sent := []
  ccu := Ccu.afterReset cause
  trr := Trr.reset
  trt := { Trt.reset with frame := frame }
  iku := ⟨[], []⟩
  sgc := Sgc.reset
  jdp := Jdp.reset
  lanes := []
  groups := s.groups.map (fun e => (e.1, e.2.afterReset))
  stc := s.stcAfterReset unreadable
  mem := s.mem
  channels := []
  freeDraws := s.freeDraws

/-- With nothing to scrub the part is READY at once, with its levels and its STORE event (R139, R140). -/
def State.readyAtReset (s : State) : State := if s.stc.ready then s.evalLevels.storeEvent else s

/-- The in-band reset fires (R190, R191): the return frame being sent stays as it was built. -/
def State.fireReset (s : State) : State :=
  let s1 := s.abandonAppend
  (s1.resetBlocks .directive s.stc.unreadable s.trt.frame).readyAtReset

/-! ## Directives (R179 to R182) -/

/-- What an owner makes of a directive: the state that follows, the reply code and the reply fields. -/
abbrev Answered := State × ReplyCode × List Byte

/-- A refusal or an answer without fields that changes nothing. -/
def State.refuse (s : State) (code : ReplyCode) : Answered := (s, code, [])

/-- The owner's reply fills the place reserved for the directive (R180, R181). -/
def State.answer (code : Nat) (tag : Word16) (a : Answered) : State := a.1.reply code tag a.2.1 a.2.2

/-- A directive that finds four reply places in use is discarded unanswered (R182). -/
def State.capDiscard (s : State) : State :=
  { s with ccu := { s.ccu with controlOverrun := true, discards := min 255 (s.ccu.discards + 1) } }

/-- Step 3 of R179 for a cell that does not fire: the arm is DISARMED. -/
def State.disarm (s : State) : State := { s with ccu := { s.ccu with armed := false } }

/-- A directive command. One that is under way has been handed over by the CCU and is taken by its owner; any other
stands for its control cell and its taking in one step: arm, cap, place, envelope, owner (R179; log 4). -/
def State.directive (s : State) (c : Instr) (code : Nat) (tag : Word16) (envelopeOk : Bool) (act : State → Answered) :
    State :=
  if s.sent.contains c then State.answer code tag (act (s.received c))
  else
    let s1 := s.disarm
    if 4 ≤ s1.placesInUse then s1.capDiscard
    else
      let s2 := s1.reserve code tag
      if envelopeOk then State.answer code tag (act s2) else s2.reply code tag .format []

/-! ## The CCU's own directives (R187 to R190) -/

/-- STATUS (R188). -/
def actStatus (s : State) : Answered :=
  let c := s.ccu
  ({ s with ccu := { c with controlOverrun := false, discards := 0 } }, .done,
    be2 Config.partCode ++ be1 Config.revision ++ be1 (partStateCode s.stc.ready) ++ be1 (causeCode c.cause)
      ++ alarmContent c.conditions c.alarmRetired ++ flag c.controlOverrun ++ be1 c.discards
      ++ be1 (if c.armed then 0 else 1) ++ be1 s.placesInUse ++ be1 c.events.length ++ be2 s.freeBlocks
      ++ be2 s.stc.scrubRemaining)

/-- The conditions with the latched ones inactive (R187). -/
def Conditions.retired (c : Conditions) : Conditions :=
  { c with groupSupply := false, intakeOverrun := false, jobFailed := false }

/-- ALARM_RETIRE (R187). The set of latched conditions is sent as one indication a condition, in the order GROUP_SUPPLY,
INTAKE_OVERRUN, JOB_FAILED: the model's choice (log 18). -/
def actAlarmRetire (s : State) : Answered :=
  let c := s.ccu.conditions
  ({ s with ccu := { s.ccu with conditions := c.retired, alarmRetired := true } }, .done,
    flag c.groupSupply ++ flag c.intakeOverrun ++ flag c.jobFailed ++ conditionBytes c.retired)

/-- RESET_ARM (R189). -/
def actResetArm (s : State) : Answered := ({ s with ccu := { s.ccu with armed := true } }, .done, [])

/-- RESET that does not fire (R190). -/
def actReset (s : State) : Answered := s.refuse .state

/-! ## Taking a control cell (R179) -/

/-- Hands a directive to its owner: the CCU answers its own at once, any other is under way (R179 step 7; log 5). -/
def State.handOverDirective (s : State) (i : Instr) : State :=
  match i with
  | .status tag => State.answer 0x01 tag (actStatus s)
  | .alarmRetire tag => State.answer 0x02 tag (actAlarmRetire s)
  | .resetArm tag => State.answer 0x03 tag (actResetArm s)
  | .reset tag _ => State.answer 0x04 tag (actReset s)
  | i => s.send i

/-- Steps 4 to 7 of R179 for a check-valid cell that holds a directive. -/
def State.cellDirective (s : State) (cell : List Byte) : State :=
  let code := (cellCode cell).toNat
  let tag := cellTag cell
  if 4 ≤ s.placesInUse then s.capDiscard
  else
    let s1 := s.reserve code tag
    if !knownCodes.contains code then s1.reply code tag .unknown []
    else match directiveOfCell cell with
      | none => s1.reply code tag .format []
      | some i => s1.handOverDirective i

/-- The CCU takes a delivered control cell (R179). -/
def State.takeControlCell (s : State) (cell : List Byte) : State :=
  if !cellCheckOk cell then
    { s with trr := { s.trr with controlFailures := min 65535 (s.trr.controlFailures + 1) } }
  else if cellCode cell = 0 then s
  else if s.ccu.armed ∧ cellCode cell = 0x04 ∧ cellLength cell = 0 then s.fireReset
  else s.disarm.cellDirective cell

/-! ## Meanings -/

/-- POWER_ON_RESET (R178, R191): the same effect as the in-band reset, with cause POWER. -/
def execPowerOnReset (unreadable : List Nat) (s : State) : Result :=
  .next (s.abandonAppend.resetBlocks .power unreadable none).readyAtReset

/-- CONTROL_CELL (R179). -/
def execControlCell (cell : List Byte) (s : State) : Result :=
  .next ((s.received (.controlCell cell)).takeControlCell cell)

/-- STATUS (R188). -/
def execStatus (tag : Word16) (s : State) : Result := .next (s.directive (.status tag) 0x01 tag true actStatus)

/-- ALARM_RETIRE (R187). -/
def execAlarmRetire (tag : Word16) (s : State) : Result :=
  .next (s.directive (.alarmRetire tag) 0x02 tag true actAlarmRetire)

/-- RESET_ARM (R189). -/
def execResetArm (tag : Word16) (s : State) : Result := .next (s.directive (.resetArm tag) 0x03 tag true actResetArm)

/-- RESET (R190, R191): it fires when the arm is ARMED and its body length is 0. -/
def execReset (tag : Word16) (bodyLength : Byte) (s : State) : Result :=
  if s.ccu.armed ∧ bodyLength = 0 then .next s.fireReset
  else .next (s.directive (.reset tag bodyLength) 0x04 tag (bodyLength == 0) actReset)

end Sys2Proof.Machine
end

