-- ==== Sys2Proof/Machine/TrunkCommands.lean ====
section
/-! DEFINITION. The commands of the capture trunk (spec 09): its directives, forward frames and return frames. -/

namespace Sys2Proof.Machine

/-! ## Settings (R172) -/

/-- An ON/OFF setting: OFF 0, ON 1 (R193). -/
def onOff (b : Byte) : Option Bool := if b = 0 then some false else if b = 1 then some true else none

/-- What a change of check enable does (R172). -/
def State.setCheck (s : State) (on : Bool) : State :=
  let t := s.trr
  if on = t.checkEnable then s
  else
    let t1 : Trr := { t with checkEnable := on }
    match t.sync with
    | .searchCheck => if on then { s with trr := t1 } else s.enterSync t1
    | .inSync => { s with trr := { t1 with history := [] } }
    | _ => { s with trr := t1 }

/-- What a change of auto-resync does (R172). -/
def State.setAuto (s : State) (on : Bool) : State :=
  let t := s.trr
  let s1 : State := { s with trr := { t with autoResync := on } }
  if on = true ∧ t.autoResync = false ∧ t.sync = .inSync then
    match resyncCondition t with
    | some c => s1.leaveSync c
    | none => s1
  else s1

/-- TRUNK_SET (R172). -/
def actTrunkSet (checkEnable autoResync idleFill : Byte) (s : State) : Answered :=
  match onOff checkEnable, onOff autoResync with
  | some c, some a =>
    ((State.setAuto ((State.setCheck { s with trr := { s.trr with idleFill := idleFill } } c)) a), .done, [])
  | _, _ => s.refuse .range

/-! ## TRUNK_QUERY (R173) -/

/-- An activation as a byte: NEXT is 0xFF (R193). -/
def activationByte : Activation → List Byte
  | .next => be1 255
  | .frame k => be1 k

/-- A pending change as shown: its presence, then its activation (R173, R174). -/
def pendingBytes {α : Type} (p : Option (α × Activation)) : List Byte :=
  match p with
  | none => be1 0 ++ be1 0
  | some x => be1 1 ++ activationByte x.2

/-- A forward map entry (R193). The second byte of FREE is 0, the model's choice (log 18). -/
def forwardBytes : ForwardEntry → List Byte
  | .free => [0xFF, 0]
  | .role slot r => be1 slot ++ be1 (roleCode r)

/-- A return map entry (R193). The second byte of FREE is 0, the model's choice (log 18). -/
def returnBytes : ReturnEntry → List Byte
  | .free => [0xFF, 0]
  | .channel c => be1 c ++ be1 0

/-- The STATE part of a TRUNK_QUERY reply (R173). -/
def trunkStateBytes (s : State) : List Byte :=
  let t := s.trr
  be1 (syncStateCode t.sync) ++ optField 1 be1 t.frameCount ++ be1 t.searchFrames
    ++ optField 1 (fun c => be1 (lossCauseCode c)) t.lossCause ++ be1 t.alignmentRun ++ be1 t.indexRunInSync
    ++ be1 t.history.length ++ be1 (wrongResults t.history) ++ flag t.checkEnable ++ flag t.autoResync ++ [t.idleFill]
    ++ flag (s.condition .returnLost) ++ pendingBytes t.pendingMap ++ pendingBytes s.trt.pendingMap

/-- The map positions. -/
def mapPositions : List Nat := List.range' 2 62

/-- The part of a TRUNK_QUERY reply that the selector names (R173, R193). -/
def trunkQueryBytes (s : State) (selector : Byte) : Option (List Byte) :=
  if selector = 0 then some (trunkStateBytes s)
  else if selector = 1 then some (mapPositions.flatMap (fun p => forwardBytes (s.trr.map.atD p .free)))
  else if selector = 2 then some (mapPositions.flatMap (fun p => returnBytes (s.trt.map.atD p .free)))
  else none

/-- TRUNK_QUERY (R173). -/
def actTrunkQuery (selector clear : Byte) (s : State) : Answered :=
  match trunkQueryBytes s selector, onOff clear with
  | some part, some c =>
    let s1 : State := if c then
      { s with trr := { s.trr with alignmentErrors := 0, indexErrors := 0, checkErrors := 0, controlFailures := 0 } }
      else s
    (s1, .done, counterBytes s.trr ++ part)
  | _, _ => s.refuse .range

/-! ## TRUNK_RESYNC (R171) -/

/-- TRUNK_RESYNC (R171). -/
def actTrunkResync (s : State) : Answered :=
  match s.trr.sync with
  | .inSync => (s.leaveSync .resync, .done, [])
  | .searchFrame => ({ s with trr := s.trr.searching }, .done, [])
  | _ => (s.searchAgain, .done, [])

/-! ## CELLMAP_SET (R175) -/

/-- The activation of a byte (R193). -/
def activationOf (b : Byte) : Option Activation :=
  if b = 0xFF then some .next else if b.toNat < 20 then some (.frame b.toNat) else none

/-- Whether positions lie in 2 to 63 and none is named twice (R175 check 1). -/
def positionsOk (es : List RawMapEntry) : Bool :=
  es.all (fun e => decide (2 ≤ e.position.toNat) && decide (e.position.toNat ≤ 63))
    && decide ((es.map (fun e => e.position)).Nodup)

/-- A forward assignment (R175 check 2, R193). -/
def forwardAssignment (e : RawMapEntry) : Option ForwardEntry :=
  if e.first = 0xFF then some .free
  else if e.first.toNat < 32 then (roleOfCode e.second.toNat).map (fun r => .role e.first.toNat r)
  else none

/-- A return assignment (R175 check 2, R193). -/
def returnAssignment (e : RawMapEntry) : Option ReturnEntry :=
  if e.first = 0xFF then some .free else if e.first.toNat < 8 then some (.channel e.first.toNat) else none

/-- A map with the named positions replaced; none where an assignment is not valid (R175). -/
def replaceEntries {α : Type} (m : Table α) (assign : RawMapEntry → Option α) : List RawMapEntry → Option (Table α)
  | [] => some m
  | e :: t => match assign e with
    | none => none
    | some v => replaceEntries (m.put e.position.toNat v) assign t

/-- CELLMAP_SET for the forward direction (R175). -/
def actForwardMap (a : Activation) (es : List RawMapEntry) (s : State) : Answered :=
  match replaceEntries s.trr.map forwardAssignment es with
  | none => s.refuse .range
  | some m =>
    if s.trr.pendingMap.isSome then s.refuse .busy
    else ({ s with trr := { s.trr with pendingMap := some (m, a) } }, .done, [])

/-- CELLMAP_SET for the return direction (R175). -/
def actReturnMap (a : Activation) (es : List RawMapEntry) (s : State) : Answered :=
  match replaceEntries s.trt.map returnAssignment es with
  | none => s.refuse .range
  | some m =>
    if s.trt.pendingMap.isSome then s.refuse .busy
    else ({ s with trt := { s.trt with pendingMap := some (m, a) } }, .done, [])

/-- CELLMAP_SET (R175). -/
def actCellmapSet (direction activation : Byte) (es : List RawMapEntry) (s : State) : Answered :=
  match activationOf activation with
  | none => s.refuse .range
  | some a =>
    if !positionsOk es then s.refuse .range
    else if direction = 0 then actForwardMap a es s
    else if direction = 1 then actReturnMap a es s
    else s.refuse .range

/-! ## Meanings -/

/-- TRUNK_SET (R172). -/
def execTrunkSet (tag : Word16) (checkEnable autoResync idleFill : Byte) (s : State) : Result :=
  .next (s.directive (.trunkSet tag checkEnable autoResync idleFill) 0x10 tag true
    (actTrunkSet checkEnable autoResync idleFill))

/-- TRUNK_QUERY (R173). -/
def execTrunkQuery (tag : Word16) (selector clear : Byte) (s : State) : Result :=
  .next (s.directive (.trunkQuery tag selector clear) 0x11 tag true (actTrunkQuery selector clear))

/-- TRUNK_RESYNC (R171). -/
def execTrunkResync (tag : Word16) (s : State) : Result :=
  .next (s.directive (.trunkResync tag) 0x12 tag true actTrunkResync)

/-- CELLMAP_SET (R175); an entry count outside 1 to 62 fails the envelope (R179 step 6). -/
def execCellmapSet (tag : Word16) (direction activation : Byte) (es : List RawMapEntry) (s : State) : Result :=
  .next (s.directive (.cellmapSet tag direction activation es) 0x13 tag
    (decide (1 ≤ es.length) && decide (es.length ≤ 62)) (actCellmapSet direction activation es))

/-- FRAME_SEARCH (R163): the next bits of the forward signal, examined in SEARCH_FRAME. -/
def execFrameSearch (bits : List Bool) (s : State) : Result := .next (bits.foldl State.searchBit s)

/-- SUPERFRAME_SEARCH_FRAME (R164): a forward frame taken in SEARCH_SUPERFRAME. -/
def execSuperframeSearchFrame (f : ForwardFrame) (s : State) : Result :=
  .next (if s.trr.sync = .searchSuperframe then s.searchSuperframe f else s)

/-- CHECK_SEARCH_FRAME (R165): a forward frame taken in SEARCH_CHECK. -/
def execCheckSearchFrame (f : ForwardFrame) (s : State) : Result :=
  .next (if s.trr.sync = .searchCheck then s.searchCheck f else s)

/-- IN_SYNC_FRAME (R167): a forward frame taken in IN_SYNC. -/
def execInSyncFrame (f : ForwardFrame) (s : State) : Result :=
  .next (if s.trr.sync = .inSync then s.inSync f else s)

/-- PAYLOAD_CELL (R50): the IKU takes one delivered payload cell. -/
def execPayloadCell (entry : ForwardEntry) (bytes : List Byte) (s : State) : Result :=
  .next ((s.received (.payloadCell entry bytes)).takeCell entry bytes).serveClaims

/-- RETURN_FRAME (R176). -/
def execReturnFrame (s : State) : Result := .next s.buildReturn

end Sys2Proof.Machine
end

