-- ==== Sys2Proof/Machine/Profiles.lean ====
section
/-! DEFINITION. Rendition profiles (spec 04): writing, clearing and querying the profile table. -/

namespace Sys2Proof.Machine

/-- The code of a profile kind (R193). -/
def profileKindCode : ProfileKind → Nat
  | .video => 0
  | .audio => 1
  | .slides => 2

/-- The profile kind of a code (R193). -/
def profileKindOf (b : Byte) : Option ProfileKind :=
  if b = 0 then some .video else if b = 1 then some .audio else if b = 2 then some .slides else none

/-- The number of lectures, not VACANT, whose rendition list holds a profile (R69). -/
def State.profileUsers (s : State) (p : Nat) : Nat :=
  (s.sgc.lectures.filter (fun e => e.2.profiles.contains p)).length

/-- Whether the roles consumed meet the condition of a kind (R66). -/
def rolesFit (k : ProfileKind) (roles : PerRole Bool) : Bool :=
  match k with
  | .video => roles.camera || roles.screen
  | .audio => roles == ⟨false, true, false⟩
  | .slides => roles == ⟨false, false, true⟩

/-- The record that a WRITE gives; none where check 4 of R67 fails. -/
def profileRecord (kind roles bound : Byte) (limit label : Word16) : Option Profile :=
  match profileKindOf kind with
  | none => none
  | some k =>
    let r := rolesOfByte roles
    if rolesFit k r ∧ 1 ≤ bound.toNat ∧ bound.toNat ≤ 64 ∧ 20 ≤ limit.toNat ∧ limit.toNat ≤ 2000 then
      some ⟨k, r, bound.toNat, limit.toNat, label⟩
    else none

/-- PROFILE_SET with an operation byte that is not CLEAR (R67, R68): the operation 1 is WRITE. -/
def actProfileSet (profile operation kind roles bound : Byte) (limit label : Word16) (s : State) : Answered :=
  if 16 ≤ profile.toNat then s.refuse .range
  else if operation ≠ 1 then s.refuse .range
  else if 0 < s.profileUsers profile.toNat then s.refuse .inUse
  else match profileRecord kind roles bound limit label with
    | none => s.refuse .range
    | some p => ({ s with sgc := { s.sgc with profiles := s.sgc.profiles.put profile.toNat p } }, .done, [])

/-- PROFILE_SET with CLEAR (R67, R68). -/
def actProfileClear (profile : Byte) (s : State) : Answered :=
  if 16 ≤ profile.toNat then s.refuse .range
  else if 0 < s.profileUsers profile.toNat then s.refuse .inUse
  else ({ s with sgc := { s.sgc with profiles := s.sgc.profiles.del profile.toNat } }, .done, [])

/-- The fields of a profile record as PROFILE_QUERY shows them; zeros for an invalid record (R69). -/
def profileBytes : Option Profile → List Byte
  | none => List.replicate 8 0
  | some p =>
    flag true ++ be1 (profileKindCode p.kind) ++ be1 (byteOfRoles p.roles) ++ be1 p.bound ++ be2 p.limit
      ++ be2 p.label.toNat

/-- PROFILE_QUERY (R69). -/
def actProfileQuery (profile : Byte) (s : State) : Answered :=
  if 16 ≤ profile.toNat then s.refuse .range
  else (s, .done, profileBytes (s.profile? profile.toNat) ++ be1 (s.profileUsers profile.toNat))

/-! ## Meanings -/

/-- PROFILE_SET_WRITE (R67, R68). -/
def execProfileSetWrite (tag : Word16) (profile operation kind roles bound : Byte) (limit label : Word16) (s : State) :
    Result :=
  .next (s.directive (.profileSetWrite tag profile operation kind roles bound limit label) 0x20 tag true
    (if operation = 0 then actProfileClear profile
     else actProfileSet profile operation kind roles bound limit label))

/-- PROFILE_SET_CLEAR (R67, R68). -/
def execProfileSetClear (tag : Word16) (profile : Byte) (s : State) : Result :=
  .next (s.directive (.profileSetClear tag profile) 0x20 tag true (actProfileClear profile))

/-- PROFILE_QUERY (R69). -/
def execProfileQuery (tag : Word16) (profile : Byte) (s : State) : Result :=
  .next (s.directive (.profileQuery tag profile) 0x21 tag true (actProfileQuery profile))

end Sys2Proof.Machine
end

