-- ==== Sys2Proof/Machine/Lectures.lean ====
section
/-! DEFINITION. The commands of lectures and segments (spec 01, 02, 08): the lecture directives, SEGMENT_QUERY, the
gap and skew timers, and the messages the IKU and the JDP send to the SGC. -/

namespace Sys2Proof.Machine

/-! ## LECTURE_LOAD (R3 to R5) -/

/-- The body fields of a LECTURE_LOAD (R3). -/
structure LoadBody where
  slot : Byte
  number : Word32
  course : Word16
  cls : Byte
  roles : Byte
  segLength : Byte
  skew : Byte
  gap : Byte
  count : Byte
  p0 : Byte
  p1 : Byte
  p2 : Byte
  p3 : Byte
deriving DecidableEq, Repr

/-- The class of a code (R193). -/
def classOf (b : Byte) : Option LectureClass := if b = 0 then some .live else if b = 1 then some .backlog else none

/-- The used profile places (R3). -/
def LoadBody.profiles (b : LoadBody) : List Nat :=
  ([b.p0, b.p1, b.p2, b.p3].take b.count.toNat).map BitVec.toNat

/-- Check 4 of R4 past the class: some role, and the limits in range. -/
def LoadBody.limitsOk (b : LoadBody) : Bool :=
  rolesOfByte b.roles != PerRole.all false
    && decide (2 ≤ b.segLength.toNat ∧ b.segLength.toNat ≤ 20)
    && decide (1 ≤ b.skew.toNat ∧ b.skew.toNat ≤ 8) && decide (2 ≤ b.gap.toNat ∧ b.gap.toNat ≤ 60)

/-- Whether a profile may be named by a lecture with these roles: it is valid and consumes present roles only
(R4 check 5). -/
def State.profileFits (s : State) (roles : PerRole Bool) (p : Nat) : Bool :=
  decide (p < 16) && (match s.profile? p with
    | none => false
    | some x => allRoles.all (fun r => !x.roles.get r || roles.get r))

/-- The per-role part as LECTURE_LOAD sets it (R2). That of a role that is not present, which LECTURE_QUERY shows too,
has its gap timer STOPPED, its flags clear and its stamps absent: the model's choice (log 69). -/
def freshPart (present : Bool) (gap : Nat) : RolePart where
  present := present
  ended := false
  silent := false
  gapRunning := present
  gapLeft := if present then gap * 1000 * Config.ticksPerMs else 0
  lastStamp := none
  floorStamp := none
  noticedEnd := 0
  noticedStamp := none
  lowMark := 0
  candidates := []

/-- The lecture record a LECTURE_LOAD fills (R5). -/
def loadedLecture (b : LoadBody) (cls : LectureClass) : Lecture :=
  let roles := rolesOfByte b.roles
  { number := b.number, course := b.course, cls := cls
    lead := (rankedRoles.find? (fun r => roles.get r)).getD .camera
    segLength := b.segLength.toNat, profiles := b.profiles, skewLimit := b.skew.toNat, gapLimit := b.gap.toNat
    state := .loaded, base := none, nextSegment := 0, nextPublish := 0, published := 0, aborted := false, endMark := false
    forcedCut := false, stretch := .off
    parts := roles.map (fun _ present => freshPart present b.gap.toNat), window := [] }

/-- An empty run (R5, R119). -/
def Run.fresh : Run := ⟨[], 0, none, 0, false⟩

/-- Takes a LECTURE_LOAD (R5, R49, R64, R119). -/
def State.load (s : State) (b : LoadBody) (cls : LectureClass) : State :=
  let slot := b.slot.toNat
  let l := loadedLecture b cls
  let s1 := (s.setLecture slot l).setDiscard slot .off
  let s2 := l.roles.foldl (fun q r => (q.setRun slot r Run.fresh).setIntake slot r IntakeRec.reset) s1
  s2.lectureEvent slot

/-- LECTURE_LOAD (R4, R5). -/
def actLectureLoad (b : LoadBody) (s : State) : Answered :=
  if 32 ≤ b.slot.toNat then s.refuse .range
  else if (s.lecture? b.slot.toNat).isSome then s.refuse .state
  else if s.sgc.lectures.any (fun e => e.2.number == b.number) then s.refuse .inUse
  else match classOf b.cls with
    | none => s.refuse .range
    | some cls =>
      if !b.limitsOk then s.refuse .range
      else if !(b.profiles.all (s.profileFits (rolesOfByte b.roles)) && decide b.profiles.Nodup) then s.refuse .range
      else (s.load b cls, .done, [])

/-! ## LECTURE_QUERY (R6) -/

/-- The code of a stretch discard (R1). -/
def stretchCode : Stretch → Nat
  | .off => 0
  | .all => 1
  | .keyOnly => 2

/-- A stamp. -/
def stampBytes (t : Stamp) : List Byte := be4 t.toNat

/-- The per-role part as shown (R2, R6): RUNNING 0, STOPPED 1. -/
def partBytes (p : RolePart) : List Byte :=
  flag p.present ++ flag p.ended ++ flag p.silent ++ be1 (if p.gapRunning then 0 else 1)
    ++ optField 4 stampBytes p.lastStamp ++ optField 4 stampBytes p.floorStamp

/-- The profile numbers in four places (R3). -/
def profilePlaces (l : List Nat) : List Byte :=
  be1 l.length ++ ((l ++ [0, 0, 0, 0]).take 4).flatMap be1

/-- The reply fields of LECTURE_QUERY (R6). A forced cut is an indication, 1 when it is armed, where the place in R1's
'Armed or disarmed' would give 0: the model's choice (log 18). -/
def lectureBytes (l : Lecture) : List Byte :=
  be4 l.number.toNat ++ be2 l.course.toNat ++ be1 (classCode l.cls)
    ++ be1 (byteOfRoles (l.parts.map (fun _ p => p.present))) ++ be1 (roleCode l.lead) ++ be1 l.segLength
    ++ profilePlaces l.profiles ++ be1 l.skewLimit ++ be1 l.gapLimit ++ be1 (lectureStateCode l.state)
    ++ optField 4 stampBytes l.base ++ be2 l.nextSegment ++ be2 l.nextPublish ++ be2 l.published ++ flag l.aborted
    ++ flag l.endMark ++ flag l.forcedCut ++ be1 (stretchCode l.stretch)
    ++ allRoles.flatMap (fun r => partBytes (l.parts.get r)) ++ be1 l.window.length

/-- LECTURE_QUERY (R6): a VACANT record is shown with every field zero. -/
def actLectureQuery (slot : Byte) (s : State) : Answered :=
  if 32 ≤ slot.toNat then s.refuse .range
  else match s.lecture? slot.toNat with
    | none => (s, .done, List.replicate 76 0)
    | some l => (s, .done, lectureBytes l)

/-! ## LECTURE_CLOSE (R15), LECTURE_ABORT (R17) -/

/-- LECTURE_CLOSE in RUNNING: the OPEN segment is ended at its current end (R15, R38). It is sealed, admitted and its jobs
dispatched before the LECTURE event of ENDING is queued: the model's choice (log 85). -/
def State.endLecture (s : State) (slot : Nat) : State := (((s.endOpen slot).enterEnding slot).presentMarks slot)

/-- LECTURE_CLOSE (R15). -/
def actLectureClose (slot : Byte) (s : State) : Answered :=
  if 32 ≤ slot.toNat then s.refuse .range
  else match s.lecture? slot.toNat with
    | none => s.refuse .state
    | some l => match l.state with
      | .loaded => ((s.closeLecture slot.toNat).serveClaims, .done, [])
      | .running => ((s.endLecture slot.toNat).serveClaims, .done, [])
      | .stalled => ((s.enterEnding slot.toNat).serveClaims, .done, [])
      | .ending => s.refuse .state
      | .closed => s.refuse .state

/-- LECTURE_ABORT (R17, R18). -/
def actLectureAbort (slot : Byte) (s : State) : Answered :=
  if 32 ≤ slot.toNat then s.refuse .range
  else match s.lecture? slot.toNat with
    | none => s.refuse .state
    | some l => if l.state = .closed then s.refuse .state else ((s.abort slot.toNat l).serveClaims, .done, [])

/-! ## LECTURE_RELEASE (R145, R146), LECTURE_ARCHIVE (R148) -/

/-- Whether an active channel on a slot has a current segment that meets a test (R145, R148). -/
def State.channelOn (s : State) (slot : Nat) (p : Nat → Bool) : Bool :=
  s.channels.any (fun e => e.2.state != .idle
    && (match e.2.fetch with
        | none => false
        | some f => f.slot == slot)
    && p (e.2.current.getD 0))

/-- The entries that a release through segment `n` removes (R146). -/
def releases (slot n : Nat) (e : CatalogueEntry) : Bool := e.slot == slot && decide (e.segment ≤ n)

/-- Takes a LECTURE_RELEASE (R146). -/
def State.release (s : State) (slot n : Nat) : Answered :=
  let gone := s.sgc.catalogue.filter (releases slot n)
  let segments := segmentCount gone
  let s1 := (s.removeEntries (releases slot n)).modLecture slot (fun l => { l with published := l.published - segments })
  (s1.entriesFreed.serveClaims, .done, be2 segments ++ be2 gone.length ++ be2 s1.freeEntries)

/-- LECTURE_RELEASE (R145, R146). -/
def actLectureRelease (slot : Byte) (segment : Word16) (s : State) : Answered :=
  if 32 ≤ slot.toNat then s.refuse .range
  else if (s.lecture? slot.toNat).isNone then s.refuse .state
  else if s.channelOn slot.toNat (fun n => decide (n ≤ segment.toNat)) then s.refuse .inUse
  else s.release slot.toNat segment.toNat

/-- Takes a LECTURE_ARCHIVE (R148). -/
def State.archiveNow (s : State) (slot : Nat) (l : Lecture) : Answered :=
  let gone := (s.sgc.catalogue.filter (fun e => e.slot == slot)).length
  let s1 := (s.archive slot l).lectureEvent slot
  (s1.entriesFreed.serveClaims, .done, be2 gone ++ be2 s1.freeEntries)

/-- LECTURE_ARCHIVE (R148). -/
def actLectureArchive (slot : Byte) (s : State) : Answered :=
  if 32 ≤ slot.toNat then s.refuse .range
  else match s.lecture? slot.toNat with
    | none => s.refuse .state
    | some l =>
      if l.state ≠ .closed then s.refuse .state
      else if s.channelOn slot.toNat (fun _ => true) then s.refuse .inUse
      else s.archiveNow slot.toNat l

/-! ## SEGMENT_QUERY (R48) -/

/-- The code of a segment state (R22). -/
def segmentStateCode : SegmentState → Nat
  | .opened => 0
  | .cutting => 1
  | .sealed => 2
  | .working => 3
  | .complete => 4

/-- The code of a cut state (R24). -/
def cutStateCode : CutState → Nat
  | .pending => 0
  | .cut => 1
  | .ended => 2

/-- The code of a role status (R24). -/
def roleStatusCode : RoleStatus → Nat
  | .normal => 0
  | .short => 1
  | .empty => 2

/-- The code of a failure reason (R23). -/
def reasonCode : FailReason → Nat
  | .sourceMalformed => 0
  | .sourceUnreadable => 1
  | .outputLimit => 2
  | .sanity => 3

/-- A rendition outcome as shown: its state, its extent and its reason (R23, R48). -/
def renditionBytes : RenditionState → List Byte
  | .pending => be1 0 ++ optField 2 be2 none ++ optField 1 be1 none
  | .done e => be1 1 ++ optField 2 be2 (some e) ++ optField 1 be1 none
  | .failed reason => be1 2 ++ optField 2 be2 none ++ optField 1 be1 (some (reasonCode reason))

/-- A role range as shown (R24, R48). -/
def rangeBytes (x : RoleRange) : List Byte :=
  optField 6 be6 x.startOffset ++ optField 4 stampBytes x.startStamp ++ optField 6 be6 x.endOffset
    ++ optField 4 stampBytes x.endStamp ++ be1 (cutStateCode x.cut) ++ be1 (roleStatusCode x.status)

/-- What SEGMENT_QUERY adds for an OPEN segment (R48). The model's choice (log 18): whether a forced cut is armed is an
indication, 1 when it is; the counts of the candidate lists are those of the roles present, in the order of their codes,
the lead's (always 0) among them, and none of a role not present. -/
def openBytes (l : Lecture) (g : Segment) : List Byte :=
  if g.state = .opened then
    l.roles.flatMap (fun r => be2 (l.parts.get r).candidates.length) ++ flag l.forcedCut ++ be1 (stretchCode l.stretch)
  else []

/-- The fields of a segment record in a window (R48). -/
def segmentBytes (l : Lecture) (g : Segment) (waiting : Bool) : List Byte :=
  be2 g.number ++ be1 (segmentStateCode g.state) ++ optField 4 stampBytes g.leadStart ++ optField 4 stampBytes g.target
    ++ optField 1 (fun r => be1 (roleCode r)) g.cutRole ++ optField 4 stampBytes g.cutStamp
    ++ optField 4 stampBytes g.endStamp ++ be4 g.duration ++ be1 g.chunkCount
    ++ l.roles.flatMap (fun r => rangeBytes (g.ranges.get r)) ++ flag g.forcedCut ++ flag g.postponed ++ flag g.damaged
    ++ flag g.lateDrop ++ flag g.leadWait ++ g.renditions.flatMap renditionBytes ++ flag waiting ++ flag g.skewRunning
    ++ openBytes l g

/-- Whether a segment is the head of a window that waits for entries (R47). -/
def State.waitsForEntries (s : State) (slot : Nat) (l : Lecture) (g : Segment) : Bool :=
  s.sgc.waiting.contains slot && l.window.head?.any (fun h => h.number == g.number)

/-- The answer of SEGMENT_QUERY for a record that is not VACANT (R48): WINDOW 0, PUBLISHED 1, RELEASED 2,
UNPUBLISHED 3. -/
def segmentQueryBytes (s : State) (slot n : Nat) (l : Lecture) : List Byte :=
  match l.segment n with
  | some g => be1 0 ++ segmentBytes l g (s.waitsForEntries slot l g)
  | none =>
    let es := s.sgc.catalogue.filter (fun e => e.of slot n)
    if !es.isEmpty then be1 1 ++ es.flatMap (fun e => optField 2 be2 e.extent)
    else if n < l.nextPublish then be1 2
    else be1 3

/-- SEGMENT_QUERY (R48). -/
def actSegmentQuery (slot : Byte) (segment : Word16) (s : State) : Answered :=
  if 32 ≤ slot.toNat then s.refuse .range
  else match s.lecture? slot.toNat with
    | none => s.refuse .state
    | some l => (s, .done, segmentQueryBytes s slot.toNat segment.toNat l)

/-! ## Timers and messages -/

/-- A role's gap timer expires (R7, R8, R12). -/
def State.gapExpire (s : State) (slot : Nat) (r : Role) : State :=
  match s.lecture? slot with
  | none => s
  | some l =>
    if (l.parts.get r).gapRunning = false then s
    else
      let l1 := l.modPart r (fun p => { p with silent := true, gapRunning := false, gapLeft := 0 })
      let s1 := (s.setLecture slot l1).failover slot
      if l.state = .running ∧ (!l.roles.any l1.live && l.roles.any (fun q => !(l1.parts.get q).ended)) = true then
        (s1.stall slot).presentMarks slot
      else s1

/-- A PENDING role of a CUTTING segment ended by the skew timer (R36). -/
def RoleRange.skewEnd (x : RoleRange) (noticed : Nat) : RoleRange :=
  if x.cut = .pending then { x.endAt noticed with skewEnded := true } else x

/-- The skew timer of a CUTTING segment expires (R36). -/
def State.skewExpire (s : State) (slot : Nat) : State :=
  match s.lecture? slot with
  | none => s
  | some l => match l.cuttingSegment with
    | none => s
    | some g =>
      if g.skewRunning = false then s
      else
        let late : Role → Bool := fun r => (l.parts.get r).present && (g.ranges.get r).cut == .pending
        let g1 := { g with ranges := g.ranges.map (fun r x => if late r then x.skewEnd (l.parts.get r).noticedEnd else x) }
        let l1 := l.modSegment g.number (fun _ => g1)
        let l2 := { l1 with parts := l1.parts.map (fun r p =>
          if late r then { p with floorStamp := g.cutStamp } else p) }
        ((s.setLecture slot l2).sealSegment slot g.number).presentMarks slot

/-- A role's end in the CUTTING segment (R37). -/
def State.endCuttingRole (s : State) (slot : Nat) (r : Role) : State :=
  match s.lecture? slot with
  | none => s
  | some l => match l.cuttingSegment with
    | none => s
    | some g =>
      if (g.ranges.get r).cut ≠ .pending then s
      else
        let g1 := g.modRange r (fun x => x.endAt (l.parts.get r).noticedEnd)
        let s1 := s.setLecture slot (l.modSegment g.number (fun _ => g1))
        if g1.settled l.roles then s1.sealSegment slot g.number else s1

/-- Every present role of a lecture has ended (R14, R38). The OPEN segment is sealed, admitted and its jobs dispatched
before the LECTURE event of ENDING is queued: the model's choice (log 85). -/
def State.allEnded (s : State) (slot : Nat) (st : LectureState) : State :=
  match st with
  | .loaded => s.closeLecture slot
  | .running => (s.endOpen slot).enterEnding slot
  | .stalled => s.enterEnding slot
  | _ => s

/-- The SGC takes a role-end notice (R10, R14, R37). The CUTTING segment that it settles is sealed before the OPEN one
that it ends: the model's choice (log 63); the LECTURE event of a failover is queued before either (log 85). -/
def State.roleEnd (s : State) (slot : Nat) (r : Role) : State :=
  match s.lecture? slot with
  | none => s
  | some l =>
    let p := l.parts.get r
    if (l.state = .ending ∨ l.state = .closed) ∨ (p.present = false ∨ p.ended = true) then s
    else
      let l1 := l.modPart r (fun p => { p with ended := true, silent := false, gapRunning := false, gapLeft := 0 })
      let s1 := ((s.setLecture slot l1).failover slot).endCuttingRole slot r
      let s2 := if l.roles.all (fun q => (l1.parts.get q).ended) then s1.allEnded slot l.state else s1
      s2.presentMarks slot

/-- The SGC takes a late-drop report (R7, R9, R40): in CLOSED too the role is live again, its timer STOPPED (log 28). -/
def State.lateDrop (s : State) (slot : Nat) (r : Role) : State :=
  match s.lecture? slot with
  | none => s
  | some l =>
    if (l.parts.get r).present = false then s
    else
      let l1 := l.heard r
      let l2 := match l1.openSegment with
        | none => l1
        | some g => l1.modSegment g.number (fun g => { g with lateDrop := true })
      (s.setLecture slot l2).failover slot

/-- The SGC takes an overrun report (R61). -/
def State.overrunDamage (s : State) (slot : Nat) : State :=
  s.modLecture slot (fun l => match l.openSegment with
    | none => l
    | some g => l.modSegment g.number (fun g => { g with damaged := true }))

/-! ## Meanings -/

/-- LECTURE_LOAD (R4, R5); a rendition count outside 1 to 4 fails the envelope (R179 step 6). -/
def execLectureLoad (tag : Word16) (slot : Byte) (number : Word32) (course : Word16)
    (cls roles segLength skew gap count p0 p1 p2 p3 : Byte) (s : State) : Result :=
  .next (s.directive (.lectureLoad tag slot number course cls roles segLength skew gap count p0 p1 p2 p3) 0x30 tag
    (decide (1 ≤ count.toNat) && decide (count.toNat ≤ 4))
    (actLectureLoad ⟨slot, number, course, cls, roles, segLength, skew, gap, count, p0, p1, p2, p3⟩))

/-- LECTURE_QUERY (R6). -/
def execLectureQuery (tag : Word16) (slot : Byte) (s : State) : Result :=
  .next (s.directive (.lectureQuery tag slot) 0x31 tag true (actLectureQuery slot))

/-- LECTURE_CLOSE (R15). -/
def execLectureClose (tag : Word16) (slot : Byte) (s : State) : Result :=
  .next (s.directive (.lectureClose tag slot) 0x32 tag true (actLectureClose slot))

/-- LECTURE_ABORT (R17). -/
def execLectureAbort (tag : Word16) (slot : Byte) (s : State) : Result :=
  .next (s.directive (.lectureAbort tag slot) 0x33 tag true (actLectureAbort slot))

/-- LECTURE_RELEASE (R146). -/
def execLectureRelease (tag : Word16) (slot : Byte) (segment : Word16) (s : State) : Result :=
  .next (s.directive (.lectureRelease tag slot segment) 0x34 tag true (actLectureRelease slot segment))

/-- LECTURE_ARCHIVE (R148). -/
def execLectureArchive (tag : Word16) (slot : Byte) (s : State) : Result :=
  .next (s.directive (.lectureArchive tag slot) 0x35 tag true (actLectureArchive slot))

/-- SEGMENT_QUERY (R48). -/
def execSegmentQuery (tag : Word16) (slot : Byte) (segment : Word16) (s : State) : Result :=
  .next (s.directive (.segmentQuery tag slot segment) 0x36 tag true (actSegmentQuery slot segment))

/-- GAP_TIMER_EXPIRY (R7). -/
def execGapTimerExpiry (slot : Nat) (r : Role) (s : State) : Result := .next (s.gapExpire slot r).serveClaims

/-- SKEW_TIMER_EXPIRY (R36). -/
def execSkewTimerExpiry (slot : Nat) (s : State) : Result := .next (s.skewExpire slot).serveClaims

/-- UNIT_NOTICE (R28). -/
def execUnitNotice (n : UnitNotice) (s : State) : Result :=
  .next ((s.received (.unitNotice n)).takeNotice n).serveClaims

/-- ROLE_END_NOTICE (R10). -/
def execRoleEndNotice (slot : Nat) (r : Role) (s : State) : Result :=
  .next ((s.received (.roleEndNotice slot r)).roleEnd slot r).serveClaims

/-- LATE_DROP_REPORT (R40). -/
def execLateDropReport (slot : Nat) (r : Role) (stamp : Stamp) (s : State) : Result :=
  .next ((s.received (.lateDropReport slot r stamp)).lateDrop slot r)

/-- OVERRUN_REPORT (R61). -/
def execOverrunReport (slot : Nat) (s : State) : Result :=
  .next ((s.received (.overrunReport slot)).overrunDamage slot)

/-- JOB_OUTCOME (R45). -/
def execJobOutcome (slot segment rendition : Nat) (result : JobResult) (s : State) : Result :=
  .next ((s.received (.jobOutcome slot segment rendition result)).takeOutcome slot segment rendition
    (outcomeState result)).serveClaims

end Sys2Proof.Machine
end

