-- ==== Sys2Proof/Machine/Lanes.lean ====
section
/-! DEFINITION. The commands of the job queue, the lanes and the lane groups (spec 05, 06): directives, chunk and test
events, source reads and output requests, timers, supply events, and the messages of the JDP and the STC. -/

namespace Sys2Proof.Machine

/-- What ends every step that can move jobs, lanes, blocks or buffers: LANE_FAILED, the JDP's pass and yields, waiting
claims (R77, R81, R107, R129). The LANE events of the step are queued before it, and so before the PART event that
LANE_FAILED may raise: the model's choice (log 72). Where the step returns several jobs, one dispatch pass follows the
last return, not one each: the model's choice (log 80). -/
def State.finish (s : State) : State := s.evalLaneFailed.settle.serveClaims

/-! ## DISPATCH_SET (R88), QUEUE_QUERY (R89) -/

/-- DISPATCH_SET (R88). -/
def actDispatchSet (floor preemption : Byte) (s : State) : Answered :=
  if 12 < floor.toNat then s.refuse .range
  else if preemption = 0 then
    (State.finish { s with jdp := { s.jdp with floor := floor.toNat, preemption := false } }, .done, [])
  else if preemption = 1 then
    (State.finish { s with jdp := { s.jdp with floor := floor.toNat, preemption := true } }, .done, [])
  else s.refuse .range

/-- Which head waits for an extent record (R78, R89): LIVE 0, BACKLOG 1, neither 2; the LIVE head where both wait
(log 18). -/
def State.extentWait (s : State) : Nat :=
  if s.jdp.live.head?.any s.jdp.waits.contains then 0
  else if s.jdp.backlog.head?.any s.jdp.waits.contains then 1
  else 2

/-- The summary of QUEUE_QUERY (R89). -/
def queueSummary (s : State) : List Byte :=
  be2 (Config.jobs - s.jdp.jobs.length) ++ be2 s.jdp.live.length ++ be2 s.jdp.backlog.length ++ be1 s.liveRunning
    ++ be1 s.backlogCount ++ be1 s.jdp.yields.length ++ be1 s.jdp.floor ++ flag s.jdp.preemption ++ be1 s.extentWait

/-- An entry of a queue page (R89). -/
def queueEntry (s : State) (position k : Nat) : List Byte :=
  match s.job? k with
  | none => []
  | some j =>
    be1 position ++ be1 j.slot ++ be2 j.segment ++ be1 j.rendition ++ be1 j.profile ++ be1 j.attempts ++ be1 j.done
      ++ be1 j.total ++ optField 2 be2 j.extent

/-- Up to 8 entries of a list from a position (R89). -/
def queuePage (s : State) (l : List Nat) (first : Nat) : List Byte :=
  ((l.zipIdx.drop first).take 8).flatMap (fun p => queueEntry s p.2 p.1)

/-- QUEUE_QUERY (R89). -/
def actQueueQuery (selector first : Byte) (s : State) : Answered :=
  if selector = 0 then (s, .done, queueSummary s ++ queuePage s s.jdp.live first.toNat)
  else if selector = 1 then (s, .done, queueSummary s ++ queuePage s s.jdp.backlog first.toNat)
  else s.refuse .range

/-! ## LANE_REMOVE, LANE_RESTORE, LANE_QUERY (R100 to R106) -/

/-- LANE_REMOVE without FORCE (R100); a test in progress is abandoned (R105). -/
def actLaneRemove (lane : Byte) (s : State) : Answered :=
  let n := lane.toNat
  if 12 ≤ n then s.refuse .range
  else match (s.lane n).state with
    | .idle => ((s.laneWithout n .out).finish, .done, [])
    | .busy =>
      (((s.clearYield n).setLane n { s.lane n with state := .draining }).laneEvent n |>.finish, .pending, [])
    | .draining => s.refuse .busy
    | .test => ((s.laneWithout n .out).finish, .done, [])
    | .failed => ((s.laneWithout n .out).finish, .done, [])
    | .out => s.refuse .state
    | .off => s.refuse .state

/-- LANE_REMOVE with FORCE (R102). -/
def actLaneRemoveForce (lane : Byte) (s : State) : Answered :=
  let n := lane.toNat
  if 12 ≤ n then s.refuse .range
  else match (s.lane n).state with
    | .busy => ((s.returnLaneJob n .out).finish, .done, [])
    | .draining => ((s.returnLaneJob n .out).finish, .done, [])
    | _ => actLaneRemove lane s

/-- The ticks of a test chunk's timer: 500 ms (R104). -/
def testTicks : Nat := 500 * Config.ticksPerMs

/-- A lane enters TEST (R103, R104). -/
def State.startTest (s : State) (n : Nat) : State :=
  (s.setLane n { s.lane n with
    state := .test, testChunk := 0, testCheck := check32Start, timer := .running testTicks }).laneEvent n

/-- LANE_RESTORE (R103). -/
def actLaneRestore (lane : Byte) (s : State) : Answered :=
  let n := lane.toNat
  if 12 ≤ n then s.refuse .range
  else match (s.lane n).state with
    | .out => ((s.startTest n).finish, .pending, [])
    | .failed => ((s.startTest n).finish, .pending, [])
    | _ => s.refuse .state

/-- The milliseconds of a number of ticks, rounded up (log 8). -/
def ticksMs (n : Nat) : Nat := (n + 7) / Config.ticksPerMs

/-- A sanity timer as shown: RUNNING 0, PAUSED 1, STOPPED 2, and its time remaining (R90, R106). -/
def timerBytes : SanityTimer → List Byte
  | .running t => be1 0 ++ be2 (ticksMs t)
  | .paused t => be1 1 ++ be2 (ticksMs t)
  | .stopped => be1 2 ++ be2 0

/-- The code of a held indication (R90). -/
def heldCode : Held → Nat
  | .none => 0
  | .buffer => 1
  | .block => 2

/-- The code of a phase (R108). -/
def phaseCode : Phase → Nat
  | .supply => 0
  | .memory => 1
  | .clock => 2

/-- The held job as LANE_QUERY shows it (R106). -/
def heldJobBytes (s : State) (l : Lane) : List Byte :=
  match l.job.bind s.job? with
  | none => []
  | some j =>
    be1 j.slot ++ be2 j.segment ++ be1 j.rendition ++ be1 j.profile ++ be1 (classCode j.cls) ++ be1 j.attempts
      ++ be1 l.chunk ++ be1 j.done ++ be1 j.total ++ be2 (j.extent.getD 0)

/-- The reply fields of LANE_QUERY (R106). -/
def laneQueryBytes (s : State) (n : Nat) : List Byte :=
  let l := s.lane n
  let g := s.group (n / 4)
  be1 (laneStateCode l.state) ++ be1 (heldCode l.held) ++ flag (s.jdp.yields.contains n)
    ++ optField 1 (fun f => be1 (laneFaultCode f)) l.fault
    ++ (match l.state with
        | .busy => heldJobBytes s l ++ timerBytes l.timer
        | .draining => heldJobBytes s l ++ timerBytes l.timer
        | .test => timerBytes l.timer ++ be1 l.testChunk
        | _ => [])
    ++ be1 (groupStateCode g.state) ++ optField 1 (fun p => be1 (phaseCode p)) g.phase
    ++ be1 (if g.monitorFault then 1 else 0)

/-- LANE_QUERY (R106). -/
def actLaneQuery (lane : Byte) (s : State) : Answered :=
  if 12 ≤ lane.toNat then s.refuse .range else (s, .done, laneQueryBytes s lane.toNat)

/-! ## Groups (R109 to R114) -/

/-- The lanes of a group. -/
def groupLanes (g : Nat) : List Nat := List.range' (4 * g) 4

/-- Milliseconds as ticks. -/
def msTicks (n : Nat) : Nat := n * Config.ticksPerMs

/-- FALLING starts: the group's lanes are made OFF, then the GROUP event (R110). -/
def State.startFalling (s : State) (g : Nat) (byFault : Bool) : State :=
  let s1 := (groupLanes g).foldl (fun q n => (q.clearYield n).laneWithout n .off) s
  (s1.setGroup g { s1.group g with state := .falling, phase := some .clock, left := msTicks 2 }).groupEvent g byFault

/-- GROUP_ON (R111). -/
def actGroupOn (group : Byte) (s : State) : Answered :=
  let g := group.toNat
  if 3 ≤ g then s.refuse .range
  else match (s.group g).state with
    | .off =>
      ((s.setGroup g { s.group g with
        state := .rising, phase := some .supply, left := msTicks 15, enable := true }).groupEvent g false, .pending, [])
    | .rising => s.refuse .busy
    | .falling => s.refuse .busy
    | .on => s.refuse .state

/-- Whether every lane of a group is OUT or FAILED (R112). -/
def State.groupFree (s : State) (g : Nat) : Bool :=
  (groupLanes g).all (fun n => (s.lane n).state == .out || (s.lane n).state == .failed)

/-- GROUP_OFF without FORCE (R112). -/
def actGroupOff (group : Byte) (s : State) : Answered :=
  let g := group.toNat
  if 3 ≤ g then s.refuse .range
  else match (s.group g).state with
    | .on => if s.groupFree g then ((s.startFalling g false).finish, .pending, []) else s.refuse .interlock
    | .rising => s.refuse .busy
    | .falling => s.refuse .busy
    | .off => s.refuse .state

/-- GROUP_OFF with FORCE (R113). The jobs of several lanes return in increasing lane number: the model's choice among
the world's (R84, R113; log 57). One dispatch pass follows the last return: the model's choice too (log 80). -/
def actGroupOffForce (group : Byte) (s : State) : Answered :=
  let g := group.toNat
  if 3 ≤ g then s.refuse .range
  else match (s.group g).state with
    | .on =>
      let s1 := (groupLanes g).foldl (fun q n => q.returnLaneJob n .out) s
      ((s1.startFalling g false).finish, .pending, [])
    | .rising => s.refuse .busy
    | .falling => s.refuse .busy
    | .off => s.refuse .state

/-- A lane at a supply fault: its job returns, and it becomes FAILED with last fault SUPPLY; an OFF lane is not touched
(R114 steps 1 to 3). -/
def State.faultLane (s : State) (n : Nat) : State :=
  if (s.lane n).state = .off then s
  else
    let s1 := s.setLane n { s.lane n with fault := some .supply }
    (s1.returnLaneJob n .failed).laneWithout n .failed

/-- The GPC takes a supply fault (R114). The jobs of several lanes return in increasing lane number (R84; log 57), and
one dispatch pass follows the last return (R77; log 80). The GROUP event is queued once, as FALLING starts and before
GROUP_SUPPLY is raised (R110, R114 step 5; log 58): the model's choices all. -/
def State.takeFault (s : State) (g : Nat) : State :=
  let s1 := (groupLanes g).foldl State.faultLane s
  ((s1.startFalling g true).raise .groupSupply).finish

/-- Whether the GPC acts on the monitor: ON, or RISING past its SUPPLY phase (R108, R109, R114). -/
def Group.watches (x : Group) : Bool :=
  x.state == .on || (x.state == .rising && (x.phase == some .memory || x.phase == some .clock))

/-- The scratch memories of a group's lanes take contents, or lose them (R109, R110). -/
def State.setScratch (s : State) (g : Nat) (x : Option (List Byte)) : State :=
  (groupLanes g).foldl (fun q n => q.setLane n { q.lane n with scratch := x }) s

/-- The end of a RISING phase (R109): as MEMORY starts the scratch memories are brought up and cleared. -/
def State.risingEnd (s : State) (g : Nat) : State :=
  let x := s.group g
  if 3 ≤ g ∨ x.state ≠ .rising then s
  else match x.phase with
    | some .supply =>
      let s1 := (s.setGroup g { x with phase := some .memory, left := msTicks 5 }).setScratch g (some [])
      if x.monitorFault then s1.takeFault g else s1
    | some .memory => s.setGroup g { x with phase := some .clock, left := msTicks 1 }
    | _ =>
      let s1 := (groupLanes g).foldl (fun q n => q.laneWithout n .out) s
      (s1.setGroup g { x with state := .on, phase := none, left := 0 }).groupEvent g false

/-- The end of a FALLING phase (R110): as MEMORY starts the contents of the scratch memories are lost. -/
def State.fallingEnd (s : State) (g : Nat) : State :=
  let x := s.group g
  if 3 ≤ g ∨ x.state ≠ .falling then s
  else match x.phase with
    | some .clock => (s.setGroup g { x with phase := some .memory, left := msTicks 2 }).setScratch g none
    | some .memory => s.setGroup g { x with phase := some .supply, left := msTicks 2, enable := false }
    | _ => (s.setGroup g { x with state := .off, phase := none, left := 0 }).groupEvent g false

/-! ## Lane events (R92 to R98, R104) -/

/-- Whether a lane is BUSY or DRAINING. -/
def Lane.works (l : Lane) : Bool := l.state == .busy || l.state == .draining

/-- A sanity timer runs out (R84, R96): an expiry falls only while the timer runs. The LANE event comes before the PART
event of LANE_FAILED, and behind that of JOB_FAILED at a third expiry (log 72). -/
def State.sanityExpire (s : State) (n : Nat) : State :=
  match (s.lane n).works, (s.lane n).timer, (s.lane n).job, s.laneJob n with
  | true, .running _, some k, some j =>
    let j1 : Job := { j with attempts := j.attempts + 1 }
    let s1 := s.overtake n
    let s2 := if j1.attempts < 3 then s1.returnJob k j1 else s1.failJob k j1 .sanity
    ((s2.setLane n { s2.lane n with fault := some .sanity }).laneWithout n .failed).finish
  | _, _, _, _ => s

/-- A lane fails its test (R104). The LANE event comes before the PART event of LANE_FAILED (log 72). -/
def State.testFails (s : State) (n : Nat) (f : LaneFault) : State :=
  ((s.setLane n { s.lane n with fault := some f }).laneWithout n .failed).finish

/-- The scratch memory with a test chunk's output written: chunk 0 of a test writes it afresh (R104; log 61). -/
def Lane.scratched (l : Lane) (output : List Byte) : Lane :=
  { l with scratch := l.scratch.map (fun m => (if l.testChunk = 0 then [] else m) ++ output) }

/-- A test chunk's output is complete: it stands in the scratch memory (R104). -/
def State.testChunkDone (s : State) (n : Nat) (output : List Byte) : State :=
  let l := (s.lane n).scratched output
  if l.state ≠ .test then s
  else
    let check := check32From l.testCheck output
    if l.testChunk < 3 then
      s.setLane n { l with testChunk := l.testChunk + 1, testCheck := check, timer := .running testTicks }
    else if check32Final check = Config.expectedTestCheck then
      ((s.setLane n { l with testCheck := check, fault := none }).laneWithout n .idle).finish
    else (s.setLane n { l with testCheck := check }).testFails n .testMismatch

/-- A test chunk's timer runs out (R104). -/
def State.testChunkExpire (s : State) (n : Nat) : State :=
  if (s.lane n).state = .test then s.testFails n .testExpiry else s

/-- A lane reports one of its three failures (R85, R97). -/
def State.laneFails (s : State) (n : Nat) (reason : FailReason) : State :=
  if (s.lane n).works then (s.failLaneJob n reason).finish else s

/-- The chunk's last output bytes join those not yet written, and are written as far as the page has room (R93). -/
def State.laneWrites (s : State) (n : Nat) (output : List Byte) : State :=
  (s.setLane n { s.lane n with output := (s.lane n).output ++ output }).laneFill n

/-- Whether a lane has read every role to the chunk's end (R95). -/
def Lane.allReached (l : Lane) : Bool := allRoles.all (fun r => (l.reads.get r).all SourceRead.reached)

/-- Whether a lane still walks to its chunk (R91). -/
def Lane.walking (l : Lane) : Bool := allRoles.any (fun r => (l.reads.get r).any SourceRead.walking)

/-- Whether a lane works in a chunk (R91). -/
def Lane.inChunk (l : Lane) : Bool := l.works && !l.walking

/-- The end of a chunk: every role has been read to the chunk's end (R95). Output that no page has been given for keeps
the chunk going (log 10). -/
def State.chunkDone (s : State) (n : Nat) (output : List Byte) : State :=
  let l := s.lane n
  match l.works && l.allReached, l.held, l.job with
  | true, .none, some k =>
    let s1 := s.laneWrites n output
    if !(s1.lane n).output.isEmpty then s1
    else match s1.job? k with
      | none => s1
      | some j => ((s1.commitChunk n k j).afterCommit n k { j with done := j.done + 1 }).finish
  | _, _, _ => s

/-- The lane asks for a page buffer (R93, R94, R124). -/
def State.laneWantsBuffer (s : State) (n : Nat) (output : List Byte) : State :=
  let l := s.lane n
  match l.inChunk, l.held with
  | true, .none =>
    let s1 := s.laneWrites n output
    match s1.laneExtent n with
    | none => s1
    | some (e, x) =>
      let pos := s1.extentEnd e x
      if (s1.lane n).output.isEmpty || (s1.fillingOf (.extent e)).isSome
          || decide (x.blocks.length * Config.blockBytes ≤ pos) then s1
      else if Config.laneReserve < s1.freeBuffers then s1.laneTakeBuffer n e x
      else s1.hold n .buffer
  | _, _ => s

/-- The block bound of a job's profile (R72). -/
def State.blockBound (s : State) (j : Job) : Nat :=
  match s.profile? j.profile with
  | none => 0
  | some p => p.bound

/-- The lane asks for its extent's next block (R72, R93, R94). -/
def State.laneWantsBlock (s : State) (n : Nat) (output : List Byte) : State :=
  let l := s.lane n
  match l.inChunk, l.held with
  | true, .none =>
    let s1 := s.laneWrites n output
    match s1.laneExtent n, s1.laneJob n with
    | some (e, x), some j =>
      if (s1.lane n).output.isEmpty || s1.extentEnd e x != x.blocks.length * Config.blockBytes then s1
      else if x.blocks.length = s1.blockBound j then s1.laneFails n .outputLimit
      else match s1.freeHead (extentStart x) with
        | none => s1.hold n .block
        | some g => s1.appendExtentBlock e x g
    | _, _ => s1
  | _, _ => s

/-- The source page returned to a lane that holds a run offset of a role. -/
def Lane.page? (l : Lane) (r : Role) (off : Nat) : Option SourcePage :=
  l.received.find? (fun p => p.role == r && p.offset == off / Config.pageBytes * Config.pageBytes)

/-- The first of the run offsets from `low` up to `high` whose page has not been returned. -/
def Lane.firstMissing (l : Lane) (r : Role) (low high : Nat) : Option Nat :=
  ((List.range' (low / Config.pageBytes) ((high - 1) / Config.pageBytes + 1 - low / Config.pageBytes)).find?
    (fun p => (l.page? r (p * Config.pageBytes)).isNone)).map (fun p => max low (p * Config.pageBytes))

/-- Whether every byte of a role from `low` up to `high` has been returned to a lane. -/
def Lane.has (l : Lane) (r : Role) (low high : Nat) : Bool := (l.firstMissing r low high).isNone

/-- The unit header at a run offset, from the pages returned. -/
def Lane.headerAt (l : Lane) (r : Role) (off : Nat) : List Byte :=
  (List.range 16).map (fun i =>
    ((l.page? r (off + i)).map (fun p => p.bytes.getD ((off + i) % Config.pageBytes) 0)).getD 0)

/-- What the lane does at the unit a reading stands at: it waits for bytes, finds no unit that fits the range, stops, or
goes past the unit. -/
inductive ReadStep
  | waits | unfit | stops
  | passes (next : Nat)
deriving DecidableEq, Repr

/-- One unit of a role's walk or of its reading in a chunk (R91, R92): the lane stops at the range's end and at the
first unit at or beyond `limit`. The walk takes a unit's header and suffix, a chunk the whole unit. No unit header
where one should stand is source unfit for the profile (R93): the bytes are taken for a header when they begin with the
marker and the unit fits the range, whatever its kind and its header check, the model's choice (log 73). -/
def Lane.readStep (l : Lane) (r : Role) (x : RoleRange) (limit : Option Stamp) (q : SourceRead) : ReadStep :=
  let last := x.endOffset.getD 0
  if last ≤ q.unit then .stops
  else if last < q.unit + 24 then .unfit
  else if !l.has r q.unit (q.unit + 16) then .waits
  else
    let h := l.headerAt r q.unit
    let next := q.unit + 24 + headerLength h
    if h.take 2 != [0x4C, 0x55] then .unfit
    else if limit.any (fun t => stampFrom (headerStamp h) t) then .stops
    else if last < next then .unfit
    else if l.has r (if q.walking then next - 8 else q.unit) next then .passes next
    else .waits

/-- A reading at its end: the walk has found the read position, or the chunk's end has been reached. -/
def SourceRead.stop (q : SourceRead) : SourceRead := { q with walking := false, reached := !q.walking }

/-- Reads on in the pages returned; answers whether the source is unfit. -/
def Lane.readOn (l : Lane) (r : Role) (x : RoleRange) (limit : Option Stamp) : Nat → SourceRead → SourceRead × Bool
  | 0, q => (q, false)
  | fuel + 1, q =>
    match l.readStep r x limit q with
    | .waits => (q, false)
    | .unfit => (q, true)
    | .stops => (q.stop, false)
    | .passes next => Lane.readOn l r x limit fuel { q with unit := next }

/-- The stamp at which a lane's reading stops: the chunk's start in the walk, its end in the chunk; the last chunk has
no upper limit (R91). -/
def Lane.readLimit (l : Lane) (g : Segment) (j : Job) : Option Stamp :=
  if l.walking then some (chunkStart g l.chunk)
  else if l.chunk + 1 = j.total then none
  else some (chunkStart g (l.chunk + 1))

/-- The reading of one role in the pages returned so far: a role whose walk has ended waits for the others'. A page
holds at most 171 unit headers. -/
def Lane.readRole (l : Lane) (g : Segment) (j : Job) (r : Role) : Option (SourceRead × Bool) :=
  (l.reads.get r).map (fun q =>
    if q.walking == l.walking && !q.reached then
      l.readOn r (g.ranges.get r) (l.readLimit g j) (171 * l.received.length + 1) q
    else (q, false))

/-- A lane examines the pages returned to it (R91, R92): it goes on in every role, starts its chunk when every walk has
ended, and fails the job where the source is unfit (R93, R97). -/
def State.laneReadOn (s : State) (n : Nat) : State :=
  let l := s.lane n
  match s.laneJob n with
  | none => s
  | some j => match s.jobSegment j with
    | none => s
    | some g =>
      let q : PerRole (Option (SourceRead × Bool)) := ⟨l.readRole g j .camera, l.readRole g j .voice, l.readRole g j .screen⟩
      if allRoles.any (fun r => (q.get r).any (·.2)) then s.laneFails n .sourceMalformed
      else
        let l1 := { l with reads := q.map (fun _ o => o.map (·.1)) }
        if l.walking && !l1.walking then s.startChunk n j l.chunk l1.nextPositions else s.setLane n l1

/-- The run offsets a reading needs next: a header not yet returned, else the rest of the unit, which in the walk is its
suffix (R91, R92). -/
def Lane.needs (l : Lane) (r : Role) (q : SourceRead) : Nat × Nat :=
  if !l.has r q.unit (q.unit + 16) then (q.unit, q.unit + 16)
  else
    let next := q.unit + 24 + headerLength (l.headerAt r q.unit)
    (if q.walking then next - 8 else q.unit, next)

/-- Whether a read is the lane's next of a role: it begins at the first byte needed and not asked for, asks for no byte
past those needed, and is a burst of one to eight pages of one block (R92, R127; log 11). -/
def Lane.readFits (l : Lane) (r : Role) (q : SourceRead) (offset length : Nat) : Bool :=
  let need := l.needs r q
  q.walking == l.walking && !q.reached && decide (0 < length) && decide (offset + length ≤ need.2)
    && l.firstMissing r (max need.1 q.asked) need.2 == some offset
    && decide (offset / Config.blockBytes = (offset + length - 1) / Config.blockBytes)
    && decide (pageAt (offset + length - 1) < pageAt offset + 8)

/-- Source pages returned to a lane. -/
def State.laneReceives (s : State) (n : Nat) (pages : List SourcePage) : State :=
  s.setLane n { s.lane n with received := (s.lane n).received ++ pages }

/-- A lane's source read (R92, R127): buffered pages are served at once, a lost page fails the job, the others are
read as one burst. -/
def State.laneReads (s : State) (n : Nat) (r : Role) (x : Run) (offset length : Nat) : State :=
  let g := runBlockAt x offset
  let base := offset / Config.blockBytes * Config.blockBytes
  let pages := List.range' (pageAt offset) (pageAt (offset + length - 1) + 1 - pageAt offset)
  let buffered := pages.filterMap (fun p =>
    (s.bufferedPage g p).map (fun bs => (⟨r, base + p * Config.pageBytes, bs⟩ : SourcePage)))
  let others := pages.filter (fun p => (s.bufferedPage g p).isNone)
  if others.any (s.pageLost g) then s.laneFails n .sourceUnreadable
  else
    let s1 := s.laneReceives n buffered
    let low := offset % Config.blockBytes
    (if others.isEmpty then s1 else s1.joinLaneRead ⟨.lane n r base, g, others, low, low + length⟩).laneReadOn n

/-- The lane asks the STC for source bytes: those its reading needs next (R92). -/
def State.laneWantsSource (s : State) (n : Nat) (r : Role) (offset length : Nat) : State :=
  let l := s.lane n
  match l.works, s.laneJob n, l.reads.get r with
  | true, some j, some q =>
    match s.run? j.slot r with
    | none => s
    | some x =>
      if l.readFits r q offset length then
        let asked := ((offset + length - 1) / Config.pageBytes + 1) * Config.pageBytes
        (s.setLane n { l with reads := l.reads.set r (some { q with asked := asked }) }).laneReads n r x offset length
      else s
  | _, _, _ => s

/-- The end of a lane READ (R92, R127). -/
def State.laneRead (s : State) (n : Nat) (role : Role) (base : Nat) (r : ReadReq) (errors : List Nat) : State :=
  if r.pages.any errors.contains then s.laneFails n .sourceUnreadable
  else
    (s.laneReceives n (r.pages.map (fun p => ⟨role, base + p * Config.pageBytes, s.bankPage r.block p⟩))).laneReadOn n

/-- A discard request: the lane that still holds the job discards its chunk and lets it go, and the record is freed
(R87, R98). -/
def State.discardJob (s : State) (n k : Nat) : State :=
  if (s.lane n).job = some k ∧ (s.lane n).works = true then
    (((s.overtake n).freeJob k).laneWithout n (afterJob (s.lane n).state)).finish
  else s

/-! ## Meanings -/

/-- DISPATCH_SET (R88). -/
def execDispatchSet (tag : Word16) (floor preemption : Byte) (s : State) : Result :=
  .next (s.directive (.dispatchSet tag floor preemption) 0x40 tag true (actDispatchSet floor preemption))

/-- QUEUE_QUERY (R89). -/
def execQueueQuery (tag : Word16) (selector first : Byte) (s : State) : Result :=
  .next (s.directive (.queueQuery tag selector first) 0x41 tag true (actQueueQuery selector first))

/-- LANE_REMOVE (R100). -/
def execLaneRemove (tag : Word16) (lane : Byte) (s : State) : Result :=
  .next (s.directive (.laneRemove tag lane) 0x50 tag true (actLaneRemove lane))

/-- LANE_REMOVE_FORCE (R102). -/
def execLaneRemoveForce (tag : Word16) (lane : Byte) (s : State) : Result :=
  .next (s.directive (.laneRemoveForce tag lane) 0x50 tag true (actLaneRemoveForce lane))

/-- LANE_RESTORE (R103). -/
def execLaneRestore (tag : Word16) (lane : Byte) (s : State) : Result :=
  .next (s.directive (.laneRestore tag lane) 0x51 tag true (actLaneRestore lane))

/-- LANE_QUERY (R106). -/
def execLaneQuery (tag : Word16) (lane : Byte) (s : State) : Result :=
  .next (s.directive (.laneQuery tag lane) 0x52 tag true (actLaneQuery lane))

/-- GROUP_ON (R111). -/
def execGroupOn (tag : Word16) (group : Byte) (s : State) : Result :=
  .next (s.directive (.groupOn tag group) 0x53 tag true (actGroupOn group))

/-- GROUP_OFF (R112). -/
def execGroupOff (tag : Word16) (group : Byte) (s : State) : Result :=
  .next (s.directive (.groupOff tag group) 0x54 tag true (actGroupOff group))

/-- GROUP_OFF_FORCE (R113). -/
def execGroupOffForce (tag : Word16) (group : Byte) (s : State) : Result :=
  .next (s.directive (.groupOffForce tag group) 0x54 tag true (actGroupOffForce group))

/-- SANITY_TIMER_EXPIRY (R96). -/
def execSanityTimerExpiry (lane : Nat) (s : State) : Result := .next (s.sanityExpire lane)

/-- TEST_CHUNK_EXPIRY (R104). -/
def execTestChunkExpiry (lane : Nat) (s : State) : Result := .next (s.testChunkExpire lane)

/-- RISING_PHASE_END (R109). -/
def execRisingPhaseEnd (group : Nat) (s : State) : Result := .next (s.risingEnd group)

/-- FALLING_PHASE_END (R110). -/
def execFallingPhaseEnd (group : Nat) (s : State) : Result := .next (s.fallingEnd group)

/-- SUPPLY_FAULT (R108, R114). -/
def execSupplyFault (group : Nat) (s : State) : Result :=
  .next (if 3 ≤ group then s
    else
      let s1 := s.setGroup group { s.group group with monitorFault := true }
      if (s.group group).watches then s1.takeFault group else s1)

/-- SUPPLY_MONITOR_NORMAL (R108). -/
def execSupplyMonitorNormal (group : Nat) (s : State) : Result :=
  .next (if 3 ≤ group then s else s.setGroup group { s.group group with monitorFault := false })

/-- CHUNK_END (R95). -/
def execChunkEnd (lane : Nat) (output : List Byte) (s : State) : Result := .next (s.chunkDone lane output)

/-- TEST_CHUNK_END (R104). -/
def execTestChunkEnd (lane : Nat) (output : List Byte) (s : State) : Result := .next (s.testChunkDone lane output)

/-- SOURCE_MALFORMED (R93, R97). -/
def execSourceMalformed (lane : Nat) (s : State) : Result := .next (s.laneFails lane .sourceMalformed)

/-- LANE_READ_REQUEST (R92). -/
def execLaneReadRequest (lane : Nat) (r : Role) (offset length : Nat) (s : State) : Result :=
  .next (s.laneWantsSource lane r offset length)

/-- LANE_BUFFER_REQUEST (R93). -/
def execLaneBufferRequest (lane : Nat) (output : List Byte) (s : State) : Result := .next (s.laneWantsBuffer lane output)

/-- LANE_BLOCK_REQUEST (R72). -/
def execLaneBlockRequest (lane : Nat) (output : List Byte) (s : State) : Result := .next (s.laneWantsBlock lane output)

/-- JOB_RECORD_FREED (R43, R75). -/
def execJobRecordFreed (s : State) : Result := .next ((s.received .jobRecordFreed).tryAdmission).serveClaims

/-- The jobs that wait for an extent record may ask again (R78). -/
def State.extentFreed (s : State) : State := { s with jdp := { s.jdp with waits := [] } }

/-- EXTENT_RECORD_FREED (R78, R123). -/
def execExtentRecordFreed (s : State) : Result := .next (s.received .extentRecordFreed).extentFreed.finish

/-- DISCARD_REQUEST (R98). -/
def execDiscardRequest (lane job : Nat) (s : State) : Result :=
  .next ((s.received (.discardRequest lane job)).discardJob lane job)

end Sys2Proof.Machine
end

