-- ==== Sys2Proof/Machine/StorePort.lean ====
section
/-! DEFINITION. The commands of the store port and the store directives (spec 07): ends and limits of bank operations,
STORE_SET, STORE_QUERY and the source low mark. -/

namespace Sys2Proof.Machine

/-! ## STORE_SET (R141), STORE_QUERY (R142) -/

/-- STORE_SET (R141). -/
def actStoreSet (lowMark : Word16) (s : State) : Answered :=
  if 32 ≤ lowMark.toNat ∧ lowMark.toNat ≤ 4096 then
    (State.evalLevels { s with stc := { s.stc with lowMark := lowMark.toNat } }, .done, [])
  else s.refuse .range

/-- The number of blocks in a block-table state; a block not listed is RETIRED (R142). -/
def State.blockCount (s : State) (st : BlockState) : Nat :=
  let listed := (s.stc.blocks.filter (fun e => e.2.state == st)).length
  if st = .retired then listed + (16384 - s.stc.blocks.length) else listed

/-- The block-table states in the order of R117. -/
def blockStates : List BlockState := [.reserved, .free, .opened, .sealed, .guarded, .retired, .erasing, .bad]

/-- The number of page buffers in a state other than FREE (R142). -/
def State.bufferCount (s : State) (st : BufState) : Nat := (s.stc.buffers.filter (fun e => e.2.state == st)).length

/-- Whether a buffer's owner is a run. -/
def BufOwner.isRun : BufOwner → Bool
  | .own (.run _ _) => true
  | _ => false

/-- Whether a buffer's owner is an extent. -/
def BufOwner.isExtent : BufOwner → Bool
  | .own (.extent _) => true
  | _ => false

/-- Whether a buffer's owner is a relocation. -/
def BufOwner.isRelocation : BufOwner → Bool
  | .relocation _ => true
  | _ => false

/-- The number of page buffers whose owner meets a test (R142). -/
def State.ownedBuffers (s : State) (p : BufOwner → Bool) : Nat := (s.stc.buffers.filter (fun e => p e.2.owner)).length

/-- The number of waiting claims of a kind (R142). -/
def State.claimCount (s : State) (k : ClaimKind) : Nat := (s.stc.claims.filter (fun c => c.kind == k)).length

/-- The number of extent records in a state (R142). -/
def State.extentCount (s : State) (st : ExtentState) : Nat := (s.stc.extents.filter (fun e => e.2.state == st)).length

/-- The operation a bank performs, with its block (R142): none 0, READ 1, PROGRAM 2, ERASE 3, APPEND 4. With no
operation the block is 0, the model's choice (log 18). -/
def Bank.operation (x : Bank) : List Byte :=
  match x.op with
  | some (.read r _) => be1 1 ++ be2 r.block
  | some (.program p) => be1 2 ++ be2 p.block
  | some (.append _ _) => be1 4 ++ be2 0
  | none => match x.erase with
    | some e => if e.state = .suspended then be1 0 ++ be2 0 else be1 3 ++ be2 e.block
    | none => be1 0 ++ be2 0

/-- Whether class 6 of a bank has a request: a suspended erase, or a block to erase while no erase is held
(R130, R142; log 19). -/
def Bank.class6 (x : Bank) : Nat :=
  match x.erase with
  | some e => if e.state = .suspended then 1 else 0
  | none => if x.eraseQueue.isEmpty then 0 else 1

/-- The named bank's part of STORE_QUERY (R142). With no erase held the suspend count is 0, the model's choice
(log 18). -/
def bankBytes (x : Bank) : List Byte :=
  be2 x.free.length ++ be2 x.eraseQueue.length ++ x.operation
    ++ flag (x.erase.any (fun e => e.state == .suspended)) ++ be1 ((x.erase.map Erase.suspends).getD 0)
    ++ be2 x.intakeProgram.length ++ be2 x.deliveryRead.length ++ be2 x.laneRead.length ++ be2 x.laneProgram.length
    ++ be2 x.copy.length ++ be2 x.class6

/-- The reply fields of STORE_QUERY (R142). -/
def storeQueryBytes (s : State) (bank : Nat) : List Byte :=
  be1 (partStateCode s.stc.ready) ++ be2 s.stc.scrubRemaining ++ be2 s.stc.lowMark ++ be1 (storeLevelCode s.stc.level)
    ++ be2 s.freeBlocks ++ blockStates.flatMap (fun st => be2 (s.blockCount st)) ++ be2 s.usedPlaces ++ be2 s.stc.spoiled
    ++ flag (s.condition .badlistFull)
    ++ be1 s.freeBuffers ++ be1 (s.bufferCount .filling) ++ be1 (s.bufferCount .pending)
    ++ be1 (s.bufferCount .programming) ++ be1 (s.ownedBuffers BufOwner.isRun) ++ be1 (s.ownedBuffers BufOwner.isExtent)
    ++ be1 (s.ownedBuffers BufOwner.isRelocation) ++ be2 (s.claimCount .buffer) ++ be2 (s.claimCount .block)
    ++ be1 s.stc.runs.length ++ be2 s.stc.extents.length ++ be2 (s.extentCount .writing) ++ be2 (s.extentCount .closed)
    ++ be2 (s.extentCount .published) ++ be2 (s.stc.relocations.filter Relocation.active).length ++ bankBytes (s.bank bank)

/-- STORE_QUERY (R142). -/
def actStoreQuery (bank : Byte) (s : State) : Answered :=
  if 4 ≤ bank.toNat then s.refuse .range else (s, .done, storeQueryBytes s bank.toNat)

/-! ## Ends of operations (R116) -/

/-- The pages of a burst go to their requester, unless it has withdrawn (R127). A page of a READ that moved to a
relocation's target may be lost there, and then ends with a read error (R127, R134). -/
def State.returnRead (s : State) (r : ReadReq) (wanted : Bool) (errors : List Nat) : State :=
  if wanted then
    match r.reader with
    | .lane n role base => s.laneRead n role base r (errors ++ (s.block r.block).lost)
    | .channel c j => s.channelRead c j r (errors ++ (s.block r.block).lost)
    | .relocation o => s.relocRead o r errors
  else s

/-- The end of a READ (R116, R127). -/
def State.endRead (s : State) (b : Nat) (r : ReadReq) (wanted : Bool) (errors : List Nat) : State :=
  (((s.setBank b { s.bank b with op := none }).returnRead r wanted errors).arbitrate b).serveClaims

/-- An operation not ended within its limit is ended as failed (R116). `left` says which pages a
READ had returned and what an APPEND leaves in its place (log 13). -/
def State.opLimit (s : State) (b : Nat) (left : Unfinished) : State :=
  match (s.bank b).op with
  | some (.read r wanted) => s.endRead b r wanted (r.pages.filter (fun p => !left.returned.contains p))
  | some (.program p) => (s.endProgram b p false).serveClaims
  | some (.append g k) => (s.endAppend b g k false left.place).serveClaims
  | none => match (s.bank b).erase with
    | some e => if e.state = .suspended then s else (s.endErase b e false).serveClaims
    | none => s

/-! ## Meanings -/

/-- STORE_SET (R141). -/
def execStoreSet (tag : Word16) (lowMark : Word16) (s : State) : Result :=
  .next (s.directive (.storeSet tag lowMark) 0x60 tag true (actStoreSet lowMark))

/-- STORE_QUERY (R142). -/
def execStoreQuery (tag : Word16) (bank : Byte) (s : State) : Result :=
  .next (s.directive (.storeQuery tag bank) 0x61 tag true (actStoreQuery bank))

/-- STORE_OP_LIMIT (R116). -/
def execStoreOpLimit (bank : Nat) (left : Unfinished) (s : State) : Result := .next (s.opLimit bank left)

/-- SUSPEND_LIMIT (R131): a suspension that has not taken effect is given up, and the erase runs on. -/
def execSuspendLimit (bank : Nat) (s : State) : Result :=
  .next (match (s.bank bank).erase with
    | some e =>
      if e.state = .commanded then
        s.setBank bank { s.bank bank with erase := some { e with state := .running, suspends := 16 } }
      else s
    | none => s)

/-- ERASE_SUSPEND_EFFECT (R131). -/
def execEraseSuspendEffect (bank : Nat) (s : State) : Result :=
  .next (match (s.bank bank).erase with
    | some e =>
      if e.state = .commanded then
        (s.setBank bank { s.bank bank with
          erase := some { e with state := .suspended, suspends := e.suspends + 1 } }).arbitrate bank
      else s
    | none => s)

/-- READ_END (R127). -/
def execReadEnd (bank : Nat) (errors : List Nat) (s : State) : Result :=
  .next (match (s.bank bank).op with
    | some (.read r wanted) => s.endRead bank r wanted errors
    | _ => s)

/-- PROGRAM_END (R125). -/
def execProgramEnd (bank : Nat) (success : Bool) (s : State) : Result :=
  .next (match (s.bank bank).op with
    | some (.program p) => (s.endProgram bank p success).serveClaims
    | _ => s)

/-- ERASE_END (R118): a suspended erase can end only failed (R132). -/
def execEraseEnd (bank : Nat) (success : Bool) (s : State) : Result :=
  .next (match (s.bank bank).erase with
    | some e => if e.state = .suspended ∧ success = true then s else (s.endErase bank e success).serveClaims
    | none => s)

/-- APPEND_END (R137). -/
def execAppendEnd (success : Bool) (left : List Byte) (s : State) : Result :=
  .next (match (s.bank 0).op with
    | some (.append g k) => (s.endAppend 0 g k success left).serveClaims
    | _ => s)

/-- SOURCE_LOW_MARK (R42, R120). -/
def execSourceLowMark (slot : Nat) (r : Role) (mark : Nat) (s : State) : Result :=
  .next (
    let s1 := s.received (.sourceLowMark slot r mark)
    match s1.run? slot r with
    | none => s1
    | some x => ((s1.setRun slot r { x with lowMark := max x.lowMark mark }).retireTest slot r).serveClaims)

end Sys2Proof.Machine
end

