-- ==== Sys2Proof/Machine/Delivery.lean ====
section
/-! DEFINITION. The commands of the delivery channels (spec 08): FETCH, STOP, CHANNEL_QUERY and the SGC's notice. -/

namespace Sys2Proof.Machine

/-! ## FETCH (R150) -/

/-- The mode of a FETCH (R150, R193): RANGE 0, FOLLOW 1. -/
def modeOf (mode : Byte) (last : Word16) : Option FetchMode :=
  if mode = 0 then some (.range last.toNat) else if mode = 1 then some .follow else none

/-- Whether a RANGE's last segment is not below its first (R150 check 2). -/
def modeOk (m : FetchMode) (first : Nat) : Bool :=
  match m with
  | .range last => decide (first ≤ last)
  | .follow => true

/-- Takes a FETCH: the channel begins its first segment (R150, R151). -/
def State.fetch (s : State) (c : Nat) (f : Fetch) : State :=
  let x := s.channel c
  (s.setChannel c { Channel.reset with
    fetch := some f, current := some f.first, lastTrailer := x.lastTrailer, lastEnding := x.lastEnding }).beginSegment c
    f.first

/-- FETCH (R150). -/
def actFetch (channel slot rendition : Byte) (first : Word16) (mode : Byte) (last : Word16) (s : State) : Answered :=
  let c := channel.toNat
  match modeOf mode last with
  | none => s.refuse .range
  | some m =>
    if 8 ≤ c ∨ 32 ≤ slot.toNat ∨ 4 ≤ rendition.toNat then s.refuse .range
    else if !modeOk m first.toNat then s.refuse .range
    else if (s.channel c).state ≠ .idle then s.refuse .busy
    else match s.lecture? slot.toNat with
      | none => s.refuse .state
      | some l =>
        if l.profiles.length ≤ rendition.toNat then s.refuse .range
        else (s.fetch c ⟨slot.toNat, rendition.toNat, m, first.toNat⟩, .done, [])

/-! ## STOP (R156) -/

/-- STOP (R156). -/
def actStop (channel : Byte) (s : State) : Answered :=
  let c := channel.toNat
  if 8 ≤ c then s.refuse .range
  else if (s.channel c).state = .idle then s.refuse .state
  else if (s.channel c).stopRequested then s.refuse .busy
  else
    let r := s.stopChannel c
    (r.1, r.2, [])

/-! ## CHANNEL_QUERY (R159) -/

/-- The code of an item (R149). -/
def itemCode : Item → Nat
  | .header => 0
  | .body => 1
  | .trailer => 2
  | .ending => 3

/-- The code of a staging place (R149). -/
def stagingCode : Staging → Nat
  | .empty => 0
  | .requested _ => 1
  | .full _ _ => 2

/-- The code of a fetch mode (R193). -/
def fetchModeCode : FetchMode → Nat
  | .range _ => 0
  | .follow => 1

/-- The last segment of a RANGE. -/
def Fetch.last (f : Fetch) : Option Nat :=
  match f.mode with
  | .range n => some n
  | .follow => none

/-- The number of return cells mapped to a channel in the map in force (R159). -/
def State.mappedCells (s : State) (c : Nat) : Nat := (s.trt.map.filter (fun e => e.2 == .channel c)).length

/-- The reply fields of CHANNEL_QUERY (R159). -/
def channelQueryBytes (s : State) (c : Nat) : List Byte :=
  let x := s.channel c
  be1 (channelStateCode x.state) ++ optField 1 (fun f => be1 (fetchModeCode f.mode)) x.fetch
    ++ optField 1 (fun f => be1 f.slot) x.fetch ++ optField 1 (fun f => be1 f.rendition) x.fetch
    ++ optField 2 (fun f => be2 f.first) x.fetch ++ optField 2 be2 (x.fetch.bind Fetch.last)
    ++ optField 2 be2 x.current ++ optField 1 (fun i => be1 (itemCode i)) x.item ++ be4 x.position ++ be4 x.bodyLength
    ++ be4 x.placed ++ be1 (stagingCode x.place0) ++ be1 (stagingCode x.place1) ++ be1 (bodyOutcomeCode x.outcome)
    ++ flag x.stopRequested ++ be2 x.sent ++ optField 1 (fun e => be1 (lastEndingCode e)) x.lastEnding
    ++ be1 (s.mappedCells c) ++ flag (x.state != .idle && s.mappedCells c == 0)

/-- CHANNEL_QUERY (R159). -/
def actChannelQuery (channel : Byte) (s : State) : Answered :=
  if 8 ≤ channel.toNat then s.refuse .range else (s, .done, channelQueryBytes s channel.toNat)

/-! ## Meanings -/

/-- FETCH (R150). -/
def execFetch (tag : Word16) (channel slot rendition : Byte) (first : Word16) (mode : Byte) (last : Word16) (s : State) :
    Result :=
  .next (s.directive (.fetch tag channel slot rendition first mode last) 0x70 tag true
    (actFetch channel slot rendition first mode last))

/-- STOP (R156). -/
def execStop (tag : Word16) (channel : Byte) (s : State) : Result :=
  .next (s.directive (.stop tag channel) 0x71 tag true (actStop channel))

/-- CHANNEL_QUERY (R159). -/
def execChannelQuery (tag : Word16) (channel : Byte) (s : State) : Result :=
  .next (s.directive (.channelQuery tag channel) 0x72 tag true (actChannelQuery channel))

/-- CHANNEL_WAKE (R152). -/
def execChannelWake (slot : Nat) (s : State) : Result := .next ((s.received (.channelWake slot)).wakeChannels slot)

end Sys2Proof.Machine
end

