-- ==== Sys2Proof/Machine/Dispatch.lean ====
section
/-! DEFINITION. The command taken: one arm per row of spec/opcode_table.json, each one direct call of its meaning. -/

namespace Sys2Proof.Machine

/-- The effect of a command on everything but the queue of waiting commands. -/
def exec (i : Instr) (s : State) : Host.Outcome State Fault Refusal :=
  match i with
  | .powerOnReset unreadable => Sys2Proof.Machine.execPowerOnReset unreadable s
  | .controlCell cell => Sys2Proof.Machine.execControlCell cell s
  | .status tag => Sys2Proof.Machine.execStatus tag s
  | .alarmRetire tag => Sys2Proof.Machine.execAlarmRetire tag s
  | .resetArm tag => Sys2Proof.Machine.execResetArm tag s
  | .reset tag bodyLength => Sys2Proof.Machine.execReset tag bodyLength s
  | .trunkSet tag checkEnable autoResync idleFill => Sys2Proof.Machine.execTrunkSet tag checkEnable autoResync idleFill s
  | .trunkQuery tag selector clear => Sys2Proof.Machine.execTrunkQuery tag selector clear s
  | .trunkResync tag => Sys2Proof.Machine.execTrunkResync tag s
  | .cellmapSet tag direction activation entries => Sys2Proof.Machine.execCellmapSet tag direction activation entries s
  | .profileSetWrite tag profile operation kind roles bound limit label => Sys2Proof.Machine.execProfileSetWrite tag profile operation kind roles bound limit label s
  | .profileSetClear tag profile => Sys2Proof.Machine.execProfileSetClear tag profile s
  | .profileQuery tag profile => Sys2Proof.Machine.execProfileQuery tag profile s
  | .lectureLoad tag slot number course cls roles segLength skew gap count p0 p1 p2 p3 => Sys2Proof.Machine.execLectureLoad tag slot number course cls roles segLength skew gap count p0 p1 p2 p3 s
  | .lectureQuery tag slot => Sys2Proof.Machine.execLectureQuery tag slot s
  | .lectureClose tag slot => Sys2Proof.Machine.execLectureClose tag slot s
  | .lectureAbort tag slot => Sys2Proof.Machine.execLectureAbort tag slot s
  | .lectureRelease tag slot segment => Sys2Proof.Machine.execLectureRelease tag slot segment s
  | .lectureArchive tag slot => Sys2Proof.Machine.execLectureArchive tag slot s
  | .segmentQuery tag slot segment => Sys2Proof.Machine.execSegmentQuery tag slot segment s
  | .dispatchSet tag floor preemption => Sys2Proof.Machine.execDispatchSet tag floor preemption s
  | .queueQuery tag selector first => Sys2Proof.Machine.execQueueQuery tag selector first s
  | .laneRemove tag lane => Sys2Proof.Machine.execLaneRemove tag lane s
  | .laneRemoveForce tag lane => Sys2Proof.Machine.execLaneRemoveForce tag lane s
  | .laneRestore tag lane => Sys2Proof.Machine.execLaneRestore tag lane s
  | .laneQuery tag lane => Sys2Proof.Machine.execLaneQuery tag lane s
  | .groupOn tag group => Sys2Proof.Machine.execGroupOn tag group s
  | .groupOff tag group => Sys2Proof.Machine.execGroupOff tag group s
  | .groupOffForce tag group => Sys2Proof.Machine.execGroupOffForce tag group s
  | .storeSet tag lowMark => Sys2Proof.Machine.execStoreSet tag lowMark s
  | .storeQuery tag bank => Sys2Proof.Machine.execStoreQuery tag bank s
  | .fetch tag channel slot rendition first mode last => Sys2Proof.Machine.execFetch tag channel slot rendition first mode last s
  | .stop tag channel => Sys2Proof.Machine.execStop tag channel s
  | .channelQuery tag channel => Sys2Proof.Machine.execChannelQuery tag channel s
  | .frameSearch bits => Sys2Proof.Machine.execFrameSearch bits s
  | .superframeSearchFrame frame => Sys2Proof.Machine.execSuperframeSearchFrame frame s
  | .checkSearchFrame frame => Sys2Proof.Machine.execCheckSearchFrame frame s
  | .inSyncFrame frame => Sys2Proof.Machine.execInSyncFrame frame s
  | .payloadCell entry bytes => Sys2Proof.Machine.execPayloadCell entry bytes s
  | .returnFrame => Sys2Proof.Machine.execReturnFrame s
  | .gapTimerExpiry slot role => Sys2Proof.Machine.execGapTimerExpiry slot role s
  | .skewTimerExpiry slot => Sys2Proof.Machine.execSkewTimerExpiry slot s
  | .sanityTimerExpiry lane => Sys2Proof.Machine.execSanityTimerExpiry lane s
  | .testChunkExpiry lane => Sys2Proof.Machine.execTestChunkExpiry lane s
  | .risingPhaseEnd group => Sys2Proof.Machine.execRisingPhaseEnd group s
  | .fallingPhaseEnd group => Sys2Proof.Machine.execFallingPhaseEnd group s
  | .supplyFault group => Sys2Proof.Machine.execSupplyFault group s
  | .supplyMonitorNormal group => Sys2Proof.Machine.execSupplyMonitorNormal group s
  | .storeOpLimit bank left => Sys2Proof.Machine.execStoreOpLimit bank left s
  | .suspendLimit bank => Sys2Proof.Machine.execSuspendLimit bank s
  | .eraseSuspendEffect bank => Sys2Proof.Machine.execEraseSuspendEffect bank s
  | .readEnd bank errors => Sys2Proof.Machine.execReadEnd bank errors s
  | .programEnd bank success => Sys2Proof.Machine.execProgramEnd bank success s
  | .eraseEnd bank success => Sys2Proof.Machine.execEraseEnd bank success s
  | .appendEnd success left => Sys2Proof.Machine.execAppendEnd success left s
  | .chunkEnd lane output => Sys2Proof.Machine.execChunkEnd lane output s
  | .testChunkEnd lane output => Sys2Proof.Machine.execTestChunkEnd lane output s
  | .sourceMalformed lane => Sys2Proof.Machine.execSourceMalformed lane s
  | .laneReadRequest lane role offset length => Sys2Proof.Machine.execLaneReadRequest lane role offset length s
  | .laneBufferRequest lane output => Sys2Proof.Machine.execLaneBufferRequest lane output s
  | .laneBlockRequest lane output => Sys2Proof.Machine.execLaneBlockRequest lane output s
  | .unitNotice notice => Sys2Proof.Machine.execUnitNotice notice s
  | .roleEndNotice slot role => Sys2Proof.Machine.execRoleEndNotice slot role s
  | .lateDropReport slot role stamp => Sys2Proof.Machine.execLateDropReport slot role stamp s
  | .overrunReport slot => Sys2Proof.Machine.execOverrunReport slot s
  | .jobOutcome slot segment rendition result => Sys2Proof.Machine.execJobOutcome slot segment rendition result s
  | .jobRecordFreed => Sys2Proof.Machine.execJobRecordFreed s
  | .extentRecordFreed => Sys2Proof.Machine.execExtentRecordFreed s
  | .channelWake slot => Sys2Proof.Machine.execChannelWake slot s
  | .sourceLowMark slot role mark => Sys2Proof.Machine.execSourceLowMark slot role mark s
  | .discardRequest lane job => Sys2Proof.Machine.execDiscardRequest lane job s

end Sys2Proof.Machine
end

