-- ==== Sys2Proof/Machine/Tick.lean ====
section
/-! DEFINITION. A tick: 125 microseconds pass on the reference clock (log 2, log 8). Running timers count down, those
that reach 0 run out in the order of log 9, and the TRT builds the next return frame (R176). -/

namespace Sys2Proof.Machine

/-! ## Counting down -/

/-- A running gap timer counts down (R7). -/
def RolePart.tick (p : RolePart) : RolePart := if p.gapRunning then { p with gapLeft := p.gapLeft - 1 } else p

/-- A running skew timer counts down (R36). -/
def Segment.tick (g : Segment) : Segment := if g.skewRunning then { g with skewLeft := g.skewLeft - 1 } else g

/-- The timers of a lecture count down. -/
def Lecture.tick (l : Lecture) : Lecture := { l.mapParts RolePart.tick with window := l.window.map Segment.tick }

/-- A running sanity or test timer counts down (R96, R104); a PAUSED one keeps its time (R94). -/
def SanityTimer.tick : SanityTimer → SanityTimer
  | .running n => .running (n - 1)
  | o => o

/-- The timer of a lane counts down. -/
def Lane.tick (l : Lane) : Lane := { l with timer := l.timer.tick }

/-- The time left of a RISING or FALLING phase counts down (R109, R110). -/
def Group.tick (x : Group) : Group := { x with left := x.left - 1 }

/-- Every running timer counts down by one tick. -/
def State.countDown (s : State) : State :=
  { s with
    sgc := { s.sgc with lectures := s.sgc.lectures.map (fun e => (e.1, e.2.tick)) }
    lanes := s.lanes.map (fun e => (e.1, e.2.tick))
    groups := s.groups.map (fun e => (e.1, e.2.tick)) }

/-! ## Running out (log 9) -/

/-- The gap timer of a role, when it runs and has no time left. -/
def State.gapDue (s : State) (slot : Nat) (r : Role) : Bool :=
  match s.lecture? slot with
  | none => false
  | some l => (l.parts.get r).gapRunning && (l.parts.get r).gapLeft == 0

/-- The gap timers of a slot run out, in role order (R7). -/
def State.tickGaps (s : State) (slot : Nat) : State :=
  allRoles.foldl (fun q r => if q.gapDue slot r then (q.gapExpire slot r).serveClaims else q) s

/-- Whether the skew timer of a slot's CUTTING segment runs and has no time left. -/
def State.skewDue (s : State) (slot : Nat) : Bool :=
  match (s.lecture? slot).bind Lecture.cuttingSegment with
  | none => false
  | some g => g.skewRunning && g.skewLeft == 0

/-- The skew timer of a slot runs out (R36). -/
def State.tickSkew (s : State) (slot : Nat) : State := if s.skewDue slot then (s.skewExpire slot).serveClaims else s

/-- The timer of a lane runs out (R96, R104). -/
def State.tickLane (s : State) (n : Nat) : State :=
  match (s.lane n).timer with
  | .running 0 => if (s.lane n).state = .test then s.testChunkExpire n else s.sanityExpire n
  | _ => s

/-- The phase of a group ends (R109, R110). -/
def State.tickGroup (s : State) (g : Nat) : State :=
  let x := s.group g
  if x.left ≠ 0 then s
  else match x.state with
    | .rising => s.risingEnd g
    | .falling => s.fallingEnd g
    | _ => s

/-- A tick (log 2, log 8, log 9). -/
def State.tick (s : State) : State :=
  let s1 := (List.range 32).foldl State.tickGaps s.countDown
  let s2 := (List.range 32).foldl State.tickSkew s1
  let s3 := laneNumbers.foldl State.tickLane s2
  ([0, 1, 2].foldl State.tickGroup s3).buildReturn

end Sys2Proof.Machine
end

