-- ==== Sys2Proof/Machine/Step.lean ====
section
/-! DEFINITION. One step of the part: the command at the front of the queue; with none waiting, the oldest message under
way between two blocks; with neither, a tick of the clock (log 2). -/

namespace Sys2Proof.Machine

/-- One step (log 1, log 2). -/
def step (s : State) : Host.Outcome State Fault Refusal :=
  match s.pending with
  | c :: rest => exec c { s with pending := rest }
  | [] => match s.sent with
    | m :: _ => exec m s
    | [] => .next s.tick

/-- The state with the command that a word spells put at the front of its queue; no row of the table gives bits (log
3). -/
def State.withFetchWord (s : State) (nbits w : Nat) : State :=
  match Sys2Proof.decodeTableWord nbits w with
  | some c => { s with pending := c :: s.pending }
  | none => s

end Sys2Proof.Machine
end

