-- ==== Sys2Proof/Safety.lean ====
section
/-! DEFINITION. What the statements about the part speak of: the registers that only a few commands write, the
invariants of a step, and the conditions under which a directive is taken. -/

namespace Sys2Proof.Machine

/-! ## Registers that few commands write -/

/-- Whether a command is a directive of spec 11.3. -/
def Instr.isDirective (c : Instr) : Bool := (Sys2Proof.directiveParts c).isSome

/-- The state that only the reset, directive, trunk, group and store-port commands write: the waiting commands, the
banks' contents, the free values drawn, the registers of TRR, TRT and GPC, the profile table, the settings of JDP and
STC, the part state, the bad-list places, the CCU's own registers but its events, the conditions of the trunk and of
the group supplies, and the directives under way. -/
structure Still where
  pending : List Instr
  mem : List Host.Cell
  freeDraws : Nat
  trr : Trr
  trt : Trt
  groups : Table Group
  profiles : Table Profile
  floor : Nat
  preemption : Bool
  lowMark : Nat
  ready : Bool
  scrubRemaining : Nat
  emptyPlaces : List Nat
  spoiled : Nat
  unreadable : List Nat
  reserved : List Reserved
  replies : List Reply
  controlOverrun : Bool
  discards : Nat
  armed : Bool
  cause : ResetCause
  trunkSync : Bool
  returnLost : Bool
  groupSupply : Bool
  directives : List Instr

/-- The conditions that the store, the lanes, the intake and the jobs raise: all but those of the trunk and of the group
supplies (R186). -/
def Condition.ofWork : Condition → Bool
  | .trunkSync => false
  | .returnLost => false
  | .groupSupply => false
  | _ => true

/-- These registers of a state. -/
def State.still (s : State) : Still where
  pending := s.pending
  mem := s.mem
  freeDraws := s.freeDraws
  trr := s.trr
  trt := s.trt
  groups := s.groups
  profiles := s.sgc.profiles
  floor := s.jdp.floor
  preemption := s.jdp.preemption
  lowMark := s.stc.lowMark
  ready := s.stc.ready
  scrubRemaining := s.stc.scrubRemaining
  emptyPlaces := s.stc.emptyPlaces
  spoiled := s.stc.spoiled
  unreadable := s.stc.unreadable
  reserved := s.ccu.reserved
  replies := s.ccu.replies
  controlOverrun := s.ccu.controlOverrun
  discards := s.ccu.discards
  armed := s.ccu.armed
  cause := s.ccu.cause
  trunkSync := s.ccu.conditions.trunkSync
  returnLost := s.ccu.conditions.returnLost
  groupSupply := s.ccu.conditions.groupSupply
  directives := s.sent.filter Instr.isDirective

/-! ## The store at rest -/

/-- The store has nothing to serve: no claim waits, and no relocation's copy can go on (R129, R134). -/
def State.atRest (s : State) : Prop := s.stc.claims = [] ∧ ∀ r ∈ s.stc.relocations, s.canCopy r = false

/-! ## A lane at rest in its source -/

/-- A lane has read on as far as the pages returned to it go: in each role that it still reads, it waits for bytes
(R91, R92). -/
def State.awaitsSource (s : State) (n : Nat) : Prop :=
  ∀ j g r q, s.laneJob n = some j → s.jobSegment j = some g → (s.lane n).reads.get r = some q →
    q.walking = (s.lane n).walking → q.reached = false →
    (s.lane n).readStep r (g.ranges.get r) ((s.lane n).readLimit g j) q = .waits

/-! ## Timers that a tick counts down (R7, R36, R96, R104, R109, R110) -/

/-- The timers: the gap timer of a role, the skew timer of a slot, the sanity or test timer of a lane, the time left
of a phase of a group. -/
inductive Timer
  | gap (slot : Nat) (role : Role)
  | skew (slot : Nat)
  | lane (lane : Nat)
  | phase (group : Nat)
deriving DecidableEq, Repr

/-- Whether a timer runs and has no time left. -/
def State.due (s : State) : Timer → Bool
  | .gap slot r => decide (slot < 32) && s.gapDue slot r
  | .skew slot => decide (slot < 32) && s.skewDue slot
  | .lane n => decide (n < 12) && (s.lane n).timer == .running 0
  | .phase g =>
    decide (g < 3) && (s.group g).left == 0 && ((s.group g).state == .rising || (s.group g).state == .falling)

/-- The command that a timer's running out is. -/
def State.expiry (s : State) : Timer → Instr
  | .gap slot r => .gapTimerExpiry slot r
  | .skew slot => .skewTimerExpiry slot
  | .lane n => if (s.lane n).state = .test then .testChunkExpiry n else .sanityTimerExpiry n
  | .phase g => if (s.group g).state = .rising then .risingPhaseEnd g else .fallingPhaseEnd g

/-! ## The store as a scrub begins (R139, R195) -/

/-- The bad list is read from block 0: it names the BAD blocks, its empty and spoiled places are noted, and every other
block but block 0 is in its bank's erase queue in increasing block index, the first of them being erased. -/
def State.scrubStarts (s : State) (unreadable : List Nat) : Prop :=
  let bad := listedBlocks s.mem unreadable
  s.stc.unreadable = unreadable ∧ s.stc.emptyPlaces = emptyPlacesOf s.mem unreadable
    ∧ s.stc.spoiled = spoiledOf s.mem unreadable ∧ s.stc.scrubRemaining = 16383 - bad.length ∧ s.stc.level = .normal
    ∧ s.block 0 = ⟨.reserved, []⟩ ∧ (∀ g ∈ bad, s.block g = ⟨.bad, []⟩)
    ∧ ∀ b < 4, (s.bank b).free = [] ∧ (s.bank b).op = none
        ∧ ((s.bank b).erase.map Erase.block).toList ++ (s.bank b).eraseQueue
            = (List.range' (b * 4096) 4096).filter (fun g => g != 0 && !bad.contains g)
        ∧ (∀ e, (s.bank b).erase = some e →
            e.state = .running ∧ e.suspends = 0 ∧ e.scrub = true ∧ s.block e.block = ⟨.erasing, []⟩)
        ∧ ∀ g ∈ (s.bank b).eraseQueue, s.block g = ⟨.retired, []⟩

/-! ## The header a channel builds (R151, R155, R158) -/

/-- The SEGMENT header of R158 for segment `n` of a fetch, laid out as spec 11.5 says: the summary of a catalogue
entry, or none, and a body length, or ABSENT. -/
def State.segmentHeader (s : State) (c : Nat) (f : Fetch) (l : Lecture) (n : Nat) (e : Option CatalogueEntry)
    (body : Option Nat) : List Byte :=
  let label := (((l.profiles[f.rendition]?).bind s.profile?).map (fun p => p.label.toNat)).getD 0
  let on : Bool → Nat → Nat := fun b k => if b then k else 0
  let summary := match e with
    | none => 0
    | some e => on e.forcedCut 4 + on e.postponed 8 + on e.short 16 + on e.damaged 32 + on e.lateDrop 64
        + on e.leadStart.isSome 128
  withCheck16 ([0x4C, 0x44, 0x01] ++ be1 c ++ be4 l.number.toNat ++ be2 l.course.toNat ++ be2 n ++ be1 f.rendition ++ [0]
    ++ be2 label ++ be2 (on body.isNone 1 + on (lastFlag f l n) 2 + summary)
    ++ be4 (((e.bind CatalogueEntry.leadStart).map BitVec.toNat).getD 0) ++ be4 ((e.map CatalogueEntry.duration).getD 0)
    ++ be4 (body.getD 0) ++ List.replicate 32 0)

/-- The END header of R155 (spec 11.5). -/
def endHeader (c : Nat) (f : Fetch) (l : Lecture) (last : Nat) : List Byte :=
  withCheck16 ([0x4C, 0x44, 0x02] ++ be1 c ++ be4 l.number.toNat ++ be2 l.course.toNat ++ be2 last ++ be1 f.rendition
    ++ List.replicate 49 0)

/-- A channel sends, with an item built and nothing of it placed. -/
def Channel.builds (x : Channel) (item : Item) (bytes : List Byte) : Prop :=
  x.state = .sending ∧ x.item = some item ∧ x.position = 0 ∧ x.bytes = bytes

/-- In `t` channel `c` has begun segment `n` of its fetch by a look-up in `s` (R151): a header with a body, a header
with ABSENT, nothing while the segment is not yet published, or the END header, which names segment `last`. -/
def State.begins (s t : State) (c : Nat) (f : Fetch) (l : Lecture) (last n : Nat) : Prop :=
  let x := t.channel c
  x.fetch = some f ∧ x.current = some n ∧ match s.lookUp f.slot n f.rendition l with
    | .entry e => match e.extent with
      | some m =>
        let length := ((s.extent? m).map Extent.committed).getD 0
        x.builds .header (s.segmentHeader c f l n (some e) (some length)) ∧ x.hasBody = true ∧ x.extent = some m
          ∧ x.bodyLength = length ∧ x.placed = 0 ∧ x.bodyCheck = check32Start
      | none => x.builds .header (s.segmentHeader c f l n (some e) none) ∧ x.hasBody = false
    | .released => x.builds .header (s.segmentHeader c f l n none none) ∧ x.hasBody = false
    | .dropped => x.builds .header (s.segmentHeader c f l n none none) ∧ x.hasBody = false
    | .notYet => x.state = .waiting ∧ x.item = none
    | .neverOpened => match f.mode with
      | .follow => x.builds .ending (endHeader c f l last)
      | .range _ => x.builds .header (s.segmentHeader c f l n none none) ∧ x.hasBody = false

/-- A channel's delivery reads are withdrawn and its staging places are empty (R127, R156). -/
def State.readsWithdrawn (s : State) (c : Nat) : Prop :=
  (s.channel c).place0 = .empty ∧ (s.channel c).place1 = .empty
    ∧ (∀ b j, ∀ q ∈ (s.bank b).deliveryRead, q.reader ≠ .channel c j)
    ∧ ∀ b q wanted, (s.bank b).op = some (.read q wanted) → ∀ j, q.reader = .channel c j → wanted = false

/-! ## How a segment ends (R24, R29, R35, R38, R39) -/

/-- `y` is the range `x` of a role ended at its current end `stop`: it ends there with the stamp of its last unit, and
without a start it begins there too, without stamps (R24, R37, R38). -/
def RoleRange.takesEnd (x y : RoleRange) (stop : Nat) : Prop :=
  y.cut = .ended ∧ y.endOffset = some stop
    ∧ (∀ start, x.startOffset = some start → y.startOffset = some start ∧ y.startStamp = x.startStamp
        ∧ y.endStamp = x.lastUnit)
    ∧ (x.startOffset = none → y.startOffset = some stop ∧ y.startStamp = none ∧ y.endStamp = none)

/-- `y` is the range `x` of a role ended at its current end `stop` and sealed (R39): EMPTY where it begins there. -/
def RoleRange.endsAt (x y : RoleRange) (stop : Nat) : Prop :=
  x.takesEnd y stop ∧ y.status = (if x.startOffset = none ∨ x.startOffset = some stop then .empty else .normal)

/-- `h` is the OPEN segment `g` of a lecture ended at its current end and sealed: SEALED, or WORKING where it has been
admitted at once (R38, R39). -/
def Lecture.sealsOpen (l : Lecture) (g h : Segment) : Prop :=
  h.number = g.number ∧ (h.state = .sealed ∨ h.state = .working)
    ∧ (∀ q ∈ l.roles, (g.ranges.get q).endsAt (h.ranges.get q) (l.parts.get q).noticedEnd)
    ∧ h.endStamp = l.roles.foldl (fun a q => laterOf a (h.ranges.get q).endStamp) none
    ∧ (g.leadStart = none ∨ h.endStamp = none → h.duration = 0)
    ∧ (∀ a e, g.leadStart = some a → h.endStamp = some e →
        h.duration = if stampLater e a then min (e - a).toNat (4 * (l.segLength * 1000)) else 0)
    ∧ h.chunkCount = max 1 ((h.duration + 999) / 1000)

/-- What serves the OPEN segment alone is gone: no forced cut is armed, the candidate lists are empty, no stretch discard
is in force (R29 step 5, R38 step 3). -/
def Lecture.cutCleared (l : Lecture) : Prop :=
  l.forcedCut = false ∧ (∀ q, (l.parts.get q).candidates = []) ∧ l.stretch = .off

/-- `y` is the range `x` of a role other than the cut role at a lead cut with stamp `b` (R29 step 2, R35): a role that
has ended, or has no start, ends at its noticed end; another is CUT at the first of its candidates at or beyond `b`, and
PENDING as it was without one. -/
def RolePart.resolvesCut (p : RolePart) (b : Stamp) (x y : RoleRange) : Prop :=
  (x.startOffset = none → y.cut = .ended ∧ y.startOffset = some p.noticedEnd ∧ y.endOffset = some p.noticedEnd
      ∧ y.startStamp = none ∧ y.endStamp = none)
    ∧ (∀ start, x.startOffset = some start → y.startOffset = some start ∧ y.startStamp = x.startStamp
      ∧ (p.ended = true → y.cut = .ended ∧ y.endOffset = some p.noticedEnd ∧ y.endStamp = x.lastUnit)
      ∧ (∀ c, p.ended = false → p.candidates.find? (fun c => stampFrom c.stamp b) = some c →
          y.cut = .cut ∧ y.endOffset = some c.offset ∧ y.endStamp = some c.stamp)
      ∧ (p.ended = false → (∀ c ∈ p.candidates, stampFrom c.stamp b = false) → y.cut = .pending ∧ y = x))

/-- `a` is the segment `g` of a lecture after the lead cut at a unit of the lead role (R29, R32, R35): SEALED, or
WORKING where it has been admitted at once, when no role is PENDING; else CUTTING with the skew timer started. -/
def Lecture.leadCuts (l : Lecture) (stamp : Stamp) (offset : Nat) (g a : Segment) : Prop :=
  a.number = g.number ∧ a.leadStart = g.leadStart ∧ a.cutRole = some l.lead ∧ a.cutStamp = some stamp
    ∧ a.forcedCut = (g.forcedCut || l.forcedCut) ∧ a.postponed = g.postponed
    ∧ (let y := a.ranges.get l.lead
       y.startOffset = (g.ranges.get l.lead).startOffset ∧ y.endOffset = some offset ∧ y.endStamp = some stamp
        ∧ y.cut = .cut)
    ∧ (∀ q ∈ l.roles, q ≠ l.lead → (l.parts.get q).resolvesCut stamp (g.ranges.get q) (a.ranges.get q))
    ∧ ((∃ q ∈ l.roles, (a.ranges.get q).cut = .pending) →
        a.state = .cutting ∧ a.skewRunning = true ∧ a.skewLeft = l.skewLimit * 8000)
    ∧ ((∀ q ∈ l.roles, (a.ranges.get q).cut ≠ .pending) →
        (a.state = .sealed ∨ a.state = .working) ∧ a.endStamp = some stamp ∧ a.skewRunning = false)

/-- `b` is the segment that opens at the lead cut which leaves `a` (R25, R35): the lead starts with the cutting unit, a
role cut from its candidate list with its cut unit, and no other role has started. -/
def Lecture.opensAtCut (l : Lecture) (stamp : Stamp) (offset : Nat) (a b : Segment) : Prop :=
  b.number = l.nextSegment ∧ b.state = .opened ∧ b.leadStart = some stamp
    ∧ b.target = l.base.map (fun base => targetStamp base stamp (1000 * l.segLength))
    ∧ b.renditions = l.profiles.map (fun _ => .pending)
    ∧ (b.ranges.get l.lead).startOffset = some offset ∧ (b.ranges.get l.lead).startStamp = some stamp
    ∧ ∀ q ∈ l.roles, q ≠ l.lead →
        ((a.ranges.get q).cut = .cut → (b.ranges.get q).startOffset = (a.ranges.get q).endOffset
          ∧ (b.ranges.get q).startStamp = (a.ranges.get q).endStamp)
        ∧ ((a.ranges.get q).cut ≠ .cut → b.ranges.get q = RoleRange.fresh)

/-- `a` is the CUTTING segment `c` of a lecture after its PENDING role `r` has been cut or ended in it (R35, R37): the
other roles stand as they were; with one of them PENDING it is CUTTING, its skew timer as it was; with none it ends at
B, SEALED, or WORKING where it has been admitted at once, and its skew timer stops. -/
def Lecture.settles (l : Lecture) (r : Role) (c a : Segment) : Prop :=
  a.number = c.number ∧ a.leadStart = c.leadStart ∧ a.cutRole = c.cutRole ∧ a.cutStamp = c.cutStamp
    ∧ (∀ q ∈ l.roles, q ≠ r →
        let x := c.ranges.get q
        let y := a.ranges.get q
        y.startOffset = x.startOffset ∧ y.endOffset = x.endOffset ∧ y.endStamp = x.endStamp ∧ y.cut = x.cut)
    ∧ ((∃ q ∈ l.roles, q ≠ r ∧ (c.ranges.get q).cut = .pending) →
        a.state = .cutting ∧ a.skewRunning = c.skewRunning ∧ a.skewLeft = c.skewLeft)
    ∧ ((∀ q ∈ l.roles, q ≠ r → (c.ranges.get q).cut ≠ .pending) →
        (a.state = .sealed ∨ a.state = .working) ∧ a.skewRunning = false
          ∧ ∀ b, c.cutStamp = some b → a.endStamp = some b)

/-- The segments that wait for admission, by slot and number (R43). -/
def State.admissions (s : State) : List (Nat × Nat) := s.sgc.liveAdmission ++ s.sgc.backlogAdmission

/-! ## The copies of a relocation (R134) -/

/-- A bank has a PROGRAM of the relocation copy class in its queue, or performs it. -/
def Bank.copiesIn (x : Bank) (p : ProgramReq) : Prop := .program p ∈ x.copy ∨ x.op = some (.program p)

/-- A bank has a READ of the relocation copy class in its queue, or performs it. -/
def Bank.copiesOut (x : Bank) (r : ReadReq) : Prop := .read r ∈ x.copy ∨ x.op = some (.read r true)

/-- In `t` relocation `q` of an owner's block `failed` reads a burst of `count` pages from `first` on, to be copied into
its target `g`: a page buffer for each page, and one READ of them all. -/
def State.bursts (t : State) (q : Relocation) (o : Owner) (failed g first count : Nat) : Prop :=
  let pages := List.range' first count
  q.copying = pages ∧ q.next = first + count ∧ q.final = false
    ∧ (∀ k ∈ pages, ∃ i c, t.buf? i = some c ∧ c.owner = .relocation o ∧ c.block = g ∧ c.page = k ∧ c.discarded = false)
    ∧ (t.bank (bankOf failed)).copiesOut ⟨.relocation o, failed, pages, 0, 262144⟩

/-- Page buffer `i`, not discarded, is the one buffer bound to page `page` of block `g` for an owner. -/
def State.solelyBound (s : State) (i : Nat) (o : BufOwner) (g page : Nat) : Prop :=
  (∃ c, s.buf? i = some c ∧ c.owner = o ∧ c.block = g ∧ c.page = page ∧ c.discarded = false)
    ∧ ∀ j c, s.buf? j = some c → c.owner = o → c.block = g → c.page = page → j = i

/-! ## The tail of a closed run (R64, R119) -/

/-- In `t` page buffer `i`, which was the FILLING buffer `c` of a run, holds bytes padded with 0xFF to the end of its
page, all committed, and is PENDING or already being programmed. -/
def State.tailClosed (t : State) (i : Nat) (c : Buf) (data : List Byte) : Prop :=
  ∃ d, t.buf? i = some d ∧ d.owner = c.owner ∧ d.block = c.block ∧ d.page = c.page
    ∧ d.data = data ++ List.replicate (4096 - data.length) 0xFF ∧ d.committed = 4096
    ∧ (d.state = .pending ∨ d.state = .programming)

/-! ## What a bank is granted (R130, R138) -/

/-- Whether a request is an APPEND. -/
def CopyReq.isAppend : CopyReq → Bool
  | .append _ => true
  | _ => false

/-- The requests of class 5 that can be granted: with no empty bad-list place, the APPENDs at the head are dropped
(R138; log 83). -/
def Bank.copyQueue (x : Bank) (places : List Nat) : List CopyReq :=
  if places = [] then x.copy.dropWhile CopyReq.isAppend else x.copy

/-- In `t` bank `b`, left as `x` with no operation and no erase but a suspended one, has been granted the head of the
first class queue that is not empty (R130): intake PROGRAM, delivery READ, lane READ, lane PROGRAM, relocation copy and
APPEND, and only with all of these empty the resume of its suspended erase, or else the start of an erase of its erase
queue's head. A buffer whose PROGRAM starts is PROGRAMMING, a block whose erase starts is ERASING. -/
def State.grantsHead (t : State) (b : Nat) (x : Bank) : Prop :=
  let y := t.bank b
  let started : ProgramReq → Prop := fun p => y.op = some (.program p)
    ∧ ∀ buf, t.buf? p.buffer = some buf → buf.state = .programming
  (∀ p rest, x.intakeProgram = p :: rest → started p ∧ y = { x with intakeProgram := rest, op := y.op })
    ∧ (x.intakeProgram = [] →
      (∀ r rest, x.deliveryRead = r :: rest → y = { x with deliveryRead := rest, op := some (.read r true) })
      ∧ (x.deliveryRead = [] →
        (∀ r rest, x.laneRead = r :: rest → y = { x with laneRead := rest, op := some (.read r true) })
        ∧ (x.laneRead = [] →
          (∀ p rest, x.laneProgram = p :: rest → started p ∧ y = { x with laneProgram := rest, op := y.op })
          ∧ (x.laneProgram = [] →
            let copy := x.copyQueue t.stc.emptyPlaces
            (x.copy ≠ copy → t.condition .badlistFull = true)
            ∧ (∀ r rest, copy = .read r :: rest → y = { x with copy := rest, op := some (.read r true) })
            ∧ (∀ p rest, copy = .program p :: rest → started p ∧ y = { x with copy := rest, op := y.op })
            ∧ (∀ g k rest, copy = .append g :: rest → t.stc.emptyPlaces.head? = some k →
                y = { x with copy := rest, op := some (.append g k) })
            ∧ (copy = [] →
              (∀ e, x.erase = some e → y = { x with copy := [], erase := some { e with state := .running } })
              ∧ (x.erase = none →
                (∀ g rest, x.eraseQueue = g :: rest → (t.block g).state = .erasing
                  ∧ y = { x with
                      copy := [], eraseQueue := rest, scrub := x.scrub - 1
                      erase := some ⟨g, .running, 0, decide (0 < x.scrub)⟩ })
                ∧ (x.eraseQueue = [] → y = { x with copy := [] })))))))

/-! ## What an abort leaves of a slot (R18) -/

/-- A block that is not BAD has been given up: RETIRED in its bank's erase queue, or already being erased. -/
def State.gaveUp (s : State) (g : Nat) : Prop :=
  ((s.block g).state = .retired ∧ g ∈ (s.bank (bankOf g)).eraseQueue)
    ∨ ((s.block g).state = .erasing ∧ ∃ e, (s.bank (bankOf g)).erase = some e ∧ e.block = g)

/-! ## Invariants of a step -/

/-- The reply place that a directive holds while it is under way (R181). -/
def placeOf (c : Instr) : Option Reserved := (Sys2Proof.directiveParts c).map (fun p => ⟨p.1, p.2.1⟩)

/-- At most four reply places are in use, and the reserved ones are those of the directives under way (R181). -/
def State.placesOk (s : State) : Prop := s.placesInUse ≤ 4 ∧ s.ccu.reserved.Perm (s.sent.filterMap placeOf)

/-- Record numbers rise along a table. -/
def Table.sorted {α : Type} (t : Table α) : Prop := (t.map (fun e => e.1)).Pairwise (· < ·)

/-- The next return frame has an index 0 to 19 (R176). -/
def State.returnIndexOk (s : State) : Prop := s.trt.nextIndex < 20

/-- The counts of the receiver keep to their ranges: the frame count 0 to 19, the check history up to 50, the four
error counters 0 to 65535, search frames and the two runs of IN_SYNC 0 to 255, the index run 0 to 3 and below 3 while
it is being counted, three check results, the far-end run 0 to 2 (R162, R164, R173). -/
def State.receiverOk (s : State) : Prop :=
  (∀ k, s.trr.frameCount = some k → k < 20) ∧ s.trr.history.length ≤ 50
    ∧ s.trr.alignmentErrors ≤ 65535 ∧ s.trr.indexErrors ≤ 65535 ∧ s.trr.checkErrors ≤ 65535
    ∧ s.trr.controlFailures ≤ 65535
    ∧ s.trr.searchFrames ≤ 255 ∧ s.trr.alignmentRun ≤ 255 ∧ s.trr.indexRunInSync ≤ 255
    ∧ s.trr.indexRun ≤ 3 ∧ (s.trr.sync = .searchSuperframe → s.trr.indexRun ≤ 2)
    ∧ s.trr.checkResults.length ≤ 3 ∧ s.trr.farEndRun ≤ 2

/-- A lecture record keeps to its sizes: at most 8 records in its window, none of them while it is LOADED, one
rendition a profile in each, at most 256 entries in each candidate list (R11, R22, R23, R31). -/
def Lecture.sized (l : Lecture) : Prop :=
  l.window.length ≤ 8 ∧ (l.state = .loaded → l.window = [])
    ∧ (∀ g ∈ l.window, g.renditions.length = l.profiles.length)
    ∧ ∀ r, (l.parts.get r).candidates.length ≤ 256

/-- Every lecture record keeps to its sizes, and the catalogue to its 4096 entries (R143). -/
def State.windowsOk (s : State) : Prop :=
  (∀ slot l, s.lecture? slot = some l → l.sized) ∧ s.sgc.catalogue.length ≤ 4096

/-- A lane holds a job exactly when it is BUSY or DRAINING (R90). -/
def State.lanesOk (s : State) : Prop :=
  ∀ n, (s.lane n).job ≠ none ↔ ((s.lane n).state = .busy ∨ (s.lane n).state = .draining)

/-- A pool of `n` numbered records: the numbers of those in use rise, and lie below `n`. -/
def Table.within {α : Type} (n : Nat) (t : Table α) : Prop := t.sorted ∧ ∀ e ∈ t, e.1 < n

/-- The blocks in a bank's free list and erase queue, and the block it erases, are the bank's own (R118). -/
def Bank.holds (b : Nat) (x : Bank) : Prop :=
  (∀ g ∈ x.free, bankOf g = b) ∧ (∀ g ∈ x.eraseQueue, bankOf g = b) ∧ ∀ e, x.erase = some e → bankOf e.block = b

/-- The pools keep to their numbers: 256 job records, 160 page buffers, 4096 extent records (R74, R122, R124); each bank
lists blocks of its own (R118). -/
def State.poolsOk (s : State) : Prop :=
  s.jdp.jobs.within 256 ∧ s.stc.buffers.within 160 ∧ s.stc.extents.within 4096 ∧ ∀ b, (s.bank b).holds b

/-! ## Taking a directive -/

/-- A directive arrives and a reply place is free: it is not under way between the CCU and its owner, and fewer than
four places are in use (R179, R181). -/
def State.accepts (s : State) (c : Instr) : Prop := c ∉ s.sent ∧ s.placesInUse < 4

/-- The reserved places after a directive's own is filled: those that were reserved before (R181). -/
def State.restReserved (s : State) (code : Nat) (tag : Word16) : List Reserved :=
  (s.ccu.reserved ++ [(⟨code, tag⟩ : Reserved)]).erase ⟨code, tag⟩

/-- A state in which a directive has been answered and nothing else has changed: the arm is DISARMED, and the reply
stands last among the filled ones (R179, R181). -/
def State.answered (s : State) (code : Nat) (tag : Word16) (result : ReplyCode) (fields : List Byte) : State :=
  { s with ccu := { s.ccu with
      armed := false, reserved := s.restReserved code tag, replies := s.ccu.replies ++ [⟨code, tag, result, fields⟩] } }

/-- The last filled reply of a state, as a directive left it. -/
def State.lastReply (s : State) : Option Reply := s.ccu.replies.getLast?

end Sys2Proof.Machine
end

