-- ==== Sys2Proof/Certificates/Slice0/Obligations.lean ====
section
/-! DEFINITION. The statements about the part. `exec` answers a next state of a command's own effect under conditions on
the state and the operands alone. -/

open Sys2Proof Sys2Proof.Machine

/-! ## Steps (the model's own: log 1, log 2) -/

/-- A step takes the command at the front of the queue: it is `exec` of it on the state with the queue's rest. -/
def Obligations.StepRunsFrontCommand : Prop :=
  ∀ (c : Instr) (rest : List Instr) (s : State),
    step { s with pending := c :: rest } = exec c { s with pending := rest }

/-- With no command waiting, a step takes the oldest message under way, and with none under way a tick passes (log 2,
DESIGN CHOICE). A tick builds the next return frame and counts a RISING or FALLING phase that has more than one tick
left down by one (log 8). It counts every running gap timer, skew timer, sanity timer, test timer and phase down by
one, a PAUSED or STOPPED one not, and changes nothing else where none has run out. The one timer that has run out acts
as the command of its expiry does, before the return frame is built; the order of several is log 9 (DESIGN CHOICE) and
not stated here. -/
def Obligations.IdleStep : Prop :=
  (∀ s : State, s.pending = [] →
    (∀ m rest, s.sent = m :: rest → step s = exec m s) ∧ (s.sent = [] → step s = .next s.tick))
  ∧ (∀ s : State, s.pending = [] → s.sent = [] →
    ∃ t, step s = .next t ∧ t.trt.nextIndex = (s.trt.nextIndex + 1) % 20
      ∧ ∀ g, 1 < (s.group g).left → t.group g = { s.group g with left := (s.group g).left - 1 })
  ∧ (∀ s : State, s.pending = [] → s.sent = [] →
    let q := s.countDown
    ((∀ x, q.due x = false) → step s = .next q.buildReturn)
    ∧ (∀ x u, q.due x = true → (∀ y, q.due y = true → y = x) → exec (q.expiry x) q = .next u →
        (∀ y, u.due y = false) → step s = .next u.buildReturn))
  ∧ (∀ s : State,
    let q := s.countDown
    q = { s with sgc := { s.sgc with lectures := q.sgc.lectures }, lanes := q.lanes, groups := q.groups }
    ∧ (∀ slot, s.lecture? slot = none → q.lecture? slot = none)
    ∧ (∀ slot l, s.lecture? slot = some l → q.lecture? slot = some { l with
        parts := l.parts.map (fun _ p => { p with gapLeft := if p.gapRunning then p.gapLeft - 1 else p.gapLeft })
        window := l.window.map (fun g => { g with skewLeft := if g.skewRunning then g.skewLeft - 1 else g.skewLeft }) })
    ∧ (∀ n, q.lane n = { s.lane n with timer := match (s.lane n).timer with
        | .running k => .running (k - 1)
        | k => k })
    ∧ ∀ g, q.group g = { s.group g with left := (s.group g).left - 1 })

/-! ## Resets (R178, R190, R191) -/

/-- The values after power-on reset that the chapters state. The 16383 blocks to scrub, and block 0 alone RESERVED,
are those of a part whose bad list is empty (log 12, DESIGN CHOICE). -/
def Obligations.ResetValues : Prop :=
  let s := State.reset
  s.ccu.reserved = [] ∧ s.ccu.replies = [] ∧ s.ccu.controlOverrun = false ∧ s.ccu.discards = 0
    ∧ s.ccu.conditions = ⟨true, false, false, false, false, false, false, false, false⟩
    ∧ s.ccu.alarmRetired = false ∧ s.ccu.armed = false ∧ s.ccu.cause = .power
    ∧ s.ccu.events.map (fun e => (e.object, e.kind, e.merge)) = [(.part, .start, 0)]
    ∧ s.trr.sync = .searchFrame ∧ s.trr.frameCount = none ∧ s.trr.checkEnable = true ∧ s.trr.autoResync = true
    ∧ s.trr.idleFill = 0x5A ∧ s.trr.alignmentErrors = 0 ∧ s.trr.indexErrors = 0 ∧ s.trr.checkErrors = 0
    ∧ s.trr.controlFailures = 0 ∧ s.trr.map = [] ∧ s.trr.pendingMap = none
    ∧ s.trt.nextIndex = 0 ∧ s.trt.superCheck = 0xFFFF ∧ s.trt.map = [] ∧ s.trt.pendingMap = none
    ∧ s.sgc.lectures = [] ∧ s.sgc.profiles = [] ∧ s.sgc.catalogue = []
    ∧ s.jdp.jobs = [] ∧ s.jdp.live = [] ∧ s.jdp.backlog = [] ∧ s.jdp.floor = 2 ∧ s.jdp.preemption = true
    ∧ s.jdp.count = 0
    ∧ (∀ n, (s.lane n).state = .off) ∧ (∀ g, (s.group g).state = .off) ∧ (∀ c, (s.channel c).state = .idle)
    ∧ s.stc.buffers = [] ∧ s.stc.runs = [] ∧ s.stc.extents = [] ∧ s.stc.ready = false
    ∧ s.stc.scrubRemaining = 16383 ∧ s.stc.lowMark = 512 ∧ s.stc.level = .normal ∧ (s.block 0).state = .reserved

/-- POWER_ON_RESET gives every block its after-reset state with the reset cause POWER. A RESET of body length 0 that
finds the arm ARMED fires, even while four reply places are in use, with the same effect and the cause DIRECTIVE; the
return frame being sent stays as it was built. The store begins its scrub: the bad list is read from the banks, the
blocks it names are BAD, block 0 RESERVED, every other block in its bank's erase queue in increasing index, the first
being erased. When no APPEND is in progress, every byte of the banks stays, that of an abandoned PROGRAM or ERASE
among them (log 14, DESIGN CHOICE); a group's monitor keeps its value (log 17, DESIGN CHOICE). At the in-band RESET the
pages of block 0 that cannot be read are those of the last power-on (log 16, DESIGN CHOICE, unsafe). -/
def Obligations.ResetsBringUp : Prop :=
  (∀ (unreadable : List Nat) (s : State), ∃ t, exec (.powerOnReset unreadable) s = .next t
    ∧ t.pending = s.pending ∧ t.sent = [] ∧ t.ccu = Ccu.afterReset .power ∧ t.trr = Trr.reset ∧ t.trt = Trt.reset
    ∧ t.iku = ⟨[], []⟩ ∧ t.sgc = Sgc.reset ∧ t.jdp = Jdp.reset ∧ t.lanes = [] ∧ t.channels = []
    ∧ (∀ g, t.group g = (s.group g).afterReset)
    ∧ t.stc.buffers = [] ∧ t.stc.runs = [] ∧ t.stc.extents = [] ∧ t.stc.relocations = [] ∧ t.stc.claims = []
    ∧ t.stc.ready = false ∧ t.stc.lowMark = 512 ∧ t.freeBlocks = 0 ∧ t.scrubStarts unreadable
    ∧ ((∀ g k, (s.bank 0).op ≠ some (.append g k)) → t.mem = s.mem))
  ∧ (∀ (tag : Word16) (s : State), s.ccu.armed = true → ∃ t, exec (.reset tag 0) s = .next t
    ∧ t.pending = s.pending ∧ t.sent = [] ∧ t.ccu = Ccu.afterReset .directive ∧ t.trr = Trr.reset
    ∧ t.trt = { Trt.reset with frame := s.trt.frame } ∧ t.iku = ⟨[], []⟩ ∧ t.sgc = Sgc.reset ∧ t.jdp = Jdp.reset
    ∧ t.lanes = [] ∧ t.channels = [] ∧ (∀ g, t.group g = (s.group g).afterReset)
    ∧ t.stc.buffers = [] ∧ t.stc.runs = [] ∧ t.stc.extents = [] ∧ t.stc.relocations = [] ∧ t.stc.claims = []
    ∧ t.stc.ready = false ∧ t.stc.lowMark = 512 ∧ t.freeBlocks = 0 ∧ t.scrubStarts s.stc.unreadable
    ∧ ((∀ g k, (s.bank 0).op ≠ some (.append g k)) → t.mem = s.mem))

/-! ## The control channel (R179 to R192) -/

/-- RESET_ARM sets the arm to ARMED and replies DONE. A RESET that does not fire is refused STATE with body length 0 and
FORMAT with another, and only disarms. -/
def Obligations.ArmAndRefusedReset : Prop :=
  ∀ (tag : Word16) (len : Byte) (s : State),
    (s.accepts (.resetArm tag) → exec (.resetArm tag) s
      = .next { s.answered 0x03 tag .done [] with
          ccu := { (s.answered 0x03 tag .done []).ccu with armed := true } })
    ∧ (s.accepts (.reset tag len) → s.ccu.armed = false → len = 0 →
        exec (.reset tag len) s = .next (s.answered 0x04 tag .state []))
    ∧ (s.accepts (.reset tag len) → len ≠ 0 → exec (.reset tag len) s = .next (s.answered 0x04 tag .format []))

/-- STATUS replies with the values of R188, an indication coded 1 when it holds (log 18, DESIGN CHOICE), then clears
CONTROL_OVERRUN and the overrun discards, and nothing else. -/
def Obligations.StatusReports : Prop :=
  ∀ (tag : Word16) (s : State), s.accepts (.status tag) →
    let fields := [0x62, 0x40, 3] ++ be1 (partStateCode s.stc.ready) ++ be1 (causeCode s.ccu.cause)
      ++ conditionBytes s.ccu.conditions ++ be1 (alarmLevelCode (alarmLevel s.ccu.conditions))
      ++ flag s.ccu.alarmRetired ++ flag s.ccu.controlOverrun ++ be1 s.ccu.discards ++ be1 1 ++ be1 (s.placesInUse + 1)
      ++ be1 s.ccu.events.length ++ be2 s.freeBlocks ++ be2 s.stc.scrubRemaining
    exec (.status tag) s
      = .next { s.answered 0x01 tag .done fields with
          ccu := { (s.answered 0x01 tag .done fields).ccu with controlOverrun := false, discards := 0 } }

/-- ALARM_RETIRE makes the three latched conditions inactive, sets ALARM_RETIRED and changes nothing else. It replies
with those that were active and every condition after it, coded as log 18 (DESIGN CHOICE) says. -/
def Obligations.AlarmRetire : Prop :=
  ∀ (tag : Word16) (s : State), s.accepts (.alarmRetire tag) →
    let c := s.ccu.conditions
    let after := { c with groupSupply := false, intakeOverrun := false, jobFailed := false }
    let fields := flag c.groupSupply ++ flag c.intakeOverrun ++ flag c.jobFailed ++ conditionBytes after
    exec (.alarmRetire tag) s
      = .next { s.answered 0x02 tag .done fields with
          ccu := { (s.answered 0x02 tag .done fields).ccu with conditions := after, alarmRetired := true } }

/-- Raising a condition: one already active changes nothing; one newly active becomes active, clears ALARM_RETIRED and
leaves an event of the PART object pending, a START event keeping its kind. Events coalesce: an object has at most one
pending event if it had at most one before, an event already pending keeps its place and its merge count rises by one up
to 255, and a first event joins the tail with merge count 0. -/
def Obligations.ConditionsAndEvents : Prop :=
  (∀ (s : State) (k : Condition),
    (s.condition k = true → s.raise k = s)
    ∧ (s.condition k = false →
        (s.raise k).condition k = true ∧ (∀ j, j ≠ k → (s.raise k).condition j = s.condition j)
        ∧ (s.raise k).ccu.alarmRetired = false
        ∧ ∃ e ∈ (s.raise k).ccu.events, e.object = .part
            ∧ e.kind = (if s.startPending then .start else .alarm)))
  ∧ (∀ (s : State) (o : EventObject) (k : EventKind) (content : List Byte),
    ((s.ccu.events.map (fun e => e.object)).Nodup →
      ((s.queueEvent o k content).ccu.events.map (fun e => e.object)).Nodup)
    ∧ ((∀ e ∈ s.ccu.events, e.object ≠ o) →
        (s.queueEvent o k content).ccu.events = s.ccu.events ++ [⟨o, k, 0, content⟩])
    ∧ (∀ before e after, s.ccu.events = before ++ e :: after → e.object = o → (∀ d ∈ before, d.object ≠ o) →
        (s.queueEvent o k content).ccu.events
          = before ++ ⟨o, k, min 255 (e.merge + 1), content⟩ :: after))

/-- A directive that finds four reply places in use is discarded unanswered: the arm is DISARMED, CONTROL_OVERRUN is
set, the overrun discards rise by one up to 255, and nothing else changes. -/
def Obligations.FullReplyPlacesDiscard : Prop :=
  ∀ (c : Instr) (s : State), Instr.isDirective c = true → c ∉ s.sent → 4 ≤ s.placesInUse →
    (∀ tag, c = .reset tag 0 → s.ccu.armed = false) →
    exec c s = .next { s with ccu := { s.ccu with
      armed := false, controlOverrun := true, discards := min 255 (s.ccu.discards + 1) } }

/-- A control cell that hands nothing over. A wrong check raises the control cell check failures and changes nothing
else; a right check with code 0 changes nothing; a code of no directive is refused UNKNOWN; a known code whose body
disagrees with it is refused FORMAT, and only the arm and the reply change. -/
def Obligations.ControlCellNotHandedOver : Prop :=
  ∀ (cell : List Byte) (s : State), Instr.controlCell cell ∉ s.sent →
    (cellCheckOk cell = false → exec (.controlCell cell) s
        = .next { s with trr := { s.trr with controlFailures := min 65535 (s.trr.controlFailures + 1) } })
    ∧ (cellCheckOk cell = true → cellCode cell = 0 → exec (.controlCell cell) s = .next s)
    ∧ (cellCheckOk cell = true → cellCode cell ≠ 0 → s.placesInUse < 4 → (cellCode cell).toNat ∉ knownCodes →
        exec (.controlCell cell) s = .next (s.answered (cellCode cell).toNat (cellTag cell) .unknown []))
    ∧ (cellCheckOk cell = true → s.placesInUse < 4 → (cellCode cell).toNat ∈ knownCodes → directiveOfCell cell = none →
        exec (.controlCell cell) s = .next (s.answered (cellCode cell).toNat (cellTag cell) .format []))

/-- The control cell of a directive of another owner than the CCU, taken with a reply place free, reserves a place for
its reply and hands the directive over: it is under way. The arm is DISARMED. Nothing else changes. -/
def Obligations.ControlCellHandsOver : Prop :=
  ∀ (i : Instr) (cell body : List Byte) (code : Nat) (tag : Word16) (s : State),
    i.handedOver = true → directiveParts i = some (code, tag, body) → 0x10 ≤ code → cellOfDirective i = some cell →
    Instr.controlCell cell ∉ s.sent → s.placesInUse < 4 →
    exec (.controlCell cell) s
      = .next { s with
          sent := s.sent ++ [i]
          ccu := { s.ccu with armed := false, reserved := s.ccu.reserved ++ [⟨code, tag⟩] } }

/-- A directive's cell and then its taking come to the same state as the directive command in one step (log 4). -/
def Obligations.CellThenDirective : Prop :=
  ∀ (i : Instr) (cell body : List Byte) (code : Nat) (tag : Word16) (s : State),
    i.handedOver = true → directiveParts i = some (code, tag, body) → 0x10 ≤ code → cellOfDirective i = some cell →
    Instr.controlCell cell ∉ s.sent → i ∉ s.sent → s.placesInUse < 4 →
    ∃ u t, exec (.controlCell cell) s = .next u ∧ exec i u = .next t ∧ exec i s = .next t

/-- The control cell of every directive that R179 hands over has 256 bytes and a right check, and is read back as that
directive, with every field at every value. Where R179 reads nothing the cell holds zeros, and of the bodies that read
alike one is written (log 51, DESIGN CHOICE). -/
def Obligations.DirectiveCellsReadBack : Prop :=
  ∀ (i : Instr) (cell : List Byte), i.handedOver = true → cellOfDirective i = some cell →
    cell.length = 256 ∧ cellCheckOk cell = true ∧ directiveOfCell cell = some i

/-- A body whose count lies outside its range is refused FORMAT: CELLMAP_SET outside 1 to 62 entries, LECTURE_LOAD
outside 1 to 4 renditions. A number outside its range is refused RANGE: the slot (0 to 31) of LECTURE_QUERY, CLOSE,
ABORT, ARCHIVE, RELEASE and SEGMENT_QUERY, the profile (0 to 15) of PROFILE_QUERY and PROFILE_SET CLEAR, the lane (0
to 11) of the LANE directives, the group (0 to 2) of the GROUP directives, the bank (0 to 3) of STORE_QUERY, the
channel (0 to 7) of STOP and CHANNEL_QUERY. Nothing else changes. -/
def Obligations.FieldsRefused : Prop :=
  (∀ (s : State) (tag : Word16),
    (∀ direction activation es, s.accepts (.cellmapSet tag direction activation es) →
      (es.length < 1 ∨ 62 < es.length) →
      exec (.cellmapSet tag direction activation es) s = .next (s.answered 0x13 tag .format []))
    ∧ (∀ slot number course cls roles seg skew gap count p0 p1 p2 p3,
        s.accepts (.lectureLoad tag slot number course cls roles seg skew gap count p0 p1 p2 p3) →
        (count.toNat < 1 ∨ 4 < count.toNat) →
        exec (.lectureLoad tag slot number course cls roles seg skew gap count p0 p1 p2 p3) s
          = .next (s.answered 0x30 tag .format [])))
  ∧ (∀ (s : State) (tag : Word16) (n : Byte),
    (∀ i code, (i, code) ∈ [(Instr.lectureQuery tag n, 0x31), (.lectureClose tag n, 0x32), (.lectureAbort tag n, 0x33),
        (.lectureArchive tag n, 0x35)] → 32 ≤ n.toNat → s.accepts i →
      exec i s = .next (s.answered code tag .range []))
    ∧ (∀ m i code, (i, code) ∈ [(Instr.lectureRelease tag n m, 0x34), (.segmentQuery tag n m, 0x36)] → 32 ≤ n.toNat →
        s.accepts i → exec i s = .next (s.answered code tag .range []))
    ∧ (∀ i code, (i, code) ∈ [(Instr.profileQuery tag n, 0x21), (.profileSetClear tag n, 0x20)] → 16 ≤ n.toNat →
        s.accepts i → exec i s = .next (s.answered code tag .range []))
    ∧ (∀ i code, (i, code) ∈ [(Instr.laneRemove tag n, 0x50), (.laneRemoveForce tag n, 0x50), (.laneRestore tag n, 0x51),
        (.laneQuery tag n, 0x52)] → 12 ≤ n.toNat → s.accepts i → exec i s = .next (s.answered code tag .range []))
    ∧ (∀ i code, (i, code) ∈ [(Instr.groupOn tag n, 0x53), (.groupOff tag n, 0x54), (.groupOffForce tag n, 0x54)] →
        3 ≤ n.toNat → s.accepts i → exec i s = .next (s.answered code tag .range []))
    ∧ (∀ i code, (i, code) ∈ [(Instr.storeQuery tag n, 0x61)] → 4 ≤ n.toNat → s.accepts i →
        exec i s = .next (s.answered code tag .range []))
    ∧ (∀ i code, (i, code) ∈ [(Instr.stop tag n, 0x71), (.channelQuery tag n, 0x72)] → 8 ≤ n.toNat → s.accepts i →
        exec i s = .next (s.answered code tag .range [])))

/-- The queries reply DONE with the fields of their rules and change no other state. The layout is the model's (log 8,
log 18, DESIGN CHOICE), with it the length that STORE_QUERY shows of the class 6 queue (log 19, DESIGN CHOICE) and a
next to publish of 65536 shown as 0 (log 50), the part of a role that is not present (log 69) and the staging place of a
body page (log 76). -/
def Obligations.QueriesOnlyReply : Prop :=
  ∀ (s : State) (tag : Word16) (n : Byte),
    (n.toNat < 16 → s.accepts (.profileQuery tag n) → exec (.profileQuery tag n) s
      = .next (s.answered 0x21 tag .done (profileBytes (s.profile? n.toNat) ++ be1 (s.profileUsers n.toNat))))
    ∧ (n.toNat < 32 → s.accepts (.lectureQuery tag n) → exec (.lectureQuery tag n) s
      = .next (s.answered 0x31 tag .done (match s.lecture? n.toNat with
          | none => List.replicate 76 0
          | some l => lectureBytes l)))
    ∧ (∀ m l, n.toNat < 32 → s.lecture? n.toNat = some l → s.accepts (.segmentQuery tag n m) →
        exec (.segmentQuery tag n m) s
          = .next (s.answered 0x36 tag .done (segmentQueryBytes s n.toNat m.toNat l)))
    ∧ (∀ first, s.accepts (.queueQuery tag 0 first) → exec (.queueQuery tag 0 first) s
        = .next (s.answered 0x41 tag .done (queueSummary s ++ queuePage s s.jdp.live first.toNat)))
    ∧ (∀ first, s.accepts (.queueQuery tag 1 first) → exec (.queueQuery tag 1 first) s
        = .next (s.answered 0x41 tag .done (queueSummary s ++ queuePage s s.jdp.backlog first.toNat)))
    ∧ (n.toNat < 12 → s.accepts (.laneQuery tag n) → exec (.laneQuery tag n) s
      = .next (s.answered 0x52 tag .done (laneQueryBytes s n.toNat)))
    ∧ (n.toNat < 4 → s.accepts (.storeQuery tag n) → exec (.storeQuery tag n) s
      = .next (s.answered 0x61 tag .done (storeQueryBytes s n.toNat)))
    ∧ (n.toNat < 8 → s.accepts (.channelQuery tag n) → exec (.channelQuery tag n) s
      = .next (s.answered 0x72 tag .done (channelQueryBytes s n.toNat)))

/-! ## Frames of the quiet commands -/

/-- The commands that neither reset, nor come from the library, nor carry a trunk frame, nor switch a group, nor end an
operation that writes a bank: each answers a next state and leaves every register of `State.still` as it was, the banks'
contents among them. -/
def Obligations.QuietCommandsFrame : Prop :=
  ∀ (c : Instr) (s : State),
    (match c with
      | .payloadCell _ _ | .gapTimerExpiry _ _ | .skewTimerExpiry _ | .sanityTimerExpiry _ | .testChunkExpiry _
      | .suspendLimit _ | .eraseSuspendEffect _ | .readEnd _ _ | .chunkEnd _ _ | .testChunkEnd _ _
      | .sourceMalformed _ | .laneReadRequest _ _ _ _ | .laneBufferRequest _ _ | .laneBlockRequest _ _
      | .unitNotice _ | .roleEndNotice _ _ | .lateDropReport _ _ _ | .overrunReport _ | .jobOutcome _ _ _ _
      | .jobRecordFreed | .extentRecordFreed | .channelWake _ | .sourceLowMark _ _ _ | .discardRequest _ _ => true
      | _ => false) = true →
    ∃ t, exec c s = .next t ∧ t.still = s.still

/-- A directive of SGC, JDP, lanes, STC or DLU that is accepted and passes the envelope, other than PROFILE_SET,
DISPATCH_SET, the GROUP directives and STORE_SET, changes no register of `State.still` but by its answer: one reply of
its code and tag joins the filled replies and the arm is DISARMED. -/
def Obligations.DirectivesFrame : Prop :=
  ∀ (c : Instr) (code : Nat) (tag : Word16) (body : List Byte) (s : State),
    (match c with
      | .profileQuery _ _ | .lectureLoad _ _ _ _ _ _ _ _ _ _ _ _ _ _ | .lectureQuery _ _ | .lectureClose _ _
      | .lectureAbort _ _ | .lectureRelease _ _ _ | .lectureArchive _ _ | .segmentQuery _ _ _ | .queueQuery _ _ _
      | .laneRemove _ _ | .laneRemoveForce _ _ | .laneRestore _ _ | .laneQuery _ _ | .storeQuery _ _
      | .fetch _ _ _ _ _ _ _ | .stop _ _ | .channelQuery _ _ => true
      | _ => false) = true →
    directiveParts c = some (code, tag, body) → s.accepts c →
    ∃ t result fields, exec c s = .next t ∧ t.still = (s.answered code tag result fields).still


/-! ## The capture trunk (R161 to R177) -/

/-- TRUNK_SET with two ON or OFF settings sets the trunk profile and replies DONE. With the settings held it changes the
idle fill byte alone. Turning checking off in SEARCH_CHECK enters IN_SYNC at once. Another value is refused RANGE. -/
def Obligations.TrunkSet : Prop :=
  ∀ (s : State) (tag : Word16) (check auto idle : Byte), s.accepts (.trunkSet tag check auto idle) →
    (∀ c a, onOff check = some c → onOff auto = some a →
      ∃ t, exec (.trunkSet tag check auto idle) s = .next t
        ∧ t.trr.checkEnable = c ∧ t.trr.autoResync = a ∧ t.trr.idleFill = idle
        ∧ t.ccu.replies = s.ccu.replies ++ [⟨0x10, tag, .done, []⟩]
        ∧ t.mem = s.mem ∧ t.trt = s.trt ∧ t.groups = s.groups ∧ t.trr.map = s.trr.map
        ∧ (c = s.trr.checkEnable → a = s.trr.autoResync →
            t = { s.answered 0x10 tag .done [] with trr := { s.trr with idleFill := idle } })
        ∧ (s.trr.sync = .searchCheck → s.trr.checkEnable = true → c = false →
            t.trr.sync = .inSync ∧ t.condition .trunkSync = false))
    ∧ ((onOff check = none ∨ onOff auto = none) →
        exec (.trunkSet tag check auto idle) s = .next (s.answered 0x10 tag .range []))

/-- TRUNK_QUERY replies with the four counters and the part its selector names (laid out as log 18, DESIGN CHOICE,
says), and with the clear flag ON sets the counters to 0 afterwards; nothing else changes. -/
def Obligations.TrunkQuery : Prop :=
  ∀ (s : State) (tag : Word16) (selector clear : Byte) (part : List Byte),
    trunkQueryBytes s selector = some part → s.accepts (.trunkQuery tag selector clear) →
    let counters := be2 s.trr.alignmentErrors ++ be2 s.trr.indexErrors ++ be2 s.trr.checkErrors
      ++ be2 s.trr.controlFailures
    (clear = 0 → exec (.trunkQuery tag selector clear) s = .next (s.answered 0x11 tag .done (counters ++ part)))
    ∧ (clear = 1 → exec (.trunkQuery tag selector clear) s
        = .next { s.answered 0x11 tag .done (counters ++ part) with
            trr := { s.trr with alignmentErrors := 0, indexErrors := 0, checkErrors := 0, controlFailures := 0 } })
    ∧ (clear ≠ 0 → clear ≠ 1 →
        exec (.trunkQuery tag selector clear) s = .next (s.answered 0x11 tag .range []))

/-- TRUNK_RESYNC leaves the receiver in SEARCH_FRAME with no candidate, whatever its state. Out of IN_SYNC the loss
cause is RESYNC, TRUNK_SYNC is raised and RETURN_LOST lowered. Out of SEARCH_SUPERFRAME and SEARCH_CHECK the search
state is emptied and a TRUNK event is left pending; in SEARCH_FRAME nothing but the search starts afresh. The trunk
profile, the maps and the counters stay. -/
def Obligations.TrunkResync : Prop :=
  ∀ (s : State) (tag : Word16), s.accepts (.trunkResync tag) →
    ∃ t, exec (.trunkResync tag) s = .next t
      ∧ t.trr.sync = .searchFrame ∧ t.trr.frameCount = none ∧ t.trr.evenExpected = none ∧ t.trr.candidates = []
      ∧ t.ccu.replies = s.ccu.replies ++ [⟨0x12, tag, .done, []⟩]
      ∧ t.trr.map = s.trr.map ∧ t.trr.pendingMap = s.trr.pendingMap ∧ t.trt = s.trt
      ∧ t.trr.checkEnable = s.trr.checkEnable ∧ t.trr.autoResync = s.trr.autoResync ∧ t.trr.idleFill = s.trr.idleFill
      ∧ t.trr.alignmentErrors = s.trr.alignmentErrors ∧ t.trr.indexErrors = s.trr.indexErrors
      ∧ t.trr.checkErrors = s.trr.checkErrors ∧ t.trr.controlFailures = s.trr.controlFailures
      ∧ (s.trr.sync = .inSync → t.trr.lossCause = some .resync ∧ t.condition .trunkSync = true
          ∧ t.condition .returnLost = false)
      ∧ (s.trr.sync ≠ .inSync → s.trr.sync ≠ .searchFrame → ∃ e ∈ t.ccu.events, e.object = .trunk)
      ∧ (s.trr.sync ≠ .inSync → t.trr.searchFrames = 0 ∧ t.trr.indexRun = 0 ∧ t.trr.checkResults = []
          ∧ t.trr.examined = 0 ∧ t.mem = s.mem ∧ t.sgc = s.sgc ∧ t.iku = s.iku)
      ∧ (s.trr.sync = .searchFrame →
          t = { s.answered 0x12 tag .done [] with trr := s.trr.searching })

/-- CELLMAP_SET with valid fields and no change pending for its direction makes a pending map: the named positions take
their assignments, every other position keeps the entry in force. With a change pending it is refused BUSY. -/
def Obligations.CellmapSet : Prop :=
  ∀ (s : State) (tag : Word16) (activation : Byte) (a : Activation) (es : List RawMapEntry),
    activationOf activation = some a → positionsOk es = true → 1 ≤ es.length → es.length ≤ 62 →
    (s.accepts (.cellmapSet tag 0 activation es) → (∀ e ∈ es, (forwardAssignment e).isSome = true) →
      (s.trr.pendingMap = none → ∃ m,
        exec (.cellmapSet tag 0 activation es) s
          = .next { s.answered 0x13 tag .done [] with trr := { s.trr with pendingMap := some (m, a) } }
        ∧ (∀ e ∈ es, forwardAssignment e = some (m.atD e.position.toNat .free))
        ∧ (∀ p, (∀ e ∈ es, e.position.toNat ≠ p) → m.atD p .free = s.trr.map.atD p .free))
      ∧ (s.trr.pendingMap ≠ none →
        exec (.cellmapSet tag 0 activation es) s = .next (s.answered 0x13 tag .busy [])))
    ∧ (s.accepts (.cellmapSet tag 1 activation es) → (∀ e ∈ es, (returnAssignment e).isSome = true) →
      (s.trt.pendingMap = none → ∃ m,
        exec (.cellmapSet tag 1 activation es) s
          = .next { s.answered 0x13 tag .done [] with trt := { s.trt with pendingMap := some (m, a) } }
        ∧ (∀ e ∈ es, returnAssignment e = some (m.atD e.position.toNat .free))
        ∧ (∀ p, (∀ e ∈ es, e.position.toNat ≠ p) → m.atD p .free = s.trt.map.atD p .free))
      ∧ (s.trt.pendingMap ≠ none →
        exec (.cellmapSet tag 1 activation es) s = .next (s.answered 0x13 tag .busy [])))

/-- FRAME_SEARCH examines its bits one by one in SEARCH_FRAME: a bit enters the last 32 bits seen; a candidate with both
tests passed fixes the boundary; else the due candidates are tested and an alignment word becomes a candidate, due one
frame of 131072 bits later. In another sync state no bit is examined. -/
def Obligations.FrameSearch : Prop :=
  (∀ (s : State) (bits more : List Bool), ∃ t u,
      exec (.frameSearch bits) s = .next t ∧ exec (.frameSearch more) t = .next u
        ∧ exec (.frameSearch (bits ++ more)) s = .next u)
  ∧ (∀ (s : State) (bits : List Bool), s.trr.sync ≠ .searchFrame → exec (.frameSearch bits) s = .next s)
  ∧ (∀ (s : State) (b : Bool), s.trr.sync = .searchFrame →
      let word := (s.trr.shift <<< 1) ||| (if b then 1#32 else 0#32)
      let n := s.trr.examined + 1
      ((∃ c ∈ s.trr.candidates, c.due = n ∧ c.complementSeen = true ∧ word = 0x4C6D3A91#32) →
        ∃ t, exec (.frameSearch [b]) s = .next t ∧ t.trr.sync = .searchSuperframe ∧ t.trr.evenExpected = some false
          ∧ t.trr.searchFrames = 0 ∧ t.trr.indexRun = 0 ∧ t.trr.candidates = [] ∧ t.mem = s.mem ∧ t.sent = s.sent)
      ∧ ((∀ c ∈ s.trr.candidates, ¬ (c.due = n ∧ c.complementSeen = true ∧ word = 0x4C6D3A91#32)) →
        ∃ t, exec (.frameSearch [b]) s = .next t ∧ t.trr.sync = .searchFrame ∧ t.trr.shift = word ∧ t.trr.examined = n
          ∧ t = { s with trr := t.trr }
          ∧ (32 ≤ n → word = 0x4C6D3A91#32 → ⟨n + 131072, false⟩ ∈ t.trr.candidates)
          ∧ (∀ c ∈ s.trr.candidates, c.due ≠ n → c ∈ t.trr.candidates)
          ∧ (∀ c ∈ s.trr.candidates, c.due = n → c.complementSeen = false → word = 0xB392C56E#32 →
              ⟨n + 131072, true⟩ ∈ t.trr.candidates)))

/-- A frame in SEARCH_SUPERFRAME delivers no cell. A word wrong for the expected parity gives the search up. Else the
index fits the run (0 to 19, of the expected parity, one after the last header's unless the run is 0) and raises it,
or sets it to 1 (in range and of the parity) or 0. A run of 3 fixes the frame count and ends the search: SEARCH_CHECK
or, with checking off, IN_SYNC. Else the 60th frame gives the search up, an earlier one is counted. A frame in
SEARCH_CHECK: a wrong word or index gives the search up; a second correct comparison among the last three enters
IN_SYNC and delivers the frame with the forward map in force for it; else the 160th frame gives the search up, an
earlier one is counted. In another sync state neither takes a frame. -/
def Obligations.SearchFrames : Prop :=
  (∀ (s : State) (f : ForwardFrame) (even : Bool), s.trr.sync = .searchSuperframe → s.trr.evenExpected = some even →
    let index := f.index.toNat
    let inRange := decide (index < 20) && isEven index == even
    let fits := inRange && (s.trr.indexRun == 0 || index == (s.trr.lastIndex + 1) % 20)
    let run := if fits then s.trr.indexRun + 1 else if inRange then 1 else 0
    ∃ t, exec (.superframeSearchFrame f) s = .next t ∧ t.sent = s.sent ∧ t.mem = s.mem
      ∧ ((f.word ≠ parityWord even ∨ (run < 3 ∧ 59 ≤ s.trr.searchFrames)) →
          t.trr.sync = .searchFrame ∧ t.trr.frameCount = none ∧ t.trr.evenExpected = none ∧ t.trr.searchFrames = 0
          ∧ t.trr.examined = 0 ∧ t.trr.candidates = [] ∧ ∃ e ∈ t.ccu.events, e.object = .trunk)
      ∧ (f.word = parityWord even → run < 3 → s.trr.searchFrames < 59 →
          t = { s with trr := { s.trr with
            searchFrames := s.trr.searchFrames + 1, indexRun := run, lastIndex := index, evenExpected := some (!even) } })
      ∧ (f.word = parityWord even → 3 ≤ run → t.trr.frameCount = some index
          ∧ (∃ e ∈ t.ccu.events, e.object = .trunk)
          ∧ (s.trr.checkEnable = true →
              t.trr.sync = .searchCheck ∧ t.trr.searchFrames = 0 ∧ t.trr.checkResults = [])
          ∧ (s.trr.checkEnable = false → t.trr.sync = .inSync ∧ t.trr.alignmentRun = 0 ∧ t.trr.indexRunInSync = 0
              ∧ t.trr.history = [] ∧ t.trr.lossCause = none ∧ t.condition .trunkSync = false)))
  ∧ (∀ (s : State) (f : ForwardFrame), s.trr.sync ≠ .searchSuperframe → exec (.superframeSearchFrame f) s = .next s)
  ∧ (∀ (s : State) (f : ForwardFrame), s.trr.sync = .searchCheck →
    let count := s.trr.nextCount
    let results := addResult s.trr.checkResults (superCompare s.trr count f) 3
    ∃ t, exec (.checkSearchFrame f) s = .next t ∧ t.mem = s.mem
      ∧ ((f.word ≠ parityWord (isEven count) ∨ f.index.toNat ≠ count
            ∨ (correctResults results < 2 ∧ 159 ≤ s.trr.searchFrames)) →
          t.trr.sync = .searchFrame ∧ t.trr.frameCount = none ∧ t.trr.evenExpected = none ∧ t.trr.searchFrames = 0
          ∧ t.trr.examined = 0 ∧ t.trr.candidates = [] ∧ t.trr.checkResults = [] ∧ t.sent = s.sent
          ∧ ∃ e ∈ t.ccu.events, e.object = .trunk)
      ∧ (f.word = parityWord (isEven count) → f.index.toNat = count →
          (2 ≤ correctResults results → t.trr.sync = .inSync ∧ t.trr.frameCount = some count
            ∧ t.trr.alignmentRun = 0 ∧ t.trr.indexRunInSync = 0 ∧ t.trr.history = [] ∧ t.trr.lossCause = none
            ∧ t.condition .trunkSync = false ∧ t.trr.map = (s.trr.activate count).map
            ∧ t.sent = s.sent ++ .controlCell f.control
                :: payloadMessages (s.trr.activate count).map (f.payload.take 62))
          ∧ (correctResults results < 2 → s.trr.searchFrames < 159 →
              t = { s with trr := { s.trr with
                frameCount := some count, searchFrames := s.trr.searchFrames + 1, checkResults := results,
                evenExpected := some (!isEven count), superCheck := nextSuperCheck s.trr count f } })))
  ∧ (∀ (s : State) (f : ForwardFrame), s.trr.sync ≠ .searchCheck → exec (.checkSearchFrame f) s = .next s)

/-- A frame in IN_SYNC that no resync condition takes out of sync: the frame count advances by one modulo 20 whatever
the header says, the two runs and counters follow the header, the control cell and the payload cells are delivered with
the map in force, and the far-end flag counts only with a right word: the first disagreement with RETURN_LOST makes the
far-end run 1 and changes nothing else, the second in a row changes RETURN_LOST and leaves a TRUNK event pending. At
frame count 0 behind a computed superframe, with checking on, the comparison joins the check history, of which the last
50 results stay, and a wrong one counts as a check error; at any other frame both stay. -/
def Obligations.InSyncDelivers : Prop :=
  ∀ (s : State) (f : ForwardFrame), s.trr.sync = .inSync →
    (s.trr.autoResync = false ∨ resyncCondition (s.trr.tested f) = none) →
    let count := s.trr.nextCount
    let badWord := f.word != parityWord (isEven count)
    let badIndex := f.index.toNat != count
    let compared := if count = 0 ∧ s.trr.checkEnable = true then s.trr.superCheck.map (fun w => w == f.check) else none
    ∃ t, exec (.inSyncFrame f) s = .next t ∧ t.trr.sync = .inSync ∧ t.trr.frameCount = some count
      ∧ t.trr.alignmentErrors = raise16 s.trr.alignmentErrors badWord
      ∧ t.trr.indexErrors = raise16 s.trr.indexErrors badIndex
      ∧ t.trr.alignmentRun = runOf s.trr.alignmentRun badWord
      ∧ t.trr.indexRunInSync = runOf s.trr.indexRunInSync badIndex
      ∧ (∀ right, compared = some right →
          t.trr.history = (s.trr.history ++ [right]).drop (s.trr.history.length - 49)
          ∧ t.trr.checkErrors = raise16 s.trr.checkErrors (!right))
      ∧ (compared = none → t.trr.history = s.trr.history ∧ t.trr.checkErrors = s.trr.checkErrors)
      ∧ t.sent = s.sent ++ .controlCell f.control
          :: payloadMessages ((s.trr.tested f).activate count).map (f.payload.take 62)
      ∧ (badWord = true → t.trr.farEndRun = s.trr.farEndRun ∧ t.condition .returnLost = s.condition .returnLost)
      ∧ (badWord = false → f.flags.getLsbD 0 = s.condition .returnLost →
          t.trr.farEndRun = 0 ∧ t.condition .returnLost = s.condition .returnLost)
      ∧ (badWord = false → f.flags.getLsbD 0 ≠ s.condition .returnLost → s.trr.farEndRun = 0 →
          t.trr.farEndRun = 1 ∧ t.condition .returnLost = s.condition .returnLost ∧ t.ccu.events = s.ccu.events)
      ∧ (badWord = false → f.flags.getLsbD 0 ≠ s.condition .returnLost → 1 ≤ s.trr.farEndRun →
          t.trr.farEndRun = 0 ∧ t.condition .returnLost = f.flags.getLsbD 0 ∧ ∃ e ∈ t.ccu.events, e.object = .trunk)
      ∧ t.mem = s.mem ∧ t.trt = s.trt

/-- A frame in IN_SYNC at which a resync condition holds with auto-resync on: the receiver leaves for SEARCH_FRAME with
that condition as the loss cause, TRUNK_SYNC is raised and RETURN_LOST lowered. Four wrong alignment words in a row are
such a condition, two out-of-sequence indices another, and, with checking on, 45 wrong results among the last 50 of the
check history a third; with a right word and index and fewer wrong results, or with checking off, none holds. -/
def Obligations.InSyncLosesSync : Prop :=
  (∀ (s : State) (f : ForwardFrame) (cause : LossCause), s.trr.sync = .inSync → s.trr.autoResync = true →
    resyncCondition (s.trr.tested f) = some cause →
    ∃ t, exec (.inSyncFrame f) s = .next t ∧ t.trr.sync = .searchFrame ∧ t.trr.lossCause = some cause
      ∧ t.trr.frameCount = none ∧ t.trr.history = [] ∧ t.condition .trunkSync = true
      ∧ t.condition .returnLost = false ∧ t.trr.map = s.trr.map ∧ t.trr.pendingMap = s.trr.pendingMap
      ∧ t.mem = s.mem ∧ t.trt = s.trt)
  ∧ (∀ (t : Trr) (f : ForwardFrame), 3 ≤ t.alignmentRun → f.word ≠ parityWord (isEven t.nextCount) →
      resyncCondition (t.tested f) = some .alignment)
  ∧ (∀ (t : Trr) (f : ForwardFrame), f.word = parityWord (isEven t.nextCount) → 1 ≤ t.indexRunInSync →
      f.index.toNat ≠ t.nextCount → resyncCondition (t.tested f) = some .index)
  ∧ (∀ (t : Trr) (f : ForwardFrame), f.word = parityWord (isEven t.nextCount) → f.index.toNat = t.nextCount →
      t.history.length ≤ 50 →
      let compared := if t.nextCount = 0 ∧ t.checkEnable = true then t.superCheck.map (fun w => w == f.check) else none
      let wrong := ((t.history ++ compared.toList).drop (t.history.length + compared.toList.length - 50)).count false
      resyncCondition (t.tested f) = if t.checkEnable = true ∧ 45 ≤ wrong then some .check else none)

/-- RETURN_FRAME builds the frame of the next index modulo 20 under the return map in force for it. The header holds
the word of the index's parity, the index, the return flags, in frame 0 the check of the previous superframe, and the
count and cut mark of each payload cell. The control cell carries the oldest filled reply, else the head event, else
nothing; a reply given has left its place, and an event given the queue: the events that stay keep their order, ahead
of those that the channels' cells queue, and with no cell mapped they stay as they were. A FREE cell is idle fill with
count 0; a channel's cell holds its bytes, then idle fill. Of one cell mapped to one channel: a channel without an
item, or whose next body byte is not ready, gives nothing; staged body bytes, and pad bytes after a read error, go out
and enter the body check; at the last byte of an END header the channel is IDLE. A finished segment is counted; it ends
the channel (STOP), builds the END header (RANGE's last segment, 65535), or begins the next one by a look-up, with the
header of R158, ABSENT or not, WAITING, or the END header. A body page read is staged; an error makes the body
READ_ERROR, padded from that page on. -/
def Obligations.ReturnFrame : Prop :=
  (∀ s : State,
    let n := s.trt.nextIndex
    let map := (s.trt.activate n).map
    let flags := (if s.trr.sync = .inSync then 0 else 1) + (if s.ccu.controlOverrun then 2 else 0)
      + (if s.ccu.alarmRetired then 4 else 0) + (if s.stc.ready then 8 else 0)
      + 16 * alarmLevelCode (alarmLevel s.ccu.conditions)
    ∃ (t : State) (f : Machine.ReturnFrame) (entries : List Nat), exec .returnFrame s = .next t ∧ t.trt.frame = some f
      ∧ f.index = n ∧ t.trt.nextIndex = (n + 1) % 20 ∧ t.trt.map = map
      ∧ f.header = be4 (parityWord (isEven n)).toNat ++ be1 n ++ be1 flags
          ++ be2 (if n = 0 then s.trt.superCheck.toNat else 0) ++ entries.flatMap be2 ++ List.replicate 124 0
      ∧ entries.length = 62 ∧ f.header.length = 256 ∧ f.control.length = 256 ∧ f.payload.length = 62
      ∧ (∀ c ∈ f.payload, c.length = 256)
      ∧ (∀ p, 2 ≤ p → p < 64 → map.atD p .free = .free →
          f.payload[p - 2]? = some (List.replicate 256 s.trr.idleFill) ∧ entries[p - 2]? = some 0)
      ∧ (∀ p c, 2 ≤ p → p < 64 → map.atD p .free = .channel c → ∃ (bs : List Byte) (cut : Bool), bs.length ≤ 256
          ∧ f.payload[p - 2]? = some (bs ++ List.replicate (256 - bs.length) s.trr.idleFill)
          ∧ entries[p - 2]? = some (bs.length + if cut then 32768 else 0))
      ∧ t.ccu.replies = s.ccu.replies.tail ∧ t.ccu.reserved = s.ccu.reserved
      ∧ (∀ r rest, s.ccu.replies = r :: rest → f.control = replyCell r)
      ∧ (∀ e rest, s.ccu.replies = [] → s.ccu.events = e :: rest → f.control = eventCell s.trr e)
      ∧ (s.ccu.replies = [] → s.ccu.events = [] → f.control = emptyCell)
      ∧ (let left := if s.ccu.replies = [] then s.ccu.events.tail else s.ccu.events
         left.map (fun e => e.object) <+: t.ccu.events.map (fun e => e.object)
          ∧ ((∀ p, 2 ≤ p → p < 64 → map.atD p .free = .free) → t.ccu.events = left))
      ∧ t.mem = s.mem ∧ t.trr = s.trr ∧ t.sent.filter Instr.isDirective = s.sent.filter Instr.isDirective)
  ∧ (∀ (s : State) (p c : Nat), 2 ≤ p → p < 64 → (s.trt.activate s.trt.nextIndex).map = [(p, .channel c)] →
    (s.channel c).cutDue = false →
    let x := s.channel c
    ∃ t f, exec .returnFrame s = .next t ∧ t.trt.frame = some f
      ∧ ((x.item = none ∨ (x.item = some .body ∧ x.readyBody = [])) →
          f.payload[p - 2]? = some (List.replicate 256 s.trr.idleFill) ∧ t.channel c = x)
      ∧ (∀ bs, x.item = some .body → x.padFrom = none →
          x.place (x.placed / 4096) = .full (x.placed / 4096) bs → bs.length ≤ 4096 →
          x.placed % 4096 + 256 < bs.length → x.placed + 256 < x.bodyLength →
          f.payload[p - 2]? = some ((bs.drop (x.placed % 4096)).take 256)
          ∧ t.channel c = { x with
              placed := x.placed + 256, position := x.position + 256
              bodyCheck := check32From x.bodyCheck ((bs.drop (x.placed % 4096)).take 256) })
      ∧ (∀ from0, x.item = some .body → x.padFrom = some from0 → from0 ≤ x.placed → x.placed % 4096 + 256 < 4096 →
          x.placed + 256 < x.bodyLength →
          f.payload[p - 2]? = some (List.replicate 256 0)
          ∧ t.channel c = { x with
              placed := x.placed + 256, position := x.position + 256
              bodyCheck := check32From x.bodyCheck (List.replicate 256 0) })
      ∧ (x.item = some .ending → x.bytes.length ≤ 256 →
          f.payload[p - 2]? = some (x.bytes ++ List.replicate (256 - x.bytes.length) s.trr.idleFill)
          ∧ (t.channel c).state = .idle ∧ (t.channel c).fetch = none ∧ (t.channel c).current = none
          ∧ (t.channel c).lastEnding = some (if x.stopRequested then .stopped else .ended)
          ∧ ∃ e ∈ t.ccu.events, e.object = .channel c))
  ∧ (∀ (s : State) (c n : Nat) (f : Fetch) (l : Lecture), (s.channel c).fetch = some f →
    (s.channel c).current = some n → s.lecture? f.slot = some l →
    let t := s.finishSegment c
    let x := t.channel c
    x.sent = min 65535 ((s.channel c).sent + 1)
    ∧ ((s.channel c).stopRequested = true → x.state = .idle ∧ x.lastEnding = some .stopped ∧ x.fetch = none)
    ∧ ((s.channel c).stopRequested = false → (n = 65535 ∨ f.mode = .range n) →
        x.state = .sending ∧ x.item = some .ending ∧ x.current = some n
        ∧ x.bytes = endHeader c f l ((s.channel c).lastHeader.getD f.first))
    ∧ ((s.channel c).stopRequested = false → n ≠ 65535 → f.mode ≠ .range n → x.current = some (n + 1)
        ∧ s.begins t c f l ((s.channel c).lastHeader.getD f.first) (n + 1)
        ∧ (s.lookUp f.slot (n + 1) f.rendition l = .notYet → x.state = .waiting ∧ x.item = none)
        ∧ (s.lookUp f.slot (n + 1) f.rendition l = .neverOpened → f.mode = .follow →
            x.state = .sending ∧ x.item = some .ending)))
  ∧ (∀ (s : State) (b c j block page low high : Nat) (errors : List Nat),
    (s.bank b).op = some (.read ⟨.channel c j, block, [page], low, high⟩ true) →
    (s.channel c).place j = .requested j →
    ∃ t, exec (.readEnd b errors) s = .next t
      ∧ (page ∉ errors → page ∉ (s.block block).lost →
          (t.channel c).place j
            = .full j ((s.bankPage block page).take (bodyPageLength (s.channel c).bodyLength j))
          ∧ (t.channel c).outcome = (s.channel c).outcome)
      ∧ (page ∈ errors → (t.channel c).outcome = .readError ∧ ∃ p, (t.channel c).padFrom = some p ∧ p ≤ j * 4096))

/-! ## Stream intake (R50 to R62) -/

/-- A payload cell that is FREE, or whose lecture is VACANT or CLOSED or lacks the role, is discarded. Body bytes of a
unit being appended enter the run's FILLING page buffer in their order: the write position and the body received rise
by their number (while the page and the body have more room). The end of an overrun: a PROGRAM that ends well frees its
page buffer, and a run that alone waits for one (with no relocation, its lecture not CLOSED) is given it. With no
broken unit held the overrun is CLEAR and the record hunts. A broken unit held, reached at the start of a page, is
completed from the point reached where what is left ends within the page: the rest of its header, zeros for its whole
body, the suffix, all committed; its notice goes out BROKEN (GOOD where its GOOD status byte was in the run already:
log 21, DEDUCED, unsafe) and without a received count (log 82, DESIGN CHOICE). Where the page does not hold what is
left and no other buffer is free, the page is filled, the overrun is WAITING again with the unit held, and the run
waits for the next buffer; nothing is reported. An ERASE that ends well with 32 blocks free beside its own gives a run
that waits for a block its next block, and with no broken unit the overrun is CLEAR. That claims are served as the step
ends is log 47 (DESIGN CHOICE). -/
def Obligations.PayloadCell : Prop :=
  (∀ (s : State) (entry : ForwardEntry) (bytes : List Byte),
    (∀ slot r, entry = .role slot r → takesCells (s.lecture? slot) r = false) → s.atRest →
    exec (.payloadCell entry bytes) s = .next (s.received (.payloadCell entry bytes)))
  ∧ (∀ (s : State) (slot : Nat) (r : Role) (bytes : List Byte) (i : Nat) (b : Buf),
    takesCells (s.lecture? slot) r = true → (s.intake slot r).overrun = .clear → (s.intake slot r).parse = .body →
    (s.intake slot r).disposition = .append →
    (s.intake slot r).received + bytes.length < (s.intake slot r).declared →
    s.fillingOf (.run slot r) = some i → s.buf? i = some b → b.owner = .own (.run slot r) → b.state = .filling →
    b.data.length + bytes.length < 4096 →
    b.data.length = (s.intake slot r).writePos % 4096 → s.atRest →
    ∃ t, exec (.payloadCell (.role slot r) bytes) s = .next t
      ∧ t.intake slot r = { s.intake slot r with
          received := (s.intake slot r).received + bytes.length
          writePos := (s.intake slot r).writePos + bytes.length }
      ∧ t.buf? i = some { b with data := b.data ++ bytes }
      ∧ (∀ j, j ≠ i → t.buf? j = s.buf? j)
      ∧ (∀ sl q, roleKey sl q ≠ roleKey slot r → t.intake sl q = s.intake sl q)
      ∧ t.sgc = s.sgc ∧ t.jdp = s.jdp ∧ t.lanes = s.lanes ∧ t.still = s.still)
  ∧ (∀ (s : State) (b : Nat) (p : ProgramReq) (buf : Buf) (slot : Nat) (r : Role) (run : Run),
    (s.bank b).op = some (.program p) → s.buf? p.buffer = some buf →
    s.stc.buffers.within 160 → s.stc.relocations = [] → s.stc.claims = [⟨.run slot r, .buffer⟩] →
    s.run? slot r = some run → s.fillingOf (.run slot r) = none →
    (∀ l, s.lecture? slot = some l → l.state ≠ .closed) →
    let x := s.intake slot r
    (x.broken = none →
      ∃ t, exec (.programEnd b true) s = .next t ∧ t.stc.claims = []
        ∧ t.intake slot r = { x.hunt with overrun := .clear } ∧ t.sent = s.sent)
    ∧ (∀ u, x.broken = some u → u.header.length = 16 → u.start ≤ x.writePos →
      let stop := u.start + 24 + u.declared
      let left := (u.header ++ List.replicate u.declared 0 ++ suffixBytes u.good u.received).drop (x.writePos - u.start)
      x.writePos % 4096 = 0 →
      (0 < left.length → left.length < 4096 →
        ∃ t i c, exec (.programEnd b true) s = .next t ∧ t.stc.claims = [] ∧ t.intake slot r = { x.hunt with
            overrun := .clear, broken := none, writePos := stop, lastStamp := some u.stamp }
          ∧ t.sent = s.sent ++ [.unitNotice ⟨slot, r, u.stamp, u.key, some ⟨u.good, u.start, stop⟩⟩]
          ∧ t.buf? i = some c ∧ c.owner = .own (.run slot r) ∧ c.state = .filling ∧ c.data = left
          ∧ c.committed = left.length)
      ∧ (4096 < left.length → s.stc.buffers.length = 160 →
        x.writePos + 4096 < run.headOffset + run.blocks.length * 262144 →
        ∃ t, exec (.programEnd b true) s = .next t ∧ t.stc.claims = [⟨.run slot r, .buffer⟩]
          ∧ t.intake slot r = { x with overrun := .waiting, writePos := x.writePos + 4096 } ∧ t.sent = s.sent)))
  ∧ (∀ (s : State) (b : Nat) (e : Erase) (slot : Nat) (r : Role) (run : Run), b < 4 → (s.bank b).erase = some e →
    e.state ≠ .suspended → 32 ≤ s.freeBlocks → s.stc.relocations = [] → s.stc.claims = [⟨.run slot r, .block⟩] →
    s.run? slot r = some run → (s.intake slot r).broken = none →
    (s.intake slot r).writePos = run.headOffset + run.blocks.length * 262144 →
    run.lowMark < run.headOffset + 262144 →
    ∃ t g, exec (.eraseEnd b true) s = .next t ∧ t.stc.claims = []
      ∧ t.run? slot r = some { run with blocks := run.blocks ++ [g], lastBank := some (bankOf g) }
      ∧ t.intake slot r = { (s.intake slot r).hunt with overrun := .clear } ∧ t.sent = s.sent)

/-- How the intake parses, appends, breaks and overruns. In HUNT a byte 0x55 just after 0x4C begins the header; in
HEADER bytes join it; the 16th has it tested: a rejected header is hunted over past its marker, nothing sent or
written, and begins anew at the first marker in its other 14 bytes; an accepted one gets its fate by the first test of
R53 that holds: END sends a role-end notice, FILLER nothing, a late MEDIA unit a late-drop report, an excluded one a
notice without offsets and the last noticed stamp; each is skipped (HUNT at once where it has no body); any other
unit's header is appended. The last body byte brings the GOOD suffix, its commit and the unit notice. A loss of sync
breaks a unit being appended (zeros, BROKEN suffix, notice), leaves an overrun and has any other record hunt, a 0x4C
seen before it forgotten (log 23, DEDUCED). A body byte that finds no page buffer free starts an overrun: WAITING, the
broken unit held, the report and INTAKE_OVERRUN; in an overrun bytes are discarded. -/
def Obligations.HeaderFates : Prop :=
  (∀ (s : State) (slot : Nat) (r : Role) (b : Byte), takesCells (s.lecture? slot) r = true → s.atRest →
    let x := s.intake slot r
    let cell : Instr := .payloadCell (.role slot r) [b]
    (x.overrun ≠ .clear → exec cell s = .next (s.received cell))
    ∧ (x.overrun = .clear → x.parse = .hunt →
        (x.seen4C = true → b = 0x55 → exec cell s = .next ((s.received cell).setIntake slot r { x with
          parse := .header, header := [0x4C, 0x55], seen4C := false }))
        ∧ (¬ (x.seen4C = true ∧ b = 0x55) → exec cell s = .next ((s.received cell).setIntake slot r { x with
          seen4C := b == 0x4C })))
    ∧ (x.overrun = .clear → x.parse = .header →
        (x.header.length < 15 → exec cell s = .next ((s.received cell).setIntake slot r { x with
          header := x.header ++ [b] }))
        ∧ (15 ≤ x.header.length → headerAccepted (x.header ++ [b]) = true → exec cell s = .next
            (((s.received cell).setIntake slot r x.hunt).unitFate slot r (x.header ++ [b])).serveClaims)
        ∧ (15 ≤ x.header.length → headerAccepted (x.header ++ [b]) = false →
            let again := rehunt ((x.header ++ [b]).drop 2)
            exec cell s = .next ((s.received cell).setIntake slot r { x.hunt with
              parse := if again.1 = [] then .hunt else .header, header := again.1, seen4C := again.2 })))
    ∧ (∀ i buf start, x.overrun = .clear → x.parse = .body → x.disposition = .append → x.received + 1 = x.declared →
        x.unitStart = some start → s.fillingOf (.run slot r) = some i → s.buf? i = some buf →
        buf.owner = .own (.run slot r) → buf.state = .filling → buf.data.length + 9 < 4096 →
        buf.data.length = x.writePos % 4096 →
        ∃ t, exec cell s = .next t
          ∧ t.sent = s.sent.erase cell ++ [.unitNotice ⟨slot, r, headerStamp x.header, headerKey r x.header,
              some ⟨true, start, x.writePos + 9⟩⟩]
          ∧ t.buf? i = some { buf with
              data := buf.data ++ b :: suffixBytes true x.declared, committed := buf.data.length + 9 }
          ∧ (t.intake slot r).parse = .hunt ∧ (t.intake slot r).writePos = x.writePos + 9
          ∧ (t.intake slot r).lastStamp = some (headerStamp x.header))
    ∧ (∀ run start, x.overrun = .clear → x.parse = .body → x.disposition = .append → x.unitStart = some start →
        s.fillingOf (.run slot r) = none → s.run? slot r = some run → s.freeBuffers = 0 →
        x.writePos < run.headOffset + run.blocks.length * 262144 →
        ∃ t, exec cell s = .next t ∧ (t.intake slot r).overrun = .waiting ∧ (t.intake slot r).parse = .hunt
          ∧ (t.intake slot r).broken = some ⟨false, start, x.header, headerStamp x.header, headerKey r x.header,
              x.declared, x.received⟩
          ∧ (⟨.run slot r, .buffer⟩ : Claim) ∈ t.stc.claims ∧ .overrunReport slot ∈ t.sent
          ∧ t.condition .intakeOverrun = true))
  ∧ (∀ bytes : List Byte,
    (∀ before after, bytes = before ++ 0x4C :: 0x55 :: after → (∀ p q, before ≠ p ++ 0x4C :: 0x55 :: q) →
      rehunt bytes = (0x4C :: 0x55 :: after, false))
    ∧ ((∀ p q, bytes ≠ p ++ 0x4C :: 0x55 :: q) → rehunt bytes = ([], bytes.getLast? == some 0x4C)))
  ∧ (∀ (s : State) (slot : Nat) (r : Role) (h : List Byte),
    let late := lateUnit ((s.lecture? slot).bind (fun l => (l.parts.get r).floorStamp)) (s.intake slot r).lastStamp
      (headerStamp h)
    let out := excluded (s.discard slot) r (headerKey r h)
    let t := s.unitFate slot r h
    let x := t.intake slot r
    (headerKind h = 2 → t.sent = s.sent ++ [.roleEndNotice slot r])
    ∧ (headerKind h = 3 → t.sent = s.sent)
    ∧ (headerKind h = 1 → late = true → t.sent = s.sent ++ [.lateDropReport slot r (headerStamp h)])
    ∧ (headerKind h = 1 → late = false → out = true →
        t.sent = s.sent ++ [.unitNotice ⟨slot, r, headerStamp h, headerKey r h, none⟩]
        ∧ x.lastStamp = some (headerStamp h))
    ∧ ((headerKind h = 2 ∨ headerKind h = 3 ∨ (headerKind h = 1 ∧ (late = true ∨ out = true))) →
        x.parse = (if headerLength h = 0 then .hunt else .body)
        ∧ (headerLength h ≠ 0 → x.disposition = .skip ∧ x.declared = headerLength h ∧ x.received = 0)
        ∧ x.unitStart = none ∧ x.writePos = (s.intake slot r).writePos
        ∧ (¬ (headerKind h = 1 ∧ late = false) → x.lastStamp = (s.intake slot r).lastStamp) ∧ t.stc = s.stc)
    ∧ (∀ i buf, headerKind h = 1 → late = false → out = false → h.length = 16 → headerLength h ≠ 0 →
        s.fillingOf (.run slot r) = some i → s.buf? i = some buf → buf.owner = .own (.run slot r) →
        buf.state = .filling → buf.data.length + 16 < 4096 →
        buf.data.length = (s.intake slot r).writePos % 4096 →
        t.sent = s.sent ∧ t.buf? i = some { buf with data := buf.data ++ h }
        ∧ x = { s.intake slot r with
            parse := .body, header := h, disposition := .append, declared := headerLength h, received := 0
            unitStart := some (s.intake slot r).writePos, writePos := (s.intake slot r).writePos + 16 }))
  ∧ (∀ (s : State) (slot : Nat) (r : Role),
    let x := s.intake slot r
    (x.overrun ≠ .clear → s.lossRecord slot r = s)
    ∧ (x.overrun = .clear → ¬ (x.parse = .body ∧ x.disposition = .append) →
        s.lossRecord slot r = s.setIntake slot r { x with
          parse := .hunt, seen4C := false, header := [], unitStart := none })
    ∧ (∀ i buf start, x.overrun = .clear → x.parse = .body → x.disposition = .append → x.unitStart = some start →
        x.received ≤ x.declared → x.writePos = start + 16 + x.received →
        s.fillingOf (.run slot r) = some i → s.buf? i = some buf → buf.owner = .own (.run slot r) →
        buf.state = .filling → buf.data.length + (x.declared - x.received) + 8 < 4096 →
        buf.data.length = x.writePos % 4096 →
        let t := s.lossRecord slot r
        let stop := start + 24 + x.declared
        t.sent = s.sent ++ [.unitNotice ⟨slot, r, headerStamp x.header, headerKey r x.header, some ⟨false, start, stop⟩⟩]
        ∧ (t.intake slot r).parse = .hunt ∧ (t.intake slot r).writePos = stop ∧ (t.intake slot r).broken = none
        ∧ t.buf? i = some { buf with
            data := buf.data ++ (List.replicate (x.declared - x.received) 0 ++ suffixBytes false x.received)
            committed := buf.data.length + (x.declared - x.received) + 8 }))

/-! ## Profiles (R65 to R69) -/

/-- PROFILE_SET of a profile that no lecture names: WRITE with fields in range makes the record valid with the body's
values, CLEAR makes it invalid, and nothing else changes but the reply DONE. A profile in use is refused IN_USE, an
operation that is neither is refused RANGE. -/
def Obligations.ProfileSet : Prop :=
  ∀ (s : State) (tag : Word16) (n kind roles bound : Byte) (limit label : Word16), n.toNat < 16 →
    (∀ k, s.profileUsers n.toNat = 0 → profileKindOf kind = some k → rolesFit k (rolesOfByte roles) = true →
      1 ≤ bound.toNat → bound.toNat ≤ 64 → 20 ≤ limit.toNat → limit.toNat ≤ 2000 →
      s.accepts (.profileSetWrite tag n 1 kind roles bound limit label) →
      exec (.profileSetWrite tag n 1 kind roles bound limit label) s
        = .next { s.answered 0x20 tag .done [] with
            sgc := { s.sgc with
              profiles := s.sgc.profiles.put n.toNat ⟨k, rolesOfByte roles, bound.toNat, limit.toNat, label⟩ } })
    ∧ (s.profileUsers n.toNat = 0 → s.accepts (.profileSetClear tag n) →
      exec (.profileSetClear tag n) s
        = .next { s.answered 0x20 tag .done [] with
            sgc := { s.sgc with profiles := s.sgc.profiles.del n.toNat } })
    ∧ (0 < s.profileUsers n.toNat →
      (s.accepts (.profileSetWrite tag n 1 kind roles bound limit label) →
        exec (.profileSetWrite tag n 1 kind roles bound limit label) s = .next (s.answered 0x20 tag .inUse []))
      ∧ (s.accepts (.profileSetClear tag n) →
        exec (.profileSetClear tag n) s = .next (s.answered 0x20 tag .inUse [])))
    ∧ (∀ operation, operation ≠ 0 → operation ≠ 1 →
      s.accepts (.profileSetWrite tag n operation kind roles bound limit label) →
      exec (.profileSetWrite tag n operation kind roles bound limit label) s
        = .next (s.answered 0x20 tag .range []))

/-! ## Lectures (R1 to R21) -/

/-- LECTURE_LOAD that passes every check fills the record, opens an empty run and a fresh intake record for each present
role, and replies DONE; every other slot stays. A slot that is not VACANT is refused STATE, a lecture number in use
IN_USE. The gap timers in ticks are log 8, the part of a role that is not present log 69 (both DESIGN CHOICE). -/
def Obligations.LectureLoad : Prop :=
  ∀ (s : State) (tag : Word16) (b : LoadBody), b.slot.toNat < 32 → 1 ≤ b.count.toNat → b.count.toNat ≤ 4 →
    let c : Instr := .lectureLoad tag b.slot b.number b.course b.cls b.roles b.segLength b.skew b.gap b.count b.p0 b.p1
      b.p2 b.p3
    s.accepts c →
    (∀ cls, s.lecture? b.slot.toNat = none → (∀ e ∈ s.sgc.lectures, e.2.number ≠ b.number) →
      classOf b.cls = some cls → b.limitsOk = true → b.profiles.all (s.profileFits (rolesOfByte b.roles)) = true →
      b.profiles.Nodup →
      ∃ t, exec c s = .next t ∧ t.lecture? b.slot.toNat = some (loadedLecture b cls)
        ∧ (∀ m, m ≠ b.slot.toNat → t.lecture? m = s.lecture? m)
        ∧ (∀ r, (rolesOfByte b.roles).get r = true →
            t.run? b.slot.toNat r = some ⟨[], 0, none, 0, false⟩ ∧ t.intake b.slot.toNat r = IntakeRec.reset)
        ∧ t.discard b.slot.toNat = .off ∧ t.sgc.catalogue = s.sgc.catalogue ∧ t.jdp = s.jdp ∧ t.lanes = s.lanes
        ∧ t.still = (s.answered 0x30 tag .done []).still)
    ∧ (s.lecture? b.slot.toNat ≠ none → exec c s = .next (s.answered 0x30 tag .state []))
    ∧ (s.lecture? b.slot.toNat = none → (∃ e ∈ s.sgc.lectures, e.2.number = b.number) →
        exec c s = .next (s.answered 0x30 tag .inUse []))

/-- LECTURE_CLOSE: a LOADED lecture becomes CLOSED, a RUNNING one ENDING, a STALLED one ENDING or, with an empty
window, CLOSED, every gap timer stopped, the reply DONE; in another state it is refused STATE. In RUNNING the OPEN
segment is ended at its current end and sealed (of a role that ended earlier, log 64, DESIGN CHOICE), a forced cut is
disarmed, the candidate lists are emptied and a stretch discard ends. Where the lecture becomes CLOSED its channels are
notified, and each role (with no broken unit held, no claim waiting, no relocation, and no unit in progress in another
role) hunts with its overrun CLEAR and its run closed: the FILLING buffer is padded with 0xFF to the end of its page
and committed, PENDING or already being programmed, and an OPEN tail block is SEALED. A unit in progress that fits its
page is broken first: zeros for the rest of its body, the BROKEN suffix, and its notice. -/
def Obligations.LectureClose : Prop :=
  ∀ (s : State) (tag : Word16) (slot : Byte), slot.toNat < 32 → s.accepts (.lectureClose tag slot) →
    (∀ l, s.lecture? slot.toNat = some l → (l.state = .loaded ∨ (l.state = .stalled ∧ l.window = [])) →
      ∃ t, exec (.lectureClose tag slot) s = .next t
        ∧ t.lecture? slot.toNat = some { l.stopGaps with state := .closed }
        ∧ t.still = (s.answered 0x32 tag .done []).still ∧ .channelWake slot.toNat ∈ t.sent
        ∧ (∀ r ∈ l.roles, ∀ y, s.run? slot.toNat r = some y → s.stc.claims = [] → s.stc.relocations = [] →
            s.stc.buffers.sorted → (s.intake slot.toNat r).broken = none →
            (∀ q ∈ l.roles, q ≠ r →
              (s.intake slot.toNat q).parse ≠ .body ∨ (s.intake slot.toNat q).disposition ≠ .append) →
            let x := s.intake slot.toNat r
            ((x.parse ≠ .body ∨ x.disposition ≠ .append) → t.run? slot.toNat r = some { y with closed := true }
              ∧ t.intake slot.toNat r = { x.hunt with overrun := .clear }
              ∧ (∀ g, y.blocks.getLast? = some g → (t.block g).state
                  = if (s.block g).state = .opened then .sealed else (s.block g).state)
              ∧ (∀ i c, s.fillingOf (.run slot.toNat r) = some i → s.buf? i = some c → c.data.length ≤ 4096 →
                  (∀ b, (s.bank b).dropPrograms (fun p => p.buffer == i) = s.bank b) → t.tailClosed i c c.data))
            ∧ (∀ start i c, x.parse = .body → x.disposition = .append → x.overrun = .clear → x.unitStart = some start →
                x.received ≤ x.declared → x.writePos = start + 16 + x.received →
                s.fillingOf (.run slot.toNat r) = some i → s.buf? i = some c → c.data.length = x.writePos % 4096 →
                c.data.length + (x.declared - x.received) + 8 < 4096 →
                (∀ b, (s.bank b).dropPrograms (fun p => p.buffer == i) = s.bank b) →
                t.run? slot.toNat r = some { y with closed := true }
                ∧ t.intake slot.toNat r = { x.hunt with
                    writePos := start + 24 + x.declared, lastStamp := some (headerStamp x.header) }
                ∧ .unitNotice ⟨slot.toNat, r, headerStamp x.header, headerKey r x.header,
                    some ⟨false, start, start + 24 + x.declared⟩⟩ ∈ t.sent
                ∧ t.tailClosed i c
                    (c.data ++ List.replicate (x.declared - x.received) 0 ++ suffixBytes false x.received))))
    ∧ (∀ l, s.lecture? slot.toNat = some l → l.state = .stalled → l.window ≠ [] →
      ∃ t, exec (.lectureClose tag slot) s = .next t
        ∧ t.lecture? slot.toNat = some { l.stopGaps with state := .ending }
        ∧ t.still = (s.answered 0x32 tag .done []).still)
    ∧ (∀ l g, s.lecture? slot.toNat = some l → l.state = .running → l.openSegment = some g →
      ∃ t k, exec (.lectureClose tag slot) s = .next t ∧ t.lecture? slot.toNat = some k ∧ k.state = .ending
        ∧ (∀ r, (k.parts.get r).gapRunning = false) ∧ t.still = (s.answered 0x32 tag .done []).still
        ∧ k.cutCleared ∧ k.window.map Segment.number = l.window.map Segment.number
        ∧ (g.cutStamp = none → (∀ q, (g.ranges.get q).skewEnded = false) → ∃ h ∈ k.window, l.sealsOpen g h))
    ∧ ((∀ l, s.lecture? slot.toNat = some l → l.state = .ending ∨ l.state = .closed) →
      exec (.lectureClose tag slot) s = .next (s.answered 0x32 tag .state []))

/-- LECTURE_ABORT: a lecture that is not CLOSED becomes CLOSED with ABORTED, its timers stopped, its window and its
candidate lists empty, its waiting segments gone from the admission lists, its published entries kept; the reply is
DONE. A CLOSED or VACANT one is refused STATE. The owners are asked: a QUEUED job of the slot leaves its list and is
freed, for a RUNNING one its lane is sent a discard request, the record as it was. No request goes to the DLU (R19);
its channels are notified, as at every change to CLOSED (R152). With no lane IDLE, no claim waiting and no relocation,
every extent of the slot that is not PUBLISHED is freed, the PUBLISHED ones and those of other slots stay, its runs are
gone, the blocks of both are given up and their page buffers free or, in PROGRAMMING, discarded; every role's intake
hunts with nothing in flight; JOB_FAILED stays as it was. -/
def Obligations.LectureAbort : Prop :=
  ∀ (s : State) (tag : Word16) (slot : Byte), slot.toNat < 32 → s.accepts (.lectureAbort tag slot) →
    (∀ l, s.lecture? slot.toNat = some l → l.state ≠ .closed →
      ∃ t, exec (.lectureAbort tag slot) s = .next t
        ∧ t.lecture? slot.toNat = some { l.stopGaps.clearLists with
            state := .closed, aborted := true, window := [], forcedCut := false, stretch := .off }
        ∧ t.sgc.catalogue = s.sgc.catalogue
        ∧ t.sgc.liveAdmission = s.sgc.liveAdmission.filter (fun e => e.1 != slot.toNat)
        ∧ t.sgc.backlogAdmission = s.sgc.backlogAdmission.filter (fun e => e.1 != slot.toNat)
        ∧ (∀ m, m ≠ slot.toNat → t.lecture? m = s.lecture? m)
        ∧ t.still = (s.answered 0x33 tag .done []).still
        ∧ .channelWake slot.toNat ∈ t.sent
        ∧ (∀ k j, s.job? k = some j → j.slot = slot.toNat →
            (j.lane = none → t.job? k = none ∧ k ∉ t.jdp.live ∧ k ∉ t.jdp.backlog)
            ∧ (∀ n, j.lane = some n → s.jdp.jobs.sorted → k ∉ s.jdp.live → k ∉ s.jdp.backlog →
                t.job? k = some j ∧ .discardRequest n k ∈ t.sent))
        ∧ (s.anyIdle = false → s.stc.claims = [] → s.stc.relocations = [] →
            (∀ n x, s.extent? n = some x →
              (x.slot = slot.toNat → x.state ≠ .published →
                t.extent? n = none ∧ ∀ g ∈ x.blocks, (s.block g).state ≠ .bad →
                  (∀ b, b ≠ bankOf g → g ∉ (s.bank b).eraseQueue) → t.gaveUp g)
              ∧ (x.slot ≠ slot.toNat ∨ x.state = .published → t.extent? n = some x))
            ∧ (∀ r ∈ l.roles, t.run? slot.toNat r = none
                ∧ (∀ x, s.run? slot.toNat r = some x → ∀ g ∈ x.blocks, (s.block g).state ≠ .bad →
                    (∀ b, b ≠ bankOf g → g ∉ (s.bank b).eraseQueue) → t.gaveUp g)
                ∧ t.intake slot.toNat r = { (s.intake slot.toNat r).hunt with overrun := .clear, broken := none })
            ∧ (∀ i b, t.buf? i = some b →
                ((∃ r ∈ l.roles, b.owner = .own (.run slot.toNat r) ∧ (s.run? slot.toNat r).isSome)
                  ∨ (∃ n x, s.extent? n = some x ∧ x.slot = slot.toNat ∧ x.state ≠ .published
                      ∧ b.owner = .own (.extent n))) →
                b.state = .programming ∧ b.discarded = true)
            ∧ t.discard slot.toNat = .off ∧ t.condition .jobFailed = s.condition .jobFailed))
    ∧ ((∀ l, s.lecture? slot.toNat = some l → l.state = .closed) →
      exec (.lectureAbort tag slot) s = .next (s.answered 0x33 tag .state []))

/-- LECTURE_RELEASE and LECTURE_ARCHIVE of a slot that is not VACANT, with no lecture waiting for entries: the entries
named leave the catalogue and are counted in the reply, whose order and widths are the model's (log 18, DESIGN
CHOICE); an archived record is VACANT. A lecture that a channel is on is refused IN_USE. -/
def Obligations.ReleaseAndArchive : Prop :=
  ∀ (s : State) (tag : Word16) (slot : Byte) (n : Word16) (l : Lecture), slot.toNat < 32 →
    s.lecture? slot.toNat = some l →
    (s.accepts (.lectureRelease tag slot n) →
      (s.channelOn slot.toNat (fun k => decide (k ≤ n.toNat)) = true →
        exec (.lectureRelease tag slot n) s = .next (s.answered 0x34 tag .inUse []))
      ∧ (s.channelOn slot.toNat (fun k => decide (k ≤ n.toNat)) = false → s.sgc.waiting = [] →
        let gone := s.sgc.catalogue.filter (fun e => e.slot == slot.toNat && decide (e.segment ≤ n.toNat))
        let left := s.sgc.catalogue.filter (fun e => !(e.slot == slot.toNat && decide (e.segment ≤ n.toNat)))
        ∃ t, exec (.lectureRelease tag slot n) s = .next t ∧ t.sgc.catalogue = left
          ∧ t.lecture? slot.toNat = some { l with published := l.published - segmentCount gone }
          ∧ t.still = (s.answered 0x34 tag .done
              (be2 (segmentCount gone) ++ be2 gone.length ++ be2 (4096 - left.length))).still))
    ∧ (s.accepts (.lectureArchive tag slot) →
      (l.state ≠ .closed → exec (.lectureArchive tag slot) s = .next (s.answered 0x35 tag .state []))
      ∧ (l.state = .closed → s.channelOn slot.toNat (fun _ => true) = true →
        exec (.lectureArchive tag slot) s = .next (s.answered 0x35 tag .inUse []))
      ∧ (l.state = .closed → s.channelOn slot.toNat (fun _ => true) = false → s.sgc.waiting = [] →
        let left := s.sgc.catalogue.filter (fun e => !(e.slot == slot.toNat))
        ∃ t, exec (.lectureArchive tag slot) s = .next t ∧ t.sgc.catalogue = left ∧ t.lecture? slot.toNat = none
          ∧ (∀ m, m ≠ slot.toNat → t.lecture? m = s.lecture? m)
          ∧ t.still = (s.answered 0x35 tag .done
              (be2 (s.sgc.catalogue.filter (fun e => e.slot == slot.toNat)).length ++ be2 (4096 - left.length))).still))

/-- A gap timer that runs out makes its role silent and stands STOPPED. Where it was the lead's, the live role of
highest rank (CAMERA, SCREEN, VOICE) becomes the lead, the candidate lists are emptied, a forced cut stays armed, a
LECTURE event is pending, and in KEY_ONLY the IKU is told the new lead (the last two with the store at rest); with none
live the lead stays, as it does while it is live itself. In RUNNING, with no live role left and a role not ended, the
lecture stalls: every present role of the OPEN segment ends at its current end (its noticed end, with the stamp of its
last unit; a role without a start begins and ends there without stamps), the segment is sealed, a forced cut is
disarmed, the candidate lists are emptied and a stretch discard ends. The skew timer of a CUTTING segment runs out:
each role still PENDING in it takes B as its floor stamp and ends at its current end, SHORT with a unit in its range
and EMPTY without, and the segment is sealed. Sealing fixes the statuses, the end stamp (B, or the latest end stamp of
the roles), the duration (0 to four segment lengths) and the chunk count; the segment is SEALED, or WORKING where it is
admitted at once. That a role that ended earlier takes its noticed end with the stamp of the last unit filed before its
end is log 64 (DESIGN CHOICE, unsafe). -/
def Obligations.LectureTimers : Prop :=
  (∀ (s : State) (slot : Nat) (r : Role) (l : Lecture), s.lecture? slot = some l →
    (l.parts.get r).gapRunning = true →
    ∃ t k, exec (.gapTimerExpiry slot r) s = .next t ∧ t.lecture? slot = some k
      ∧ (k.parts.get r).silent = true ∧ (k.parts.get r).gapRunning = false
      ∧ (∀ q, q ≠ r → (k.parts.get q).silent = (l.parts.get q).silent ∧ (k.parts.get q).ended = (l.parts.get q).ended)
      ∧ (l.state = .running → (∀ q, q ≠ r → l.live q = false) → (∃ q ∈ l.roles, (l.parts.get q).ended = false) →
          k.state = .stalled
          ∧ (∀ g, l.openSegment = some g → k.cutCleared
              ∧ (g.cutStamp = none → (∀ q, (g.ranges.get q).skewEnded = false) → ∃ h ∈ k.window, l.sealsOpen g h)))
      ∧ ((l.state = .loaded ∨ l.state = .running ∨ l.state = .stalled) → r = l.lead →
          (∀ q, [Role.camera, .screen, .voice].find? (fun p => p != r && l.live p) = some q →
            k.lead = q ∧ k.state = l.state ∧ (∀ p, (k.parts.get p).candidates = []) ∧ k.window = l.window
            ∧ k.forcedCut = l.forcedCut ∧ k.stretch = l.stretch
            ∧ (s.atRest → (∃ e ∈ t.ccu.events, e.object = .lecture slot)
                ∧ (l.stretch = .keyOnly → t.discard slot = .keyOnly q false)))
          ∧ ((∀ q, q ≠ r → l.live q = false) → k.lead = r))
      ∧ (r ≠ l.lead → l.live l.lead = true → k.lead = l.lead ∧ ∀ p, (k.parts.get p).candidates = (l.parts.get p).candidates)
      ∧ (l.state ≠ .running → k.state = l.state))
  ∧ (∀ (s : State) (slot : Nat) (l : Lecture) (g : Segment), s.lecture? slot = some l → l.cuttingSegment = some g →
    g.skewRunning = true →
    ∃ t k, exec (.skewTimerExpiry slot) s = .next t ∧ t.lecture? slot = some k ∧ k.state = l.state
      ∧ (∀ r, (l.parts.get r).present = true → (g.ranges.get r).cut = .pending →
          (k.parts.get r).floorStamp = g.cutStamp)
      ∧ (∀ r, ((l.parts.get r).present = false ∨ (g.ranges.get r).cut ≠ .pending) →
          (k.parts.get r).floorStamp = (l.parts.get r).floorStamp)
      ∧ (∀ b, g.cutStamp = some b → (∀ q, (g.ranges.get q).skewEnded = false) →
          ∃ h ∈ k.window, h.number = g.number ∧ (h.state = .sealed ∨ h.state = .working)
            ∧ (∀ q ∈ l.roles,
                let x := g.ranges.get q
                let y := h.ranges.get q
                let stop := (l.parts.get q).noticedEnd
                (x.cut = .pending → y.cut = .ended ∧ y.endOffset = some stop
                  ∧ (∀ start, x.startOffset = some start → y.startOffset = some start ∧ y.endStamp = x.lastUnit
                      ∧ y.status = (if start = stop then .empty else .short))
                  ∧ (x.startOffset = none → y.startOffset = some stop ∧ y.endStamp = none ∧ y.status = .empty))
                ∧ (x.cut ≠ .pending → y = { x with status := if x.startOffset = x.endOffset then .empty else .normal }))
            ∧ h.endStamp = some b
            ∧ (∀ a, g.leadStart = some a →
                h.duration = if stampLater b a then min (b - a).toNat (4 * (l.segLength * 1000)) else 0)
            ∧ (g.leadStart = none → h.duration = 0)
            ∧ h.chunkCount = max 1 ((h.duration + 999) / 1000)))

/-- The first KEY unit of the lead in LOADED starts the lecture: RUNNING, the base stamp is the unit's, and segment 0
opens with the lead starting at that unit and its target one segment length on. In STALLED a unit of any role resumes
it, with room in the window and segments left to open (with no room, log 52): RUNNING, the unit's role live, and the
lead where no other role is live; the next segment opens with nothing started, and the unit is tried as the lead's
start: KEY it starts the lead, not KEY it leaves LEAD_WAIT; a unit of another role starts nothing. -/
def Obligations.UnitNoticeStartsLecture : Prop :=
  (∀ (s : State) (slot : Nat) (r : Role) (stamp : Stamp) (p : UnitPlace) (l : Lecture),
    s.lecture? slot = some l → l.state = .loaded → l.lead = r → (l.parts.get r).present = true →
    (l.parts.get r).ended = false → l.window = [] → l.nextSegment = 0 →
    ∃ t k g, exec (.unitNotice ⟨slot, r, stamp, true, some p⟩) s = .next t ∧ t.lecture? slot = some k
      ∧ k.state = .running ∧ k.base = some stamp ∧ k.nextSegment = 1 ∧ k.lead = r ∧ k.window = [g]
      ∧ g.number = 0 ∧ g.state = .opened ∧ g.leadStart = some stamp
      ∧ g.target = some (targetStamp stamp stamp (1000 * l.segLength))
      ∧ g.ranges.get r = ⟨some p.start, some stamp, none, none, .pending, .normal, some stamp, false⟩
      ∧ g.renditions = l.profiles.map (fun _ => .pending)
      ∧ (k.parts.get r).lastStamp = some stamp ∧ (k.parts.get r).noticedEnd = p.stop
      ∧ (∀ m, m ≠ slot → t.lecture? m = s.lecture? m) ∧ t.sgc.catalogue = s.sgc.catalogue)
  ∧ (∀ (s : State) (slot : Nat) (r : Role) (stamp : Stamp) (key : Bool) (p : UnitPlace) (l : Lecture),
    s.lecture? slot = some l → l.state = .stalled → (l.parts.get r).present = true → (l.parts.get r).ended = false →
    l.endMark = false → l.window.length < 8 → l.openSegment = none → l.cuttingSegment = none →
    (∀ h ∈ l.window, h.number ≠ l.nextSegment) →
    ∃ t k g, exec (.unitNotice ⟨slot, r, stamp, key, some p⟩) s = .next t ∧ t.lecture? slot = some k
      ∧ k.state = .running ∧ k.window = l.window ++ [g] ∧ k.nextSegment = min 65535 (l.nextSegment + 1)
      ∧ k.base = l.base ∧ (k.parts.get r).silent = false
      ∧ (k.parts.get r).lastStamp = some stamp ∧ (k.parts.get r).noticedEnd = p.stop
      ∧ g.number = l.nextSegment ∧ g.state = .opened ∧ g.renditions = l.profiles.map (fun _ => .pending)
      ∧ ((r = l.lead ∨ ∀ q, q ≠ r → l.live q = false) → k.lead = r
          ∧ (key = true → g.leadStart = some stamp ∧ g.leadWait = false
              ∧ g.target = l.base.map (fun b => targetStamp b stamp (1000 * l.segLength))
              ∧ g.ranges = (PerRole.all RoleRange.fresh).set r
                  ⟨some p.start, some stamp, none, none, .pending, .normal, some stamp, false⟩)
          ∧ (key = false → g.leadStart = none ∧ g.target = none ∧ g.leadWait = true
              ∧ g.ranges = PerRole.all RoleRange.fresh))
      ∧ (r ≠ l.lead → l.live l.lead = true → k.lead = l.lead ∧ g.leadStart = none ∧ g.target = none
          ∧ g.leadWait = false ∧ g.ranges = PerRole.all RoleRange.fresh)
      ∧ (∀ m, m ≠ slot → t.lecture? m = s.lecture? m) ∧ t.sgc.catalogue = s.sgc.catalogue)

/-- A unit of a role whose start in the OPEN segment is known. One of another role than the lead joins the role's
candidate list when it is GOOD and at or beyond the target, while the list holds fewer than 256 entries; at the 257th a
forced cut is armed. One of the lead that is KEY and at or beyond the target, and any of the lead while a forced cut is
armed, takes the lead cut when the window has room and nothing is CUTTING: the segment is cut at the unit; a role that
has ended or has no start ends at its noticed end, another is cut at the first of its candidates at or beyond the unit,
or left PENDING; with one PENDING the segment is CUTTING and its skew timer starts, with none it is sealed; the next
segment opens with the unit as its start, and with the cut units of the roles cut from their lists (log 46, DEDUCED);
the forced cut is disarmed and noted on the segment, the lists are emptied, a stretch discard ends. At the cut of
segment 65535, which needs no room, the lecture is ENDING instead, its gap timers stopped, and no segment opens. A unit
of the lead that does not cut lies in the segment; where only a full window or a CUTTING segment held the cut back, the
segment is POSTPONED; at four segment lengths from its start, with no stretch discard in force (one in force is not
started again: log 26, DEDUCED), the segment is DAMAGED, the forced cut disarmed, the lists emptied, and a stretch
discard starts, of all units, or of all but the lead's KEY one where a cut is possible at once (the IKU is told: with
the store at rest). A unit of a role that is PENDING in the CUTTING segment, in RUNNING or ENDING: GOOD and at or
beyond B it is the role's cut, and with no role PENDING the segment is sealed (Lecture.settles); it starts the role in
the OPEN segment where its stamp has reached that segment's start; BROKEN or earlier than B it lies in the CUTTING
segment and nothing else of the window changes. -/
def Obligations.UnitNoticeFiled : Prop :=
  (∀ (s : State) (slot : Nat) (r : Role) (stamp : Stamp) (p : UnitPlace) (l : Lecture) (g : Segment) (target : Stamp),
    s.lecture? slot = some l → l.state = .running → l.live l.lead = true → l.window = [g] → g.state = .opened →
    g.target = some target → (g.ranges.get r).startOffset ≠ none → (l.parts.get r).present = true →
    (l.parts.get r).ended = false →
    (∀ key, r ≠ l.lead → p.good = true → stampFrom stamp target = true → (l.parts.get r).candidates.length < 256 →
      ∃ t k, exec (.unitNotice ⟨slot, r, stamp, key, some p⟩) s = .next t ∧ t.lecture? slot = some k
        ∧ (k.parts.get r).candidates = (l.parts.get r).candidates ++ [⟨stamp, p.start⟩]
        ∧ k.forcedCut = l.forcedCut ∧ k.window.length = 1)
    ∧ (∀ key, r ≠ l.lead → p.good = true → stampFrom stamp target = true →
      256 ≤ (l.parts.get r).candidates.length →
      ∃ t k, exec (.unitNotice ⟨slot, r, stamp, key, some p⟩) s = .next t ∧ t.lecture? slot = some k
        ∧ (k.parts.get r).candidates = (l.parts.get r).candidates ∧ k.forcedCut = true)
    ∧ (r = l.lead → l.roles = [r] → stampFrom stamp target = true → g.number < 65535 →
      ∃ t k a b, exec (.unitNotice ⟨slot, r, stamp, true, some p⟩) s = .next t ∧ t.lecture? slot = some k
        ∧ k.window = [a, b] ∧ k.state = .running
        ∧ a.number = g.number ∧ a.cutRole = some r ∧ a.cutStamp = some stamp ∧ a.endStamp = some stamp
        ∧ (a.ranges.get r).endOffset = some p.start ∧ (a.ranges.get r).endStamp = some stamp
        ∧ (a.ranges.get r).cut = .cut ∧ a.forcedCut = (g.forcedCut || l.forcedCut)
        ∧ b.number = l.nextSegment ∧ b.state = .opened ∧ b.leadStart = some stamp
        ∧ (b.ranges.get r).startOffset = some p.start ∧ (b.ranges.get r).startStamp = some stamp
        ∧ k.forcedCut = false ∧ (∀ q, (k.parts.get q).candidates = []) ∧ k.stretch = .off))
  ∧ (∀ (s : State) (slot : Nat) (stamp : Stamp) (key : Bool) (p : UnitPlace) (l : Lecture) (g : Segment),
    s.lecture? slot = some l → l.state = .running → l.live l.lead = true → l.openSegment = some g →
    (∀ h ∈ l.window, h.number = g.number → h = g) → (g.ranges.get l.lead).startOffset ≠ none →
    let due := l.forcedCut || (key && g.target.any (fun t => stampFrom stamp t))
    let room := decide (l.window.length < 8) || g.number == 65535
    let limit := l.stretch = .off ∧ ∃ start, g.leadStart = some start
      ∧ stampFrom stamp (start + BitVec.ofNat 32 (4 * (1000 * l.segLength))) = true
    (due = true → l.window.length < 8 → l.cuttingSegment = none → g.number < 65535 →
      (∀ h ∈ l.window, h.number ≠ l.nextSegment) → (∀ q, (g.ranges.get q).cut = .pending) →
      ∃ t k a b, exec (.unitNotice ⟨slot, l.lead, stamp, key, some p⟩) s = .next t ∧ t.lecture? slot = some k
        ∧ k.state = .running ∧ k.lead = l.lead ∧ k.nextSegment = min 65535 (l.nextSegment + 1)
        ∧ k.window.map Segment.number = l.window.map Segment.number ++ [l.nextSegment]
        ∧ a ∈ k.window ∧ l.leadCuts stamp p.start g a ∧ b ∈ k.window ∧ l.opensAtCut stamp p.start a b ∧ k.cutCleared)
    ∧ (due = true → l.cuttingSegment = none → g.number = 65535 → (∀ q, (g.ranges.get q).cut = .pending) →
      ∃ t k a, exec (.unitNotice ⟨slot, l.lead, stamp, key, some p⟩) s = .next t ∧ t.lecture? slot = some k
        ∧ k.state = .ending ∧ k.lead = l.lead ∧ k.nextSegment = l.nextSegment
        ∧ (∀ q, (k.parts.get q).gapRunning = false)
        ∧ k.window.map Segment.number = l.window.map Segment.number ∧ a ∈ k.window ∧ l.leadCuts stamp p.start g a
        ∧ k.cutCleared)
    ∧ ((∀ c, l.cuttingSegment = some c → (c.ranges.get l.lead).cut ≠ .pending) →
      (due && room && l.cuttingSegment.isNone) = false →
      ∃ t k a, exec (.unitNotice ⟨slot, l.lead, stamp, key, some p⟩) s = .next t ∧ t.lecture? slot = some k
        ∧ k.window.map Segment.number = l.window.map Segment.number ∧ a ∈ k.window
        ∧ a.number = g.number ∧ a.state = .opened ∧ a.postponed = (g.postponed || due)
        ∧ a.ranges.get l.lead = { g.ranges.get l.lead with lastUnit := some stamp }
        ∧ (¬ limit → a.damaged = g.damaged ∧ k.forcedCut = l.forcedCut ∧ k.stretch = l.stretch
            ∧ (∀ q, (k.parts.get q).candidates = (l.parts.get q).candidates)
            ∧ (s.atRest → t.discard slot = s.discard slot))
        ∧ (limit → a.damaged = true ∧ k.forcedCut = false ∧ (∀ q, (k.parts.get q).candidates = [])
            ∧ ((room && l.cuttingSegment.isNone) = true → k.stretch = .keyOnly
              ∧ (s.atRest → t.discard slot = .keyOnly l.lead false))
            ∧ ((room && l.cuttingSegment.isNone) = false → k.stretch = .all ∧ (s.atRest → t.discard slot = .all)))))
  ∧ (∀ (s : State) (slot : Nat) (r : Role) (stamp : Stamp) (key : Bool) (p : UnitPlace) (l : Lecture) (c : Segment)
      (b : Stamp), s.lecture? slot = some l → (l.state = .running ∨ l.state = .ending) →
    (l.parts.get r).present = true → (l.parts.get r).ended = false → l.cuttingSegment = some c → c.cutStamp = some b →
    (∀ h ∈ l.window, h.number = c.number → h = c) → (c.ranges.get r).cut = .pending →
    ((p.good = false ∨ stampFrom stamp b = false) →
      ∃ t k, exec (.unitNotice ⟨slot, r, stamp, key, some p⟩) s = .next t ∧ t.lecture? slot = some k
        ∧ k.state = l.state ∧ k.window = (l.modSegment c.number (fun h => { h with
            ranges := h.ranges.set r { h.ranges.get r with lastUnit := some stamp } })).window)
    ∧ (p.good = true → stampFrom stamp b = true →
      ∃ t k a, exec (.unitNotice ⟨slot, r, stamp, key, some p⟩) s = .next t ∧ t.lecture? slot = some k ∧ a ∈ k.window
        ∧ l.settles r c a
        ∧ (let x := c.ranges.get r
           let y := a.ranges.get r
           y.startOffset = x.startOffset ∧ y.startStamp = x.startStamp ∧ y.endOffset = some p.start
            ∧ y.endStamp = some stamp ∧ y.cut = .cut)
        ∧ (∀ g lead, l.openSegment = some g → g.leadStart = some lead → stampFrom stamp lead = true →
            (g.ranges.get r).startOffset = none → (slot, g.number) ∉ s.admissions →
            let x : RoleRange := ⟨some p.start, some stamp, none, none, .pending, .normal, some stamp, false⟩
            { g with ranges := g.ranges.set r x } ∈ k.window)))

/-- The target stamp is the smallest base + m·S at or beyond L + S/2 (S in milliseconds). -/
def Obligations.TargetStamp : Prop :=
  ∀ (base lead : Stamp) (seg : Nat), 0 < seg →
    ∃ m : Int, targetStamp base lead seg = base + BitVec.ofInt 32 (m * seg)
      ∧ (lead - base).toInt + seg / 2 ≤ m * seg ∧ (m - 1) * seg < (lead - base).toInt + seg / 2

/-- A role-end notice ends its role, clears its silent flag and stops its gap timer; where the lead ends, the live role
of highest rank becomes the lead and the candidate lists are emptied. A role PENDING in the CUTTING segment ends there
at its current end with the stamp of its last unit, and with no role PENDING the segment is sealed (Lecture.settles); a
role that is not PENDING leaves it as it is. While a role has not ended the lecture keeps its state. With the last one
ended the gap timers stop: LOADED becomes CLOSED; STALLED, and RUNNING without an OPEN segment (log 52, DESIGN CHOICE,
unsafe), ENDING, or CLOSED with an empty window; RUNNING with an OPEN segment ENDING, the segment ended at its current
end and sealed, a forced cut disarmed, the candidate lists emptied, a stretch discard ended (the end stamp of a role
that ended earlier is log 64, DESIGN CHOICE, unsafe). What becomes of an OPEN or CUTTING segment is stated where it
stands in no admission list and no other record has its number. A late drop sets LATE_DROP, an overrun report DAMAGED,
on the OPEN segment. -/
def Obligations.IntakeReports : Prop :=
  ∀ (s : State) (slot : Nat) (r : Role) (l : Lecture), s.lecture? slot = some l →
    ((l.state = .loaded ∨ l.state = .running ∨ l.state = .stalled) → (l.parts.get r).present = true →
      (l.parts.get r).ended = false →
      ∃ t k, exec (.roleEndNotice slot r) s = .next t ∧ t.lecture? slot = some k ∧ (k.parts.get r).ended = true
        ∧ (k.parts.get r).silent = false ∧ (k.parts.get r).gapRunning = false
        ∧ (r = l.lead → ∀ q, [Role.camera, .screen, .voice].find? (fun p => p != r && l.live p) = some q →
            k.lead = q ∧ k.state = l.state ∧ (∀ p, (k.parts.get p).candidates = []) ∧ k.forcedCut = l.forcedCut)
        ∧ (∀ c, l.cuttingSegment = some c → (∀ h ∈ l.window, h.number = c.number → h = c) →
            (slot, c.number) ∉ s.admissions →
            ((c.ranges.get r).cut ≠ .pending → c ∈ k.window)
            ∧ ((c.ranges.get r).cut = .pending → ∃ a ∈ k.window, l.settles r c a
                ∧ (c.ranges.get r).takesEnd (a.ranges.get r) (l.parts.get r).noticedEnd))
        ∧ ((∃ q ∈ l.roles, q ≠ r ∧ (l.parts.get q).ended = false) → k.state = l.state)
        ∧ ((∀ q ∈ l.roles, q ≠ r → (l.parts.get q).ended = true) → (∀ q, (k.parts.get q).gapRunning = false)
            ∧ (l.state = .loaded → k.state = .closed)
            ∧ (l.state = .stalled ∨ (l.state = .running ∧ l.openSegment = none) →
                k.state = if l.window = [] then .closed else .ending)
            ∧ (∀ g, l.state = .running → l.openSegment = some g → (slot, g.number) ∉ s.admissions →
                (∀ c, l.cuttingSegment = some c → c.number ≠ g.number) →
                k.state = .ending ∧ k.cutCleared
                ∧ (g.cutStamp = none → (∀ q, (g.ranges.get q).skewEnded = false) → ∃ h ∈ k.window, l.sealsOpen g h))))
    ∧ ((l.parts.get r).ended = true → exec (.roleEndNotice slot r) s
        = .next (s.received (.roleEndNotice slot r)).serveClaims)
    ∧ (∀ stamp g, l.state ≠ .closed → (l.parts.get r).present = true → l.openSegment = some g →
      ∃ t k, exec (.lateDropReport slot r stamp) s = .next t ∧ t.lecture? slot = some k
        ∧ (∃ h ∈ k.window, h.number = g.number ∧ h.lateDrop = true)
        ∧ ((l.parts.get r).ended = false → (k.parts.get r).silent = false))
    ∧ (∀ g, l.openSegment = some g →
      ∃ t, exec (.overrunReport slot) s = .next t
        ∧ t.lecture? slot = some (l.modSegment g.number (fun h => { h with damaged := true }))
        ∧ t.mem = s.mem ∧ t.jdp = s.jdp)

/-- A job's outcome sets its rendition. With renditions still PENDING the segment stays WORKING; the last outcome makes
it COMPLETE, and as the head of the window, next to publish, with no lecture waiting and entries enough, it is
published: one entry a rendition, in order, and the record leaves the window (the next record not being COMPLETE); each
CLOSED extent of a DONE rendition becomes PUBLISHED, and each of its blocks PROTECTED at once, but one with a page
buffer bound, which stays as it was until its last buffer is free (with the store at rest, the lecture not closing, and
the block in no relocation). A lecture in ENDING is then CLOSED when its window is empty; one that waited for room
opens its next segment (log 52, DESIGN CHOICE). -/
def Obligations.JobOutcome : Prop :=
  ∀ (s : State) (slot rendition : Nat) (result : JobResult) (l : Lecture) (g : Segment) (rest : List Segment),
    s.lecture? slot = some l → l.window = g :: rest → g.state = .working → (∀ h ∈ rest, h.number ≠ g.number) →
    let h := g.outcome rendition (outcomeState result)
    ((∃ v ∈ h.renditions, v = .pending) →
      ∃ t k, exec (.jobOutcome slot g.number rendition result) s = .next t ∧ t.lecture? slot = some k
        ∧ k.window = { g with renditions := g.renditions.set rendition (outcomeState result) } :: rest
        ∧ t.sgc.catalogue = s.sgc.catalogue)
    ∧ ((∀ v ∈ h.renditions, v ≠ .pending) → g.number = l.nextPublish → s.sgc.waiting = [] →
      l.profiles.length + s.sgc.catalogue.length ≤ 4096 → (∀ d, rest.head? = some d → d.state ≠ .complete) →
      ∃ t k, exec (.jobOutcome slot g.number rendition result) s = .next t ∧ t.lecture? slot = some k
        ∧ k.nextPublish = l.nextPublish + 1 ∧ k.published = l.published + 1
        ∧ t.sgc.catalogue = s.sgc.catalogue ++ entriesOf slot l h
        ∧ (({ l with window := rest } : Lecture).opensNext = false → k.window = rest)
        ∧ (({ l with window := rest } : Lecture).opensNext = true →
            ∃ d, k.window = rest ++ [d] ∧ d.state = .opened ∧ d.number = l.nextSegment)
        ∧ (l.state = .ending → rest = [] → k.state = .closed)
        ∧ (s.atRest → (l.state = .ending → rest ≠ []) → ∀ (i n : Nat) (x : Extent), h.renditions[i]? = some (.done n) →
            s.extentFor n slot g.number i = some x → x.state = .closed →
            t.extent? n = some { x with state := .published }
            ∧ ∀ b ∈ x.blocks, s.relocating b = false →
                (t.block b).state = if s.bufferBound b then (s.block b).state else .guarded))

/-! ## Job queue and dispatch (R74 to R89) -/

/-- DISPATCH_SET with fields in range sets the backlog floor and the preemption setting and replies DONE; turning
preemption off withdraws every yield. Fields out of range are refused RANGE. -/
def Obligations.DispatchSet : Prop :=
  ∀ (s : State) (tag : Word16) (floor preemption : Byte), s.accepts (.dispatchSet tag floor preemption) →
    (∀ on, floor.toNat ≤ 12 → onOff preemption = some on →
      ∃ t, exec (.dispatchSet tag floor preemption) s = .next t
        ∧ t.still = { (s.answered 0x40 tag .done []).still with floor := floor.toNat, preemption := on }
        ∧ (on = false → s.jdp.yields.length ≤ 12 → t.jdp.yields = []))
    ∧ ((12 < floor.toNat ∨ onOff preemption = none) →
      exec (.dispatchSet tag floor preemption) s = .next (s.answered 0x40 tag .range []))

/-- A freed job record lets the head of the LIVE admission list be admitted when the pool has room for its renditions:
its segment is WORKING, and (with no lane IDLE to take one) its jobs stand at the tail of their class's list, one a
rendition in order, each in a record that was free, with attempts 0, the segment's chunk count, chunks done 0, no
extent, QUEUED. Without room nothing is admitted. A freed extent record lets a dispatch pass hand the candidate to the
lowest IDLE lane: it is BUSY with that job; a job whose source is EMPTY (the only one queued, with no claim waiting)
ends DONE instead: its extent is CLOSED and empty, the outcome is under way, its record is free and the lane stays
IDLE. -/
def Obligations.FreedRecords : Prop :=
  (∀ (s : State) (slot n : Nat) (l : Lecture) (g : Segment), s.sgc.liveAdmission = [(slot, n)] →
    s.sgc.backlogAdmission = [] → s.lecture? slot = some l → l.segment n = some g →
    (l.profiles.length + s.jdp.jobs.length ≤ 256 →
      ∃ t k h, exec .jobRecordFreed s = .next t ∧ t.sgc.liveAdmission = [] ∧ t.lecture? slot = some k
        ∧ k.segment n = some h ∧ h = { g with state := .working }
        ∧ (s.anyIdle = false → ∃ ks : List Nat, ks.length = l.profiles.length ∧ ks.Nodup
            ∧ t.jdp.list l.cls = s.jdp.list l.cls ++ ks ∧ (∀ c, c ≠ l.cls → t.jdp.list c = s.jdp.list c)
            ∧ (∀ (i q : Nat), ks[i]? = some q → q < 256 ∧ s.job? q = none)
            ∧ (∀ (i q p : Nat), ks[i]? = some q → l.profiles[i]? = some p →
                t.job? q = some ⟨slot, n, i, p, l.cls, 0, g.chunkCount, 0, none, none, none⟩)
            ∧ ∀ q, q ∉ ks → t.job? q = s.job? q))
    ∧ (0 < l.profiles.length → 256 < l.profiles.length + s.jdp.jobs.length →
      ∃ t, exec .jobRecordFreed s = .next t ∧ t.sgc = s.sgc))
  ∧ (∀ (s : State) (n k e : Nat) (j : Job), laneNumbers.find? (fun m => (s.lane m).state == .idle) = some n →
    s.candidate = some k → s.job? k = some j → j.extent = none → s.freeExtent = some e → s.emptySource j = false →
    j.done = 0 →
    ∃ t, exec .extentRecordFreed s = .next t ∧ (t.lane n).state = .busy ∧ (t.lane n).job = some k)
  ∧ (∀ (s : State) (n k e : Nat) (j : Job), laneNumbers.find? (fun m => (s.lane m).state == .idle) = some n →
    s.jdp.live ++ s.jdp.backlog = [k] → s.job? k = some j → j.extent = none → s.freeExtent = some e →
    s.emptySource j = true → s.stc.claims = [] →
    ∃ t, exec .extentRecordFreed s = .next t ∧ t.job? k = none ∧ t.jdp.live = [] ∧ t.jdp.backlog = []
      ∧ (t.lane n).state = .idle ∧ t.extent? e = some ⟨j.slot, j.segment, j.rendition, [], 0, .closed⟩
      ∧ .jobOutcome j.slot j.segment j.rendition (.done e) ∈ t.sent ∧ .jobRecordFreed ∈ t.sent)

/-! ## Lanes and lane groups (R90 to R115) -/

/-- LANE_REMOVE without FORCE: an IDLE, TEST or FAILED lane becomes OUT (DONE), a BUSY one DRAINING with its job
(PENDING); a DRAINING one is refused BUSY, an OUT or OFF one STATE. With FORCE a BUSY or DRAINING lane lets its job go
and is OUT at once (DONE); with no lane IDLE and no discard request for it, the job stands at the head of its class's
list with its attempts and chunks done. FORCE in another state acts as without it: an IDLE, TEST or FAILED lane is OUT
with its last fault kept (DONE), an OUT or OFF one is refused STATE. -/
def Obligations.LaneRemoval : Prop :=
  (∀ (s : State) (tag : Word16) (lane : Byte), lane.toNat < 12 → s.accepts (.laneRemove tag lane) →
    (((s.lane lane.toNat).state = .idle ∨ (s.lane lane.toNat).state = .test ∨ (s.lane lane.toNat).state = .failed) →
      ∃ t, exec (.laneRemove tag lane) s = .next t ∧ (t.lane lane.toNat).state = .out
        ∧ (t.lane lane.toNat).fault = (s.lane lane.toNat).fault ∧ t.still = (s.answered 0x50 tag .done []).still)
    ∧ ((s.lane lane.toNat).state = .busy →
      ∃ t, exec (.laneRemove tag lane) s = .next t ∧ (t.lane lane.toNat).state = .draining
        ∧ (t.lane lane.toNat).job = (s.lane lane.toNat).job ∧ t.still = (s.answered 0x50 tag .pending []).still)
    ∧ ((s.lane lane.toNat).state = .draining →
      exec (.laneRemove tag lane) s = .next (s.answered 0x50 tag .busy []))
    ∧ (((s.lane lane.toNat).state = .out ∨ (s.lane lane.toNat).state = .off) →
      exec (.laneRemove tag lane) s = .next (s.answered 0x50 tag .state [])))
  ∧ (∀ (s : State) (tag : Word16) (lane : Byte) (k : Nat) (j : Job), lane.toNat < 12 →
    s.accepts (.laneRemoveForce tag lane) →
    ((s.lane lane.toNat).state = .busy ∨ (s.lane lane.toNat).state = .draining) →
    (s.lane lane.toNat).job = some k → s.job? k = some j →
    ∃ t, exec (.laneRemoveForce tag lane) s = .next t ∧ (t.lane lane.toNat).state = .out
      ∧ (t.lane lane.toNat).job = none ∧ (t.lane lane.toNat).fault = (s.lane lane.toNat).fault
      ∧ t.still = (s.answered 0x50 tag .done []).still
      ∧ (s.anyIdle = false → s.sent.any (isDiscardOf k) = false →
          t.job? k = some { j with lane := none, order := none }
          ∧ t.jdp.list j.cls = k :: s.jdp.list j.cls))
  ∧ (∀ (s : State) (tag : Word16) (lane : Byte), lane.toNat < 12 → s.accepts (.laneRemoveForce tag lane) →
    (((s.lane lane.toNat).state = .idle ∨ (s.lane lane.toNat).state = .test ∨ (s.lane lane.toNat).state = .failed) →
      ∃ t, exec (.laneRemoveForce tag lane) s = .next t ∧ (t.lane lane.toNat).state = .out
        ∧ (t.lane lane.toNat).fault = (s.lane lane.toNat).fault ∧ t.still = (s.answered 0x50 tag .done []).still)
    ∧ (((s.lane lane.toNat).state = .out ∨ (s.lane lane.toNat).state = .off) →
      exec (.laneRemoveForce tag lane) s = .next (s.answered 0x50 tag .state [])))

/-- LANE_RESTORE takes an OUT or FAILED lane into TEST with test chunk 0 and its timer at 500 ms (PENDING), 4000 ticks
(log 8, DESIGN CHOICE), its last fault kept, and LANE_FAILED holds while another lane is FAILED; it refuses any other
STATE. In TEST each of the first three chunks raises the test chunk, its output standing in the scratch memory, which
chunk 0 writes afresh (log 61, DESIGN CHOICE); after the fourth a check equal to the constant expected check (log 35,
DESIGN CHOICE) clears the last fault and frees the lane for jobs, a different one leaves it FAILED with TEST_MISMATCH;
an expiry with TEST_EXPIRY. -/
def Obligations.LaneTest : Prop :=
  (∀ (s : State) (tag : Word16) (lane : Byte), lane.toNat < 12 → s.accepts (.laneRestore tag lane) →
    (((s.lane lane.toNat).state = .out ∨ (s.lane lane.toNat).state = .failed) →
      ∃ t, exec (.laneRestore tag lane) s = .next t ∧ (t.lane lane.toNat).state = .test
        ∧ (t.lane lane.toNat).testChunk = 0 ∧ (t.lane lane.toNat).timer = .running 4000
        ∧ (t.lane lane.toNat).fault = (s.lane lane.toNat).fault
        ∧ t.condition .laneFailed = laneNumbers.any (fun m => m != lane.toNat && (s.lane m).state == .failed)
        ∧ t.still = (s.answered 0x51 tag .pending []).still)
    ∧ ((s.lane lane.toNat).state ≠ .out → (s.lane lane.toNat).state ≠ .failed →
      exec (.laneRestore tag lane) s = .next (s.answered 0x51 tag .state [])))
  ∧ (∀ (s : State) (n : Nat) (output : List Byte), n < 12 → (s.lane n).state = .test →
    ((s.lane n).testChunk < 3 →
      exec (.testChunkEnd n output) s = .next (s.setLane n { s.lane n with
        scratch := (s.lane n).scratch.map (fun m => (if (s.lane n).testChunk = 0 then [] else m) ++ output)
        testChunk := (s.lane n).testChunk + 1
        testCheck := check32From (s.lane n).testCheck output
        timer := .running 4000 }))
    ∧ (¬ (s.lane n).testChunk < 3 →
      check32Final (check32From (s.lane n).testCheck output) = Config.expectedTestCheck →
      s.jdp.live = [] → s.jdp.backlog = [] →
      ∃ t, exec (.testChunkEnd n output) s = .next t ∧ (t.lane n).state = .idle ∧ (t.lane n).fault = none)
    ∧ (¬ (s.lane n).testChunk < 3 →
      check32Final (check32From (s.lane n).testCheck output) ≠ Config.expectedTestCheck →
      ∃ t, exec (.testChunkEnd n output) s = .next t ∧ (t.lane n).state = .failed
        ∧ (t.lane n).fault = some .testMismatch ∧ t.condition .laneFailed = true)
    ∧ ∃ t, exec (.testChunkExpiry n) s = .next t ∧ (t.lane n).state = .failed
        ∧ (t.lane n).fault = some .testExpiry ∧ t.condition .laneFailed = true)

/-- GROUP_ON of an OFF group begins RISING with SUPPLY for 15 ms and the supply enable asserted (PENDING); MEMORY
follows for 5 ms, and as it starts the scratch memories of the four lanes are brought up and cleared; a monitor already
at FAULT there is a supply fault at once: FALLING from CLOCK, its lanes OFF with the last fault of an OFF lane
unchanged, GROUP_SUPPLY active, a GROUP event pending (log 58, DESIGN CHOICE). CLOCK for 1 ms, and at its end the group
is ON and its four lanes pass to OUT with their last fault unchanged. In RISING and FALLING GROUP_ON is refused BUSY,
in ON STATE. The phases count 120, 40 and 8 ticks, that of FALLING 16 (log 8, DESIGN CHOICE), the phase timer of the
group that is ON stands at 0 (log 17, DESIGN CHOICE), and a scratch memory brought up is empty (log 61, DESIGN CHOICE).
-/
def Obligations.GroupOn : Prop :=
  (∀ (s : State) (tag : Word16) (group : Byte), group.toNat < 3 → s.accepts (.groupOn tag group) →
    ((s.group group.toNat).state = .off →
      ∃ t, exec (.groupOn tag group) s = .next t
        ∧ t.groups = s.groups.put group.toNat { s.group group.toNat with
            state := .rising, phase := some .supply, left := 120, enable := true }
        ∧ t.lanes = s.lanes ∧ t.ccu.replies = s.ccu.replies ++ [⟨0x53, tag, .pending, []⟩] ∧ t.mem = s.mem)
    ∧ (((s.group group.toNat).state = .rising ∨ (s.group group.toNat).state = .falling) →
      exec (.groupOn tag group) s = .next (s.answered 0x53 tag .busy []))
    ∧ ((s.group group.toNat).state = .on → exec (.groupOn tag group) s = .next (s.answered 0x53 tag .state [])))
  ∧ (∀ (s : State) (g : Nat), g < 3 → (s.group g).state = .rising →
    ((s.group g).phase = some .supply → (s.group g).monitorFault = false →
      ∃ t, exec (.risingPhaseEnd g) s = .next t
        ∧ t.groups = s.groups.put g { s.group g with phase := some .memory, left := 40 }
        ∧ (∀ n, n / 4 = g → t.lane n = { s.lane n with scratch := some [] })
        ∧ (∀ n, n / 4 ≠ g → t.lane n = s.lane n) ∧ t = { s with groups := t.groups, lanes := t.lanes })
    ∧ ((s.group g).phase = some .supply → (s.group g).monitorFault = true →
      ∃ t, exec (.risingPhaseEnd g) s = .next t
        ∧ t.group g = { s.group g with state := .falling, phase := some .clock, left := 16 }
        ∧ (∀ m, m ≠ g → t.group m = s.group m)
        ∧ (∀ n, n / 4 = g → (t.lane n).state = .off
            ∧ ((s.lane n).state = .off → (t.lane n).fault = (s.lane n).fault))
        ∧ t.condition .groupSupply = true ∧ (∃ e ∈ t.ccu.events, e.object = .group g) ∧ t.mem = s.mem)
    ∧ ((s.group g).phase = some .memory →
      exec (.risingPhaseEnd g) s = .next (s.setGroup g { s.group g with phase := some .clock, left := 8 }))
    ∧ ((s.group g).phase = some .clock →
      ∃ t, exec (.risingPhaseEnd g) s = .next t
        ∧ t.group g = { s.group g with state := .on, phase := none, left := 0 }
        ∧ (∀ n, n / 4 = g → (t.lane n).state = .out ∧ (t.lane n).fault = (s.lane n).fault)
        ∧ (∀ n, n / 4 ≠ g → t.lane n = s.lane n) ∧ t.jdp = s.jdp ∧ t.mem = s.mem))

/-- GROUP_OFF of an ON group: with every lane OUT or FAILED, or with FORCE, FALLING begins and the four lanes are OFF
(PENDING); otherwise it is refused INTERLOCK. In RISING and FALLING it is refused BUSY, in OFF STATE. The phases of
FALLING follow, 2 ms each; MEMORY loses the contents of the lanes' scratch memories, SUPPLY releases the supply
enable, and the group ends OFF. Each phase counts 16 ticks (log 8, DESIGN CHOICE), the phase timer of the group that
is OFF stands at 0 (log 17, DESIGN CHOICE), and a scratch memory without power is absent (log 61, DESIGN CHOICE). -/
def Obligations.GroupOff : Prop :=
  (∀ (s : State) (tag : Word16) (group : Byte), group.toNat < 3 →
    (s.accepts (.groupOff tag group) →
      ((s.group group.toNat).state = .on → s.groupFree group.toNat = true →
        ∃ t, exec (.groupOff tag group) s = .next t
          ∧ t.group group.toNat = { s.group group.toNat with state := .falling, phase := some .clock, left := 16 }
          ∧ (∀ n, n / 4 = group.toNat → (t.lane n).state = .off)
          ∧ t.ccu.replies = s.ccu.replies ++ [⟨0x54, tag, .pending, []⟩] ∧ t.mem = s.mem)
      ∧ ((s.group group.toNat).state = .on → s.groupFree group.toNat = false →
        exec (.groupOff tag group) s = .next (s.answered 0x54 tag .interlock []))
      ∧ (((s.group group.toNat).state = .rising ∨ (s.group group.toNat).state = .falling) →
        exec (.groupOff tag group) s = .next (s.answered 0x54 tag .busy []))
      ∧ ((s.group group.toNat).state = .off →
        exec (.groupOff tag group) s = .next (s.answered 0x54 tag .state [])))
    ∧ (s.accepts (.groupOffForce tag group) →
      ((s.group group.toNat).state = .on →
        ∃ t, exec (.groupOffForce tag group) s = .next t
          ∧ t.group group.toNat = { s.group group.toNat with state := .falling, phase := some .clock, left := 16 }
          ∧ (∀ n, n / 4 = group.toNat → (t.lane n).state = .off ∧ (t.lane n).job = none)
          ∧ t.ccu.replies = s.ccu.replies ++ [⟨0x54, tag, .pending, []⟩] ∧ t.mem = s.mem)
      ∧ (((s.group group.toNat).state = .rising ∨ (s.group group.toNat).state = .falling) →
        exec (.groupOffForce tag group) s = .next (s.answered 0x54 tag .busy []))
      ∧ ((s.group group.toNat).state = .off →
        exec (.groupOffForce tag group) s = .next (s.answered 0x54 tag .state []))))
  ∧ (∀ (s : State) (g : Nat), g < 3 → (s.group g).state = .falling →
    ((s.group g).phase = some .clock →
      ∃ t, exec (.fallingPhaseEnd g) s = .next t
        ∧ t.groups = s.groups.put g { s.group g with phase := some .memory, left := 16 }
        ∧ (∀ n, n / 4 = g → t.lane n = { s.lane n with scratch := none })
        ∧ (∀ n, n / 4 ≠ g → t.lane n = s.lane n) ∧ t = { s with groups := t.groups, lanes := t.lanes })
    ∧ ((s.group g).phase = some .memory → exec (.fallingPhaseEnd g) s
        = .next (s.setGroup g { s.group g with phase := some .supply, left := 16, enable := false }))
    ∧ ((s.group g).phase = some .supply →
      ∃ t, exec (.fallingPhaseEnd g) s = .next t
        ∧ t.group g = { s.group g with state := .off, phase := none, left := 0 } ∧ t.lanes = s.lanes ∧ t.mem = s.mem))

/-- A supply fault of a group that is ON, or RISING in MEMORY or CLOCK: FALLING begins from CLOCK, its lanes are OFF,
those that were not OFF with last fault SUPPLY, and GROUP_SUPPLY is active. In another state it is only recorded. A
monitor that returns to NORMAL is only recorded. The phase counts 16 ticks (log 8, DESIGN CHOICE). -/
def Obligations.SupplyFault : Prop :=
  ∀ (s : State) (g : Nat), g < 3 →
    ((s.group g).watches = true →
      ∃ t, exec (.supplyFault g) s = .next t
        ∧ t.group g = { s.group g with state := .falling, phase := some .clock, left := 16, monitorFault := true }
        ∧ (∀ n, n / 4 = g → (t.lane n).state = .off
            ∧ ((s.lane n).state ≠ .off → (t.lane n).fault = some .supply))
        ∧ t.condition .groupSupply = true ∧ t.mem = s.mem)
    ∧ ((s.group g).watches = false →
      exec (.supplyFault g) s = .next (s.setGroup g { s.group g with monitorFault := true }))
    ∧ exec (.supplyMonitorNormal g) s = .next (s.setGroup g { s.group g with monitorFault := false })

/-- A sanity timer that runs out leaves its lane FAILED with last fault SANITY and no job. With no lane IDLE and no
discard request for it, a job on its first or second expiry stands at the head of its class's list with its attempts
raised by one; on its third it has ended and its record is free. A malformed source ends the job FAILED and raises
JOB_FAILED; a discard request for the job a lane holds frees the record: the lane is IDLE, or OUT from DRAINING (with
both job lists empty). A discard request for another job finds nothing. -/
def Obligations.LaneLetsJobGo : Prop :=
  (∀ (s : State) (n left k : Nat) (j : Job), n < 12 → (s.lane n).works = true → (s.lane n).timer = .running left →
    (s.lane n).job = some k → s.job? k = some j →
    ∃ t, exec (.sanityTimerExpiry n) s = .next t ∧ (t.lane n).state = .failed ∧ (t.lane n).fault = some .sanity
      ∧ (t.lane n).job = none ∧ t.condition .laneFailed = true
      ∧ (s.anyIdle = false → j.attempts < 2 → s.sent.any (isDiscardOf k) = false →
          t.job? k = some { j with attempts := j.attempts + 1, lane := none, order := none }
          ∧ t.jdp.list j.cls = k :: s.jdp.list j.cls)
      ∧ (s.anyIdle = false → 2 ≤ j.attempts → t.job? k = none ∧ t.condition .jobFailed = true))
  ∧ (∀ (s : State) (n k : Nat) (j : Job), n < 12 → (s.lane n).works = true → (s.lane n).job = some k →
    s.job? k = some j →
    (s.jdp.live = [] → s.jdp.backlog = [] →
      (∃ t, exec (.sourceMalformed n) s = .next t ∧ (t.lane n).state = afterJob (s.lane n).state
        ∧ (t.lane n).job = none ∧ (t.lane n).fault = (s.lane n).fault ∧ t.job? k = none
        ∧ t.condition .jobFailed = true)
      ∧ (∃ t, exec (.discardRequest n k) s = .next t ∧ (t.lane n).state = afterJob (s.lane n).state
        ∧ (t.lane n).job = none ∧ t.job? k = none))
    ∧ (∀ m, m ≠ k → exec (.discardRequest n m) s = .next (s.received (.discardRequest n m))))

/-- The end of a chunk that every role has been read to and whose output is all written. On a lane without a yield
(with both job lists empty): the chunk is committed, the extent's committed length being the end of its output (with no
claim waiting): a page buffer of it keeps its bytes, now all committed, and one that was full and not yet committed is
offered to its bank (on a BUSY lane with chunks left, with no relocation); at the last chunk a WRITING extent is
CLOSED, and the outcome, DONE with its number, is under way. Chunks done rises by one; a BUSY lane with chunks left
goes on with the next one; the last chunk ends the job, its record is free and the lane IDLE, or OUT from DRAINING
(with both job lists empty). A DRAINING lane with chunks left is OUT without a job, its job at the head of its class's
list with its chunks done raised, its extent and attempts kept (with no lane IDLE). A BUSY lane with a yield returns a
BACKLOG job with chunks left to the head of the BACKLOG list, its chunks done raised, and takes the head of the LIVE
list (with an extent, or a free one and no wait for one, and its source not EMPTY; with no lane IDLE). DISPATCH_SET
with preemption ON leaves no more yields than LIVE jobs are queued, nor than the BACKLOG jobs on lanes exceed the
floor, and none while a lane is IDLE (the last is log 29, DEDUCED: R81 sets no yield then, and R83 names no such
withdrawal); where no yield stood, a LIVE job is queued and those conditions allow one, the first goes to the BUSY lane
whose BACKLOG job was dispatched last; a lane whose job an abort is discarding is left out (R87 withdraws any yield on
it; log 86, DEDUCED). -/
def Obligations.ChunkEnd : Prop :=
  (∀ (s : State) (n k : Nat) (j : Job) (output : List Byte), n < 12 → (s.lane n).works = true →
    (s.lane n).held = .none → (s.lane n).allReached = true → (s.lane n).job = some k → s.job? k = some j →
    ((s.laneWrites n output).lane n).output = [] →
    (n ∉ s.jdp.yields → s.jdp.live = [] → s.jdp.backlog = [] →
      ((s.lane n).state = .busy → j.done + 1 ≠ j.total →
        ∃ t, exec (.chunkEnd n output) s = .next t ∧ (t.lane n).state = .busy ∧ (t.lane n).job = some k
          ∧ (t.lane n).chunk = j.done + 1 ∧ t.job? k = some { j with done := j.done + 1 })
      ∧ (j.done + 1 = j.total →
        ∃ t, exec (.chunkEnd n output) s = .next t ∧ (t.lane n).state = afterJob (s.lane n).state
          ∧ (t.lane n).job = none ∧ t.job? k = none)
      ∧ (∀ e x, (s.laneWrites n output).laneExtent n = some (e, x) → s.stc.claims = [] →
        let written := (s.laneWrites n output).extentEnd e x
        (j.done + 1 = j.total →
          ∃ t, exec (.chunkEnd n output) s = .next t
            ∧ t.extent? e = some { x with
                committed := written, state := if x.state = .writing then .closed else x.state }
            ∧ .jobOutcome j.slot j.segment j.rendition (.done e) ∈ t.sent ∧ .jobRecordFreed ∈ t.sent)
        ∧ ((s.lane n).state = .busy → j.done + 1 ≠ j.total →
          ∃ t, exec (.chunkEnd n output) s = .next t ∧ t.extent? e = some { x with committed := written }
            ∧ (s.stc.relocations = [] → s.stc.buffers.sorted → ∀ i b, (s.laneWrites n output).buf? i = some b →
                b.owner = .own (.extent e) → b.discarded = false →
                ∃ c, t.buf? i = some c ∧ c.data = b.data ∧ c.committed = b.data.length
                  ∧ (b.state = .pending → b.committed < b.data.length →
                      ⟨i, b.block, b.page⟩ ∈ (t.bank (bankOf b.block)).laneProgram
                        ∨ (t.bank (bankOf b.block)).op = some (.program ⟨i, b.block, b.page⟩))))))
    ∧ (n ∉ s.jdp.yields → (s.lane n).state = .draining → j.done + 1 ≠ j.total → s.anyIdle = false →
      s.sent.any (isDiscardOf k) = false →
      ∃ t, exec (.chunkEnd n output) s = .next t ∧ (t.lane n).state = .out ∧ (t.lane n).job = none
        ∧ (t.lane n).fault = (s.lane n).fault
        ∧ t.job? k = some { j with done := j.done + 1, lane := none, order := none }
        ∧ t.jdp.list j.cls = k :: s.jdp.list j.cls)
    ∧ (∀ m rest i, n ∈ s.jdp.yields → (s.lane n).state = .busy → s.jdp.live = m :: rest → m ∉ rest →
      m ∉ s.jdp.backlog → k ∉ s.jdp.backlog → m ≠ k → s.job? m = some i → i.cls = .live → j.cls = .backlog →
      (i.extent = none → m ∉ s.jdp.waits ∧ s.freeExtent ≠ none) → s.emptySource i = false → s.anyIdle = false →
      s.sent.any (isDiscardOf k) = false → j.done + 1 ≠ j.total →
      ∃ t, exec (.chunkEnd n output) s = .next t ∧ (t.lane n).state = .busy ∧ (t.lane n).job = some m
        ∧ (t.lane n).chunk = i.done ∧ t.jdp.live = rest ∧ t.jdp.backlog = k :: s.jdp.backlog
        ∧ t.job? k = some { j with done := j.done + 1, lane := none, order := none } ∧ n ∉ t.jdp.yields))
  ∧ (∀ (s : State) (tag : Word16) (floor : Byte), s.accepts (.dispatchSet tag floor 1) → floor.toNat ≤ 12 →
    ∃ t, exec (.dispatchSet tag floor 1) s = .next t
      ∧ (s.jdp.yields.length ≤ 12 → t.jdp.yields.length ≤ t.jdp.live.length
          ∧ t.jdp.yields.length ≤ t.backlogCount - floor.toNat ∧ (t.anyIdle = true → t.jdp.yields = []))
      ∧ (∀ base : Word32, s.jdp.yields = [] → s.anyIdle = false → s.jdp.live ≠ [] → floor.toNat < s.backlogCount →
          (∃ q < 12, (s.lane q).state = .busy ∧ s.laneRuns .backlog q = true ∧ s.discarding q = false) →
          (∀ q < 12, s.laneRuns .backlog q = true → (s.laneOrder q - base).toNat < 2 ^ 31) →
          ∃ n < 12, t.jdp.yields.head? = some n ∧ (s.lane n).state = .busy ∧ s.laneRuns .backlog n = true
            ∧ s.discarding n = false
            ∧ (∀ q < 12, (s.lane q).state = .busy → s.laneRuns .backlog q = true → s.discarding q = false →
                (s.laneOrder q - base).toNat ≤ (s.laneOrder n - base).toNat)))

/-- What a working lane asks the STC for. A read of its next source bytes within one page: the page's buffer serves it,
and the lane reads on; else a READ starts at once on a bank with nothing to do, and the lane waits. How a read is cut
(readFits), that it asks for and keeps whole pages, and that a unit's header is read before the rest are log 11 (DESIGN
CHOICE). Reading on, in a job of one role: a unit not yet returned is waited for; at the range's end and at the first
unit at or beyond the limit the reading stops, which in the walk starts the chunk at that unit with the sanity timer,
and in the chunk reaches its end; a whole unit before the limit is passed; bytes that are no unit, met as the reading
goes on, end the job as a malformed source does, and no read position changes before the walk has ended (log 41,
DEDUCED, unsafe); a unit is known by its marker and by fitting the range (log 73, DESIGN CHOICE, unsafe). In its chunk
the lane is given a page buffer while more than 40 are free, else it is HELD for one; below the bound of the profile it
is given a block while one is free, else it is HELD with its timer paused; at the bound (with both job lists empty and
no claim waiting) the job ends FAILED with OUTPUT_LIMIT: its extent is given up, the outcome is under way, its record
is free, the lane IDLE, or OUT from DRAINING, and JOB_FAILED holds. -/
def Obligations.LaneRequests : Prop :=
  (∀ (s : State) (n : Nat) (r : Role) (offset length : Nat) (j : Job) (x : Run) (q : SourceRead),
    (s.lane n).works = true → s.laneJob n = some j → s.run? j.slot r = some x → (s.lane n).reads.get r = some q →
    (s.lane n).readFits r q offset length = true → pageAt (offset + length - 1) = pageAt offset →
    let b := runBlockAt x offset
    let base := offset / 262144 * 262144
    let asked := ((offset + length - 1) / 4096 + 1) * 4096
    let u := s.setLane n { s.lane n with reads := (s.lane n).reads.set r (some { q with asked := asked }) }
    (∀ bs, s.bufferedPage b (pageAt offset) = some bs → exec (.laneReadRequest n r offset length) s
        = .next ((u.laneReceives n [⟨r, base + pageAt offset * 4096, bs⟩]).laneReadOn n))
    ∧ (s.bufferedPage b (pageAt offset) = none → s.pageLost b (pageAt offset) = false → s.awaitsSource n →
      (s.bank (bankOf b)).canGrant = true → (s.bank (bankOf b)).erase = none →
      (s.bank (bankOf b)).intakeProgram = [] → (s.bank (bankOf b)).deliveryRead = [] →
      (s.bank (bankOf b)).laneRead = [] →
      ∃ t, exec (.laneReadRequest n r offset length) s = .next t
        ∧ (t.bank (bankOf b)).op = some (.read ⟨.lane n r base, b, [pageAt offset], offset % 262144,
            offset % 262144 + length⟩ true)
        ∧ t.lane n = u.lane n))
  ∧ (∀ (l : Lane) (r : Role) (x : RoleRange) (limit : Option Stamp) (q : SourceRead) (last : Nat),
    x.endOffset = some last →
    let h := l.headerAt r q.unit
    let next := q.unit + 24 + headerLength h
    (last ≤ q.unit → l.readStep r x limit q = .stops)
    ∧ (q.unit + 24 ≤ last → l.has r q.unit (q.unit + 16) = false → l.readStep r x limit q = .waits)
    ∧ (q.unit + 24 ≤ last → l.has r q.unit (q.unit + 16) = true → h.take 2 ≠ [0x4C, 0x55] →
        l.readStep r x limit q = .unfit)
    ∧ (q.unit + 24 ≤ last → l.has r q.unit (q.unit + 16) = true → h.take 2 = [0x4C, 0x55] →
        (∀ stamp, limit = some stamp → stampFrom (headerStamp h) stamp = true → l.readStep r x limit q = .stops)
        ∧ ((∀ stamp, limit = some stamp → stampFrom (headerStamp h) stamp = false) → next ≤ last →
          l.has r (if q.walking = true then next - 8 else q.unit) next = true → l.readStep r x limit q = .passes next)))
  ∧ (∀ (u : State) (n : Nat) (r : Role) (j : Job) (g : Segment) (q : SourceRead), u.laneJob n = some j →
    u.jobSegment j = some g → (u.lane n).reads = (PerRole.all none).set r (some q) → q.reached = false →
    let l := u.lane n
    let limit := if q.walking then some (chunkStart g l.chunk)
      else if l.chunk + 1 = j.total then none else some (chunkStart g (l.chunk + 1))
    let step := l.readStep r (g.ranges.get r) limit q
    (step = .waits → (u.laneReadOn n).lane n = l)
    ∧ (step = .stops → q.walking = true → ((u.laneReadOn n).lane n).positions = (PerRole.all none).set r (some q.unit)
        ∧ ((u.laneReadOn n).lane n).timer = .running (u.chunkTicks j) ∧ ((u.laneReadOn n).lane n).walking = false
        ∧ ((u.laneReadOn n).lane n).chunk = l.chunk)
    ∧ (step = .stops → q.walking = false → (u.laneReadOn n).lane n
        = { l with reads := (PerRole.all none).set r (some { q with reached := true }) })
    ∧ (step = .unfit → exec (.sourceMalformed n) u = .next (u.laneReadOn n)))
  ∧ (∀ (s : State) (n e : Nat) (x : Extent) (output : List Byte), (s.lane n).inChunk = true →
    (s.lane n).held = .none → s.laneExtent n = some (e, x) → s.fillingOf (.extent e) = none →
    (s.lane n).output ++ output ≠ [] →
    (s.extentEnd e x < x.blocks.length * 262144 →
      (40 < s.freeBuffers →
        ∃ t, exec (.laneBufferRequest n output) s = .next t ∧ (t.lane n).held = .none
          ∧ ∃ i < 160, s.buf? i = none ∧ t.buf? i ≠ none)
      ∧ (¬ 40 < s.freeBuffers →
        ∃ t, exec (.laneBufferRequest n output) s = .next t ∧ (t.lane n).held = .buffer
          ∧ (⟨.lane n, .buffer⟩ : Claim) ∈ t.stc.claims))
    ∧ (∀ j, s.laneJob n = some j → s.extentEnd e x = x.blocks.length * 262144 → x.blocks.length ≠ s.blockBound j →
      (∀ g, s.freeHead (extentStart x) = some g →
        ∃ t, exec (.laneBlockRequest n output) s = .next t ∧ t.extent? e = some { x with blocks := x.blocks ++ [g] })
      ∧ (s.freeHead (extentStart x) = none →
        ∃ t, exec (.laneBlockRequest n output) s = .next t ∧ (t.lane n).held = .block
          ∧ (⟨.lane n, .block⟩ : Claim) ∈ t.stc.claims
          ∧ (∀ left, (s.lane n).timer = .running left → (t.lane n).timer = .paused left)))
    ∧ (∀ j k, (s.lane n).job = some k → s.job? k = some j → s.extentEnd e x = x.blocks.length * 262144 →
      x.blocks.length = s.blockBound j → n < 12 → s.jdp.live = [] → s.jdp.backlog = [] → s.stc.claims = [] →
      x.state ≠ .published →
      ∃ t, exec (.laneBlockRequest n output) s = .next t ∧ (t.lane n).state = afterJob (s.lane n).state
        ∧ (t.lane n).job = none ∧ t.job? k = none ∧ t.extent? e = none ∧ t.condition .jobFailed = true
        ∧ .jobOutcome j.slot j.segment j.rendition (.failed .outputLimit) ∈ t.sent ∧ .extentRecordFreed ∈ t.sent))

/-! ## The segment store (R116 to R142) -/

/-- STORE_SET with a low mark of 32 to 4096 takes it, replies DONE and evaluates the store level: EXHAUSTED with no
free block, LOW below the mark, else NORMAL, while the part is READY; NORMAL while it is SCRUBBING. A change of level
leaves a STORE event pending. Another value is refused RANGE and changes nothing else. -/
def Obligations.StoreSet : Prop :=
  ∀ (s : State) (tag mark : Word16), s.accepts (.storeSet tag mark) →
    (32 ≤ mark.toNat → mark.toNat ≤ 4096 →
      ∃ t, exec (.storeSet tag mark) s = .next t
        ∧ t.still = { (s.answered 0x60 tag .done []).still with lowMark := mark.toNat }
        ∧ t.stc.level = (if s.stc.ready = false then .normal else if s.freeBlocks = 0 then .exhausted
            else if s.freeBlocks < mark.toNat then .low else .normal)
        ∧ t.condition .storeExhausted = (s.stc.ready && s.freeBlocks == 0)
        ∧ t.condition .storeLow = (s.stc.ready && decide (s.freeBlocks < mark.toNat))
        ∧ (t.stc.level ≠ s.stc.level → ∃ e ∈ t.ccu.events, e.object = .store ∧ e.kind = .store)
        ∧ t.freeBlocks = s.freeBlocks)
    ∧ ((mark.toNat < 32 ∨ 4096 < mark.toNat) →
      exec (.storeSet tag mark) s = .next (s.answered 0x60 tag .range []))

/-- A PROGRAM that ends well puts the buffer's bytes into its page and leaves every other byte; one that fails leaves
every byte (log 14, DESIGN CHOICE). An APPEND that ends well leaves the entry in its place, one that fails leaves the
bytes the device left, which the command names (log 13, DESIGN CHOICE), and a spoiled place; either way the place is
no longer empty and no byte outside it changes. -/
def Obligations.ProgramAndAppendEndsWrite : Prop :=
  (∀ (s : State) (b : Nat) (p : ProgramReq) (buf : Buf), (s.bank b).op = some (.program p) →
    s.buf? p.buffer = some buf →
    (∃ t, exec (.programEnd b true) s = .next t ∧
      ∀ a, memRead t.mem a
        = if pageAddress p.block p.page ≤ a ∧ a < pageAddress p.block p.page + buf.data.length
          then buf.data.getD (a - pageAddress p.block p.page) 0 else memRead s.mem a)
    ∧ (∃ t, exec (.programEnd b false) s = .next t ∧ t.mem = s.mem))
  ∧ (∀ (s : State) (g k : Nat) (left : List Byte), (s.bank 0).op = some (.append g k) → left.length ≤ 512 →
    (∃ t, exec (.appendEnd true left) s = .next t
      ∧ (∀ a, memRead t.mem a = if placeAddress k ≤ a ∧ a < placeAddress k + 512
          then (placeEntry g).getD (a - placeAddress k) 0 else memRead s.mem a)
      ∧ t.stc.emptyPlaces = s.stc.emptyPlaces.filter (· != k) ∧ t.stc.spoiled = s.stc.spoiled)
    ∧ (∃ t, exec (.appendEnd false left) s = .next t
      ∧ (∀ a, memRead t.mem a = if placeAddress k ≤ a ∧ a < placeAddress k + left.length
          then left.getD (a - placeAddress k) 0 else memRead s.mem a)
      ∧ t.stc.emptyPlaces = s.stc.emptyPlaces.filter (· != k) ∧ t.stc.spoiled = s.stc.spoiled + 1))

/-- An ERASE that ends well makes every byte of its block 0xFF and leaves every other byte, and the block joins the
tail of its bank's free list (with the store at rest, and with the block in no erase queue, it is FREE with no lost
page); one that fails leaves every byte (log 14, DESIGN CHOICE). Either way the end of an ERASE that the scrub placed
lowers the scrub remaining by one; the one that brings it to 0 makes the part READY, and a STORE event is pending (with
the store at rest); no other ERASE changes the part state. -/
def Obligations.EraseEndFreesBlock : Prop :=
  ∀ (s : State) (b : Nat) (e : Erase), (s.bank b).erase = some e → e.state ≠ .suspended →
    (∃ t, exec (.eraseEnd b true) s = .next t
      ∧ (∀ a, memRead t.mem a
          = if e.block * 262144 ≤ a ∧ a < e.block * 262144 + 262144 then 0xFF else memRead s.mem a)
      ∧ (s.atRest → (t.bank b).free = (s.bank b).free ++ [e.block])
      ∧ (s.atRest → e.block ∉ (s.bank b).eraseQueue → t.block e.block = ⟨.free, []⟩)
      ∧ t.stc.scrubRemaining = (if e.scrub then s.stc.scrubRemaining - 1 else s.stc.scrubRemaining))
    ∧ (∀ success, ∃ t, exec (.eraseEnd b success) s = .next t
      ∧ t.stc.scrubRemaining = (if e.scrub then s.stc.scrubRemaining - 1 else s.stc.scrubRemaining)
      ∧ (e.scrub = true → s.stc.scrubRemaining ≤ 1 → s.stc.ready = false →
          t.stc.ready = true ∧ (s.atRest → ∃ v ∈ t.ccu.events, v.object = .store ∧ v.kind = .store))
      ∧ (e.scrub = false ∨ 1 < s.stc.scrubRemaining → t.stc.ready = s.stc.ready))
    ∧ (∃ t, exec (.eraseEnd b false) s = .next t ∧ t.mem = s.mem
      ∧ (s.atRest → e.block ∉ (s.bank b).eraseQueue → e.block ∉ (s.bank 0).eraseQueue →
          (t.block e.block).state = .bad))

/-- The end of a READ gives its pages to the lane that asked, which keeps them whole (log 11, DESIGN CHOICE) and reads
on in them; a page in error, or lost in the block (R134), ends the lane's job FAILED (with both job lists empty). An
operation not ended within its limit is ended as failed: a READ with an error on each page it had not returned, which
the command names (log 13, DESIGN CHOICE), a PROGRAM, an APPEND, with what it left in its place (log 13), and an ERASE
as failures. A suspension that takes effect raises the suspend count by one; one that does not in time sets it to 16
and the erase runs on. When an operation or the erase of a bank ends well and leaves it free (a READ that was
withdrawn, a PROGRAM, an APPEND, an ERASE; with no claim waiting and no relocation), its arbiter grants the head of the
first of its class queues that is not empty, and an erase only when the five others are (State.grantsHead; that an
APPEND without an empty place is dropped only now is log 83, DESIGN CHOICE). -/
def Obligations.BankLimits : Prop :=
  ∀ (s : State) (b : Nat),
    (∀ n r base block pages low high errors,
      (s.bank b).op = some (.read ⟨.lane n r base, block, pages, low, high⟩ true) →
      let returned : List SourcePage := pages.map (fun p => ⟨r, base + p * 4096, s.bankPage block p⟩)
      ((∀ p ∈ pages, p ∉ errors ∧ p ∉ (s.block block).lost) → (s.laneReceives n returned).awaitsSource n →
        ∃ t, exec (.readEnd b errors) s = .next t
          ∧ (t.lane n).received = (s.lane n).received ++ returned ∧ t.mem = s.mem)
      ∧ (∀ k j, (∃ p ∈ pages, p ∈ errors ∨ p ∈ (s.block block).lost) → n < 12 → (s.lane n).works = true →
        (s.lane n).job = some k → s.job? k = some j → s.jdp.live = [] → s.jdp.backlog = [] →
        ∃ t, exec (.readEnd b errors) s = .next t ∧ (t.lane n).state = afterJob (s.lane n).state
          ∧ (t.lane n).job = none ∧ t.job? k = none ∧ t.condition .jobFailed = true))
    ∧ (∀ (left : Unfinished) r wanted, (s.bank b).op = some (.read r wanted) →
      ∃ t, exec (.storeOpLimit b left) s = .next t
        ∧ exec (.readEnd b (r.pages.filter (fun p => !left.returned.contains p))) s = .next t)
    ∧ (∀ left p, (s.bank b).op = some (.program p) →
      ∃ t, exec (.storeOpLimit b left) s = .next t ∧ exec (.programEnd b false) s = .next t)
    ∧ (∀ (left : Unfinished) g k, b = 0 → (s.bank b).op = some (.append g k) →
      ∃ t, exec (.storeOpLimit b left) s = .next t ∧ exec (.appendEnd false left.place) s = .next t)
    ∧ (∀ left e, (s.bank b).op = none → (s.bank b).erase = some e → e.state ≠ .suspended →
      ∃ t, exec (.storeOpLimit b left) s = .next t ∧ exec (.eraseEnd b false) s = .next t)
    ∧ (∀ e, (s.bank b).erase = some e → e.state = .commanded →
      (∃ t d, exec (.eraseSuspendEffect b) s = .next t ∧ (t.bank b).erase = some d ∧ d.block = e.block
        ∧ d.suspends = e.suspends + 1)
      ∧ exec (.suspendLimit b) s = .next (s.setBank b { s.bank b with
          erase := some { e with state := .running, suspends := 16 } }))
    ∧ (s.stc.claims = [] → s.stc.relocations = [] →
      ((∀ e, (s.bank b).erase = some e → e.state = .suspended) →
        (∀ r errors, (s.bank b).op = some (.read r false) →
          ∃ t, exec (.readEnd b errors) s = .next t ∧ t.grantsHead b { s.bank b with op := none })
        ∧ (∀ p, (s.bank b).op = some (.program p) →
          ∃ t, exec (.programEnd b true) s = .next t ∧ t.grantsHead b { s.bank b with op := none })
        ∧ (∀ g k left, b = 0 → (s.bank b).op = some (.append g k) →
          ∃ t, exec (.appendEnd true left) s = .next t ∧ t.grantsHead b { s.bank b with op := none }))
      ∧ (∀ e, (s.bank b).op = none → (s.bank b).erase = some e → e.state ≠ .suspended →
        ∃ t, exec (.eraseEnd b true) s = .next t
          ∧ t.grantsHead b { s.bank b with erase := none, free := (s.bank b).free ++ [e.block] }))

/-- A source low mark raises the run's; with no claim waiting and no relocation, each block from the run's head on that
ends at or below the mark leaves the run, the head offset rises by a block for each, and the block is RETIRED in its
bank's erase queue, or ERASING there; a run whose head block ends beyond the mark keeps its blocks. Relocation: a
failed PROGRAM of a run's or an extent's page holds the page's buffer and starts a relocation, with a free block as its
target, or a waiting claim where none is free; a failed program of the held page into the target makes that block BAD
and starts again with another; its success puts the target in the failed block's place in the run, frees the buffer,
makes the failed block BAD and ends the relocation. The copy (with no claim waiting): with its target the failed page
is programmed there at once where it is page 0; else, no page being lost and 8 buffers free, a burst of up to 8 pages
is read from the failed block, a buffer for each (log 32, DEDUCED, unsafe). Each page that returns well is programmed
into the target from its buffer, a page in error joins the target's lost pages; when the burst is done (log 81, DESIGN
CHOICE, unsafe) the next is read, and behind the last the failed page is programmed. A mark that retires the head block
while it is being relocated abandons the relocation: its claim is withdrawn, its target given up, its reads withdrawn,
its buffers and those of the block free or, in PROGRAMMING, discarded, and the failed block is BAD. (A request of the
copy stands in its bank's copy queue or has been granted: log 47, log 83.) Waiting claims: a block that an ERASE frees
goes to the lane that waits for one, before the run that waited first. -/
def Obligations.SourceLowMark : Prop :=
  (∀ (s : State) (slot : Nat) (r : Role) (mark : Nat) (x : Run), s.run? slot r = some x → s.stc.claims = [] →
    s.stc.relocations = [] →
    let top := max x.lowMark mark
    let k := min x.blocks.length ((top - x.headOffset) / 262144)
    ∃ t, exec (.sourceLowMark slot r mark) s = .next t
      ∧ t.run? slot r = some { x with
          lowMark := top, blocks := x.blocks.drop k, headOffset := x.headOffset + k * 262144 }
      ∧ (k = 0 → t.stc.banks = s.stc.banks)
      ∧ (∀ g ∈ x.blocks.take k, (s.block g).state ≠ .bad →
          (∀ b, b ≠ bankOf g → g ∉ (s.bank b).eraseQueue) →
          ((t.block g).state = .retired ∧ g ∈ (t.bank (bankOf g)).eraseQueue)
          ∨ ((t.block g).state = .erasing ∧ ∃ e, (t.bank (bankOf g)).erase = some e ∧ e.block = g)))
  ∧ (∀ (s : State) (b : Nat) (p : ProgramReq) (buf : Buf) (o : Owner), (s.bank b).op = some (.program p) →
    s.buf? p.buffer = some buf → buf.owner = .own o → buf.discarded = false → s.stc.buffers.sorted → s.stc.claims = [] →
    (s.stc.relocations = [] →
      (∀ g, s.freeHead ((bankOf p.block + 1) % 4) = some g → (∀ c, g ∉ (s.bank c).eraseQueue) →
        ∃ t q c, exec (.programEnd b false) s = .next t ∧ t.stc.relocations = [q] ∧ q.owner = o ∧ q.failed = p.block
          ∧ q.page = p.page ∧ q.active = true ∧ q.target = some g ∧ (t.block g).state = .opened
          ∧ (t.bank (bankOf g)).free = (s.bank (bankOf g)).free.tail
          ∧ t.buf? p.buffer = some c ∧ c.held = true ∧ c.data = buf.data
          ∧ (s.solelyBound p.buffer (.own o) p.block p.page →
            (p.page = 0 → q.final = true ∧ q.copying = [] ∧ (t.bank (bankOf g)).copiesIn ⟨p.buffer, g, 0⟩)
            ∧ (0 < p.page → (s.block p.block).lost = [] → 8 ≤ s.freeBuffers →
              t.bursts q o p.block g 0 (min 8 p.page))))
      ∧ (s.freeHead ((bankOf p.block + 1) % 4) = none →
        ∃ t c, exec (.programEnd b false) s = .next t
          ∧ t.stc.relocations = [⟨o, p.block, p.page, true, none, 0, [], false⟩]
          ∧ t.stc.claims = [⟨.relocation o p.block, .block⟩]
          ∧ t.buf? p.buffer = some c ∧ c.held = true ∧ c.data = buf.data))
    ∧ (∀ q : Relocation, s.stc.relocations = [q] → q.owner = o → q.active = true → q.final = true →
      q.target = some p.block → q.failed ≠ p.block →
      (∀ g, s.freeHead ((bankOf q.failed + 1) % 4) = some g → g ≠ p.block →
        (∀ c, g ∉ (s.bank c).eraseQueue ∧ p.block ∉ (s.bank c).eraseQueue) →
        ∃ t d c, exec (.programEnd b false) s = .next t ∧ t.stc.relocations = [d] ∧ d.owner = o ∧ d.failed = q.failed
          ∧ d.page = q.page ∧ d.active = true ∧ d.target = some g ∧ (t.block p.block).state = .bad
          ∧ (t.block g).state = .opened ∧ t.buf? p.buffer = some c ∧ c.held = true ∧ c.data = buf.data)
      ∧ (∀ slot r x, o = .run slot r → s.run? slot r = some x → s.inPublished p.block = false →
        (∀ c, q.failed ∉ (s.bank c).eraseQueue ∧ p.block ∉ (s.bank c).eraseQueue) →
        ∃ t, exec (.programEnd b true) s = .next t ∧ t.stc.relocations = [] ∧ (t.block q.failed).state = .bad
          ∧ (t.block p.block).state = (s.block q.failed).state ∧ t.buf? p.buffer = none
          ∧ t.run? slot r = some { x with
              blocks := x.blocks.map (fun g => if g = q.failed then p.block else g)
              lastBank := if x.blocks.getLast? = some q.failed then some (bankOf p.block) else x.lastBank })))
  ∧ (∀ (s : State) (b low high g : Nat) (pages errors : List Nat) (q : Relocation),
    (s.bank b).op = some (.read ⟨.relocation q.owner, q.failed, pages, low, high⟩ true) → s.stc.relocations = [q] →
    q.active = true → q.target = some g → g ≠ q.failed → s.stc.claims = [] → s.stc.buffers.sorted → pages.Nodup →
    (∀ k ∈ pages, k ∈ q.copying) →
    (∀ j c, s.buf? j = some c → c.owner = .relocation q.owner → c.discarded = false → c.block = g) →
    ∃ t, exec (.readEnd b errors) s = .next t
      ∧ ∀ k ∈ pages, ∀ i, s.solelyBound i (.relocation q.owner) g k →
        (k ∈ errors → k ∈ (t.block g).lost)
        ∧ (k ∉ errors → (t.bank (bankOf g)).copiesIn ⟨i, g, k⟩
            ∧ ∃ c, t.buf? i = some c ∧ c.data = s.bankPage q.failed k ∧ c.committed = 4096 ∧ c.page = k))
  ∧ (∀ (s : State) (b g : Nat) (p : ProgramReq) (buf : Buf) (q : Relocation), (s.bank b).op = some (.program p) →
    s.buf? p.buffer = some buf → buf.owner = .relocation q.owner → buf.discarded = false → s.stc.buffers.sorted →
    s.stc.claims = [] → s.stc.relocations = [q] → q.active = true → q.target = some g → q.final = false →
    q.copying = [p.page] →
    (∀ i, q.page ≤ q.next → s.solelyBound i (.own q.owner) q.failed q.page →
      ∃ t, exec (.programEnd b true) s = .next t ∧ t.buf? p.buffer = none
        ∧ t.stc.relocations = [{ q with copying := [], final := true }]
        ∧ (t.bank (bankOf g)).copiesIn ⟨i, g, q.page⟩)
    ∧ (q.next < q.page → (s.block q.failed).lost = [] → 8 ≤ s.freeBuffers →
      ∃ t d, exec (.programEnd b true) s = .next t ∧ t.stc.relocations = [d] ∧ d.target = some g
        ∧ t.bursts d q.owner q.failed g q.next (min 8 (q.page - q.next))))
  ∧ (∀ (s : State) (slot g : Nat) (r : Role) (mark : Nat) (rest : List Nat) (x : Run) (q : Relocation),
    s.run? slot r = some x → x.blocks = g :: rest → s.stc.relocations = [q] → q.owner = .run slot r → q.failed = g →
    q.active = true → q.target ≠ some g → (∀ c ∈ s.stc.claims, c.who = .relocation q.owner g) → s.stc.buffers.sorted →
    x.headOffset + 262144 ≤ max x.lowMark mark → max x.lowMark mark < x.headOffset + 524288 →
    (∀ b, g ∉ (s.bank b).eraseQueue) →
    ∃ t, exec (.sourceLowMark slot r mark) s = .next t ∧ t.stc.relocations = [] ∧ t.stc.claims = []
      ∧ t.run? slot r = some { x with
          lowMark := max x.lowMark mark, blocks := rest, headOffset := x.headOffset + 262144 }
      ∧ (t.block g).state = .bad
      ∧ (∀ target, q.target = some target → (∀ b, target ∉ (s.bank b).eraseQueue) → t.gaveUp target)
      ∧ (∀ i c, t.buf? i = some c → (c.owner = .relocation q.owner ∨ c.block = g) →
          c.state = .programming ∧ c.discarded = true)
      ∧ ∀ b k wanted, (t.bank b).op = some (.read k wanted) → k.reader = .relocation q.owner → wanted = false)
  ∧ (∀ (s : State) (b n slot e : Nat) (r : Role) (d : Erase) (x : Extent), b < 4 → n < 12 →
    (s.bank b).erase = some d → d.state ≠ .suspended → bankOf d.block = b → d.block ∉ (s.bank b).eraseQueue →
    d.block ∉ x.blocks → (∀ c < 4, (s.bank c).free = []) → s.stc.relocations = [] →
    s.stc.claims = [⟨.run slot r, .block⟩, ⟨.lane n, .block⟩] → s.laneExtent n = some (e, x) →
    ∃ t, exec (.eraseEnd b true) s = .next t ∧ t.stc.claims = [⟨.run slot r, .block⟩]
      ∧ t.extent? e = some { x with blocks := x.blocks ++ [d.block] } ∧ (t.block d.block).state = .opened
      ∧ (t.lane n).held = .none ∧ ∀ c < 4, (t.bank c).free = [])

/-! ## Delivery (R143 to R160) -/

/-- FETCH that passes its checks begins its first segment by a look-up: on a segment not yet published the channel
waits with its fetch fields; on a published one with an extent it sends, its header built as R158 lays it out and
nothing of it placed; on one without an extent, RELEASED, DROPPED, or NEVER_OPENED in RANGE, it sends a header with
ABSENT; on one NEVER_OPENED in FOLLOW the END header. Its checks refuse RANGE, BUSY and STATE. -/
def Obligations.FetchBeginsSegment : Prop :=
  ∀ (s : State) (tag : Word16) (channel slot rendition mode : Byte) (first last : Word16) (m : FetchMode),
    modeOf mode last = some m → channel.toNat < 8 → slot.toNat < 32 → rendition.toNat < 4 →
    s.accepts (.fetch tag channel slot rendition first mode last) →
    (modeOk m first.toNat = false →
      exec (.fetch tag channel slot rendition first mode last) s = .next (s.answered 0x70 tag .range []))
    ∧ (modeOk m first.toNat = true → (s.channel channel.toNat).state ≠ .idle →
      exec (.fetch tag channel slot rendition first mode last) s = .next (s.answered 0x70 tag .busy []))
    ∧ (modeOk m first.toNat = true → (s.channel channel.toNat).state = .idle → s.lecture? slot.toNat = none →
      exec (.fetch tag channel slot rendition first mode last) s = .next (s.answered 0x70 tag .state []))
    ∧ (∀ l, modeOk m first.toNat = true → (s.channel channel.toNat).state = .idle →
      s.lecture? slot.toNat = some l → rendition.toNat < l.profiles.length →
      ∃ t, exec (.fetch tag channel slot rendition first mode last) s = .next t
        ∧ (t.channel channel.toNat).fetch = some ⟨slot.toNat, rendition.toNat, m, first.toNat⟩
        ∧ (t.channel channel.toNat).sent = 0 ∧ (t.channel channel.toNat).position = 0
        ∧ t.still = (s.answered 0x70 tag .done []).still ∧ t.sgc = s.sgc
        ∧ s.begins t channel.toNat ⟨slot.toNat, rendition.toNat, m, first.toNat⟩ l first.toNat first.toNat
        ∧ (s.lookUp slot.toNat first.toNat rendition.toNat l = .notYet →
            (t.channel channel.toNat).state = .waiting ∧ (t.channel channel.toNat).item = none
            ∧ (t.channel channel.toNat).current = some first.toNat)
        ∧ (∀ e n, s.lookUp slot.toNat first.toNat rendition.toNat l = .entry e → e.extent = some n →
            (t.channel channel.toNat).state = .sending ∧ (t.channel channel.toNat).item = some .header
            ∧ (t.channel channel.toNat).extent = some n ∧ (t.channel channel.toNat).hasBody = true
            ∧ (t.channel channel.toNat).current = some first.toNat))

/-- STOP: a WAITING channel, and one whose header or END header is not begun, is IDLE at once with last ending STOPPED
(DONE); in the body, and with the trailer not begun, the trailer carries STOPPED and begins a new cell (PENDING); a
header, END header or trailer partly placed is completed as it is (PENDING): behind a header with a body comes the
STOPPED trailer (until then the body outcome shown stays: log 84, DESIGN CHOICE, unsafe), behind the others the channel
is IDLE with STOPPED. Its delivery reads are withdrawn. An IDLE channel is refused STATE, one with stop requested BUSY.
A notice of its lecture wakes a WAITING channel, which begins its segment by a look-up: with the segment published it
sends. -/
def Obligations.StopAndWake : Prop :=
  (∀ (s : State) (tag : Word16) (channel : Byte), channel.toNat < 8 → s.accepts (.stop tag channel) →
    ((s.channel channel.toNat).state = .idle → exec (.stop tag channel) s = .next (s.answered 0x71 tag .state []))
    ∧ ((s.channel channel.toNat).state ≠ .idle → (s.channel channel.toNat).stopRequested = true →
      exec (.stop tag channel) s = .next (s.answered 0x71 tag .busy []))
    ∧ ((s.channel channel.toNat).state ≠ .idle → (s.channel channel.toNat).stopRequested = false →
      ((s.channel channel.toNat).item = none →
        ∃ t, exec (.stop tag channel) s = .next t ∧ (t.channel channel.toNat).state = .idle
          ∧ (t.channel channel.toNat).lastEnding = some .stopped ∧ (t.channel channel.toNat).fetch = none
          ∧ t.still = (s.answered 0x71 tag .done []).still)
      ∧ ((s.channel channel.toNat).item = some .body →
        ∃ t, exec (.stop tag channel) s = .next t
          ∧ (t.channel channel.toNat).state = (s.channel channel.toNat).state
          ∧ (t.channel channel.toNat).item = some .trailer ∧ (t.channel channel.toNat).outcome = .stopped
          ∧ (t.channel channel.toNat).cutDue = true ∧ (t.channel channel.toNat).stopRequested = true
          ∧ (t.channel channel.toNat).bytes = trailerBytes .stopped (s.channel channel.toNat).bodyCheck
          ∧ t.readsWithdrawn channel.toNat
          ∧ t.still = (s.answered 0x71 tag .pending []).still)
      ∧ (((s.channel channel.toNat).item = some .header ∨ (s.channel channel.toNat).item = some .ending) →
        ((s.channel channel.toNat).position = 0 →
          ∃ t, exec (.stop tag channel) s = .next t ∧ (t.channel channel.toNat).state = .idle
            ∧ (t.channel channel.toNat).lastEnding = some .stopped ∧ (t.channel channel.toNat).fetch = none
            ∧ t.readsWithdrawn channel.toNat ∧ t.still = (s.answered 0x71 tag .done []).still)
        ∧ ((s.channel channel.toNat).position ≠ 0 →
          ∃ t, exec (.stop tag channel) s = .next t
            ∧ t.channel channel.toNat
                = { s.channel channel.toNat with place0 := .empty, place1 := .empty, stopRequested := true }
            ∧ t.readsWithdrawn channel.toNat ∧ t.still = (s.answered 0x71 tag .pending []).still))
      ∧ ((s.channel channel.toNat).item = some .trailer →
        ∃ t, exec (.stop tag channel) s = .next t ∧ (t.channel channel.toNat).stopRequested = true
          ∧ (t.channel channel.toNat).state = (s.channel channel.toNat).state
          ∧ (t.channel channel.toNat).item = some .trailer ∧ t.readsWithdrawn channel.toNat
          ∧ t.still = (s.answered 0x71 tag .pending []).still
          ∧ ((s.channel channel.toNat).position = 0 →
              (t.channel channel.toNat).outcome = .stopped ∧ (t.channel channel.toNat).cutDue = true
              ∧ (t.channel channel.toNat).position = 0
              ∧ (t.channel channel.toNat).bytes = trailerBytes .stopped (s.channel channel.toNat).bodyCheck)
          ∧ ((s.channel channel.toNat).position ≠ 0 → t.channel channel.toNat
              = { s.channel channel.toNat with place0 := .empty, place1 := .empty, stopRequested := true }))))
  ∧ (∀ (s : State) (c : Nat), (s.channel c).stopRequested = true →
    let t := s.itemDone c
    let x := t.channel c
    ((s.channel c).item = some .header → (s.channel c).hasBody = true →
      x.state = (s.channel c).state ∧ x.item = some .trailer ∧ x.position = 0 ∧ x.outcome = .stopped ∧ x.cutDue = true
        ∧ x.placed = (s.channel c).placed ∧ x.bytes = trailerBytes .stopped (s.channel c).bodyCheck)
    ∧ ((∃ f n, (s.channel c).fetch = some f ∧ (s.channel c).current = some n) →
      (((s.channel c).item = some .header ∧ (s.channel c).hasBody = false) ∨ (s.channel c).item = some .trailer
        ∨ (s.channel c).item = some .ending) →
      x.state = .idle ∧ x.lastEnding = some .stopped ∧ x.fetch = none ∧ x.current = none
        ∧ (∃ e ∈ t.ccu.events, e.object = .channel c)
        ∧ ((s.channel c).item = some .trailer → x.lastTrailer = some (s.channel c).outcome)
        ∧ x.sent = (if (s.channel c).item = some .ending then (s.channel c).sent
            else min 65535 ((s.channel c).sent + 1))))
  ∧ (∀ (s : State) (c slot n : Nat) (f : Fetch) (l : Lecture), c < 8 →
    (s.channel c).state = .waiting → (s.channel c).fetch = some f → f.slot = slot → (s.channel c).current = some n →
    (∀ d < 8, d ≠ c → (s.channel d).state = .idle) → s.lecture? slot = some l →
    ∃ t, exec (.channelWake slot) s = .next t ∧ s.begins t c f l ((s.channel c).lastHeader.getD f.first) n
      ∧ t.sgc = s.sgc ∧ t.still = s.still
      ∧ (∀ e m, s.lookUp slot n f.rendition l = .entry e → e.extent = some m →
          (t.channel c).state = .sending ∧ (t.channel c).item = some .header
            ∧ (t.channel c).current = some n ∧ (t.channel c).extent = some m))

/-! ## What every step keeps -/

/-- Every step keeps the banks' contents in canonical form. -/
def Obligations.StepKeepsMemoryForm : Prop :=
  ∀ s t : State, Memory.wf s.mem = true → step s = .next t → Memory.wf t.mem = true

/-- Every step keeps the reply places: at most four in use, the reserved ones those of the directives under way. -/
def Obligations.StepKeepsReplyPlaces : Prop :=
  ∀ s t : State, s.placesOk → step s = .next t → t.placesOk

/-- Every step keeps the ranges of the receiver's counts and runs and of the index of the next return frame. Every
step keeps every lecture's window to 8 records (none in LOADED, one rendition a profile in each) and its candidate
lists to 256 entries, and the catalogue to 4096; and a lane holds a job exactly when it is BUSY or DRAINING. Every
step keeps the pools: the job records, page buffers and extent records in use have different numbers, below 256, 160
and 4096; and each bank lists only blocks of its own in its free list and its erase queue, and erases only such a
block. -/
def Obligations.StepKeepsTrunkRanges : Prop :=
  (∀ s t : State, s.receiverOk → s.returnIndexOk → step s = .next t → t.receiverOk ∧ t.returnIndexOk)
  ∧ (∀ s t : State, s.poolsOk → step s = .next t → t.poolsOk)
  ∧ (∀ s t : State, s.windowsOk → step s = .next t → t.windowsOk)
  ∧ (∀ s t : State, s.lanesOk → step s = .next t → t.lanesOk)

/-- The state after reset meets the invariants that every step keeps. -/
def Obligations.ResetMeetsInvariants : Prop :=
  Memory.wf State.reset.mem = true ∧ State.reset.placesOk ∧ State.reset.receiverOk ∧ State.reset.returnIndexOk
    ∧ State.reset.poolsOk ∧ State.reset.windowsOk ∧ State.reset.lanesOk
end

