-- ==== Sys2Proof/Laws/State.lean ====
section
/-! SUPPORT. What each update of the state writes and leaves: one lemma a field, each true by rfl. -/

namespace Sys2Proof.Machine

/-! ### setLane -/

@[simp] theorem State.setLane_pending (s : State) (n : Nat) (x : Lane) : (s.setLane n x).pending = s.pending := rfl
@[simp] theorem State.setLane_sent (s : State) (n : Nat) (x : Lane) : (s.setLane n x).sent = s.sent := rfl
@[simp] theorem State.setLane_ccu (s : State) (n : Nat) (x : Lane) : (s.setLane n x).ccu = s.ccu := rfl
@[simp] theorem State.setLane_trr (s : State) (n : Nat) (x : Lane) : (s.setLane n x).trr = s.trr := rfl
@[simp] theorem State.setLane_trt (s : State) (n : Nat) (x : Lane) : (s.setLane n x).trt = s.trt := rfl
@[simp] theorem State.setLane_iku (s : State) (n : Nat) (x : Lane) : (s.setLane n x).iku = s.iku := rfl
@[simp] theorem State.setLane_sgc (s : State) (n : Nat) (x : Lane) : (s.setLane n x).sgc = s.sgc := rfl
@[simp] theorem State.setLane_jdp (s : State) (n : Nat) (x : Lane) : (s.setLane n x).jdp = s.jdp := rfl
@[simp] theorem State.setLane_lanes (s : State) (n : Nat) (x : Lane) : (s.setLane n x).lanes = s.lanes.put n x := rfl
@[simp] theorem State.setLane_groups (s : State) (n : Nat) (x : Lane) : (s.setLane n x).groups = s.groups := rfl
@[simp] theorem State.setLane_stc (s : State) (n : Nat) (x : Lane) : (s.setLane n x).stc = s.stc := rfl
@[simp] theorem State.setLane_mem (s : State) (n : Nat) (x : Lane) : (s.setLane n x).mem = s.mem := rfl
@[simp] theorem State.setLane_channels (s : State) (n : Nat) (x : Lane) : (s.setLane n x).channels = s.channels := rfl
@[simp] theorem State.setLane_freeDraws (s : State) (n : Nat) (x : Lane) :
    (s.setLane n x).freeDraws = s.freeDraws := rfl

/-! ### setGroup -/

@[simp] theorem State.setGroup_pending (s : State) (g : Nat) (x : Group) : (s.setGroup g x).pending = s.pending := rfl
@[simp] theorem State.setGroup_sent (s : State) (g : Nat) (x : Group) : (s.setGroup g x).sent = s.sent := rfl
@[simp] theorem State.setGroup_ccu (s : State) (g : Nat) (x : Group) : (s.setGroup g x).ccu = s.ccu := rfl
@[simp] theorem State.setGroup_trr (s : State) (g : Nat) (x : Group) : (s.setGroup g x).trr = s.trr := rfl
@[simp] theorem State.setGroup_trt (s : State) (g : Nat) (x : Group) : (s.setGroup g x).trt = s.trt := rfl
@[simp] theorem State.setGroup_iku (s : State) (g : Nat) (x : Group) : (s.setGroup g x).iku = s.iku := rfl
@[simp] theorem State.setGroup_sgc (s : State) (g : Nat) (x : Group) : (s.setGroup g x).sgc = s.sgc := rfl
@[simp] theorem State.setGroup_jdp (s : State) (g : Nat) (x : Group) : (s.setGroup g x).jdp = s.jdp := rfl
@[simp] theorem State.setGroup_lanes (s : State) (g : Nat) (x : Group) : (s.setGroup g x).lanes = s.lanes := rfl
@[simp] theorem State.setGroup_groups (s : State) (g : Nat) (x : Group) :
    (s.setGroup g x).groups = s.groups.put g x := rfl
@[simp] theorem State.setGroup_stc (s : State) (g : Nat) (x : Group) : (s.setGroup g x).stc = s.stc := rfl
@[simp] theorem State.setGroup_mem (s : State) (g : Nat) (x : Group) : (s.setGroup g x).mem = s.mem := rfl
@[simp] theorem State.setGroup_channels (s : State) (g : Nat) (x : Group) :
    (s.setGroup g x).channels = s.channels := rfl
@[simp] theorem State.setGroup_freeDraws (s : State) (g : Nat) (x : Group) :
    (s.setGroup g x).freeDraws = s.freeDraws := rfl

/-! ### setChannel -/

@[simp] theorem State.setChannel_pending (s : State) (c : Nat) (x : Channel) :
    (s.setChannel c x).pending = s.pending := rfl
@[simp] theorem State.setChannel_sent (s : State) (c : Nat) (x : Channel) : (s.setChannel c x).sent = s.sent := rfl
@[simp] theorem State.setChannel_ccu (s : State) (c : Nat) (x : Channel) : (s.setChannel c x).ccu = s.ccu := rfl
@[simp] theorem State.setChannel_trr (s : State) (c : Nat) (x : Channel) : (s.setChannel c x).trr = s.trr := rfl
@[simp] theorem State.setChannel_trt (s : State) (c : Nat) (x : Channel) : (s.setChannel c x).trt = s.trt := rfl
@[simp] theorem State.setChannel_iku (s : State) (c : Nat) (x : Channel) : (s.setChannel c x).iku = s.iku := rfl
@[simp] theorem State.setChannel_sgc (s : State) (c : Nat) (x : Channel) : (s.setChannel c x).sgc = s.sgc := rfl
@[simp] theorem State.setChannel_jdp (s : State) (c : Nat) (x : Channel) : (s.setChannel c x).jdp = s.jdp := rfl
@[simp] theorem State.setChannel_lanes (s : State) (c : Nat) (x : Channel) : (s.setChannel c x).lanes = s.lanes := rfl
@[simp] theorem State.setChannel_groups (s : State) (c : Nat) (x : Channel) :
    (s.setChannel c x).groups = s.groups := rfl
@[simp] theorem State.setChannel_stc (s : State) (c : Nat) (x : Channel) : (s.setChannel c x).stc = s.stc := rfl
@[simp] theorem State.setChannel_mem (s : State) (c : Nat) (x : Channel) : (s.setChannel c x).mem = s.mem := rfl
@[simp] theorem State.setChannel_channels (s : State) (c : Nat) (x : Channel) :
    (s.setChannel c x).channels = s.channels.put c x := rfl
@[simp] theorem State.setChannel_freeDraws (s : State) (c : Nat) (x : Channel) :
    (s.setChannel c x).freeDraws = s.freeDraws := rfl

/-! ### setLecture -/

@[simp] theorem State.setLecture_pending (s : State) (slot : Nat) (x : Lecture) :
    (s.setLecture slot x).pending = s.pending := rfl
@[simp] theorem State.setLecture_sent (s : State) (slot : Nat) (x : Lecture) :
    (s.setLecture slot x).sent = s.sent := rfl
@[simp] theorem State.setLecture_ccu (s : State) (slot : Nat) (x : Lecture) : (s.setLecture slot x).ccu = s.ccu := rfl
@[simp] theorem State.setLecture_trr (s : State) (slot : Nat) (x : Lecture) : (s.setLecture slot x).trr = s.trr := rfl
@[simp] theorem State.setLecture_trt (s : State) (slot : Nat) (x : Lecture) : (s.setLecture slot x).trt = s.trt := rfl
@[simp] theorem State.setLecture_iku (s : State) (slot : Nat) (x : Lecture) : (s.setLecture slot x).iku = s.iku := rfl
@[simp] theorem State.setLecture_sgc (s : State) (slot : Nat) (x : Lecture) :
    (s.setLecture slot x).sgc = { s.sgc with lectures := s.sgc.lectures.put slot x } := rfl
@[simp] theorem State.setLecture_jdp (s : State) (slot : Nat) (x : Lecture) : (s.setLecture slot x).jdp = s.jdp := rfl
@[simp] theorem State.setLecture_lanes (s : State) (slot : Nat) (x : Lecture) :
    (s.setLecture slot x).lanes = s.lanes := rfl
@[simp] theorem State.setLecture_groups (s : State) (slot : Nat) (x : Lecture) :
    (s.setLecture slot x).groups = s.groups := rfl
@[simp] theorem State.setLecture_stc (s : State) (slot : Nat) (x : Lecture) : (s.setLecture slot x).stc = s.stc := rfl
@[simp] theorem State.setLecture_mem (s : State) (slot : Nat) (x : Lecture) : (s.setLecture slot x).mem = s.mem := rfl
@[simp] theorem State.setLecture_channels (s : State) (slot : Nat) (x : Lecture) :
    (s.setLecture slot x).channels = s.channels := rfl
@[simp] theorem State.setLecture_freeDraws (s : State) (slot : Nat) (x : Lecture) :
    (s.setLecture slot x).freeDraws = s.freeDraws := rfl

/-! ### setIntake -/

@[simp] theorem State.setIntake_pending (s : State) (slot : Nat) (r : Role) (x : IntakeRec) :
    (s.setIntake slot r x).pending = s.pending := rfl
@[simp] theorem State.setIntake_sent (s : State) (slot : Nat) (r : Role) (x : IntakeRec) :
    (s.setIntake slot r x).sent = s.sent := rfl
@[simp] theorem State.setIntake_ccu (s : State) (slot : Nat) (r : Role) (x : IntakeRec) :
    (s.setIntake slot r x).ccu = s.ccu := rfl
@[simp] theorem State.setIntake_trr (s : State) (slot : Nat) (r : Role) (x : IntakeRec) :
    (s.setIntake slot r x).trr = s.trr := rfl
@[simp] theorem State.setIntake_trt (s : State) (slot : Nat) (r : Role) (x : IntakeRec) :
    (s.setIntake slot r x).trt = s.trt := rfl
@[simp] theorem State.setIntake_iku (s : State) (slot : Nat) (r : Role) (x : IntakeRec) :
    (s.setIntake slot r x).iku = { s.iku with recs := s.iku.recs.put (roleKey slot r) x } := rfl
@[simp] theorem State.setIntake_sgc (s : State) (slot : Nat) (r : Role) (x : IntakeRec) :
    (s.setIntake slot r x).sgc = s.sgc := rfl
@[simp] theorem State.setIntake_jdp (s : State) (slot : Nat) (r : Role) (x : IntakeRec) :
    (s.setIntake slot r x).jdp = s.jdp := rfl
@[simp] theorem State.setIntake_lanes (s : State) (slot : Nat) (r : Role) (x : IntakeRec) :
    (s.setIntake slot r x).lanes = s.lanes := rfl
@[simp] theorem State.setIntake_groups (s : State) (slot : Nat) (r : Role) (x : IntakeRec) :
    (s.setIntake slot r x).groups = s.groups := rfl
@[simp] theorem State.setIntake_stc (s : State) (slot : Nat) (r : Role) (x : IntakeRec) :
    (s.setIntake slot r x).stc = s.stc := rfl
@[simp] theorem State.setIntake_mem (s : State) (slot : Nat) (r : Role) (x : IntakeRec) :
    (s.setIntake slot r x).mem = s.mem := rfl
@[simp] theorem State.setIntake_channels (s : State) (slot : Nat) (r : Role) (x : IntakeRec) :
    (s.setIntake slot r x).channels = s.channels := rfl
@[simp] theorem State.setIntake_freeDraws (s : State) (slot : Nat) (r : Role) (x : IntakeRec) :
    (s.setIntake slot r x).freeDraws = s.freeDraws := rfl

/-! ### setDiscard -/

@[simp] theorem State.setDiscard_pending (s : State) (slot : Nat) (x : DiscardSetting) :
    (s.setDiscard slot x).pending = s.pending := rfl
@[simp] theorem State.setDiscard_sent (s : State) (slot : Nat) (x : DiscardSetting) :
    (s.setDiscard slot x).sent = s.sent := rfl
@[simp] theorem State.setDiscard_ccu (s : State) (slot : Nat) (x : DiscardSetting) :
    (s.setDiscard slot x).ccu = s.ccu := rfl
@[simp] theorem State.setDiscard_trr (s : State) (slot : Nat) (x : DiscardSetting) :
    (s.setDiscard slot x).trr = s.trr := rfl
@[simp] theorem State.setDiscard_trt (s : State) (slot : Nat) (x : DiscardSetting) :
    (s.setDiscard slot x).trt = s.trt := rfl
@[simp] theorem State.setDiscard_iku (s : State) (slot : Nat) (x : DiscardSetting) :
    (s.setDiscard slot x).iku = { s.iku with discard := s.iku.discard.put slot x } := rfl
@[simp] theorem State.setDiscard_sgc (s : State) (slot : Nat) (x : DiscardSetting) :
    (s.setDiscard slot x).sgc = s.sgc := rfl
@[simp] theorem State.setDiscard_jdp (s : State) (slot : Nat) (x : DiscardSetting) :
    (s.setDiscard slot x).jdp = s.jdp := rfl
@[simp] theorem State.setDiscard_lanes (s : State) (slot : Nat) (x : DiscardSetting) :
    (s.setDiscard slot x).lanes = s.lanes := rfl
@[simp] theorem State.setDiscard_groups (s : State) (slot : Nat) (x : DiscardSetting) :
    (s.setDiscard slot x).groups = s.groups := rfl
@[simp] theorem State.setDiscard_stc (s : State) (slot : Nat) (x : DiscardSetting) :
    (s.setDiscard slot x).stc = s.stc := rfl
@[simp] theorem State.setDiscard_mem (s : State) (slot : Nat) (x : DiscardSetting) :
    (s.setDiscard slot x).mem = s.mem := rfl
@[simp] theorem State.setDiscard_channels (s : State) (slot : Nat) (x : DiscardSetting) :
    (s.setDiscard slot x).channels = s.channels := rfl
@[simp] theorem State.setDiscard_freeDraws (s : State) (slot : Nat) (x : DiscardSetting) :
    (s.setDiscard slot x).freeDraws = s.freeDraws := rfl

/-! ### setBank -/

@[simp] theorem State.setBank_pending (s : State) (b : Nat) (x : Bank) : (s.setBank b x).pending = s.pending := rfl
@[simp] theorem State.setBank_sent (s : State) (b : Nat) (x : Bank) : (s.setBank b x).sent = s.sent := rfl
@[simp] theorem State.setBank_ccu (s : State) (b : Nat) (x : Bank) : (s.setBank b x).ccu = s.ccu := rfl
@[simp] theorem State.setBank_trr (s : State) (b : Nat) (x : Bank) : (s.setBank b x).trr = s.trr := rfl
@[simp] theorem State.setBank_trt (s : State) (b : Nat) (x : Bank) : (s.setBank b x).trt = s.trt := rfl
@[simp] theorem State.setBank_iku (s : State) (b : Nat) (x : Bank) : (s.setBank b x).iku = s.iku := rfl
@[simp] theorem State.setBank_sgc (s : State) (b : Nat) (x : Bank) : (s.setBank b x).sgc = s.sgc := rfl
@[simp] theorem State.setBank_jdp (s : State) (b : Nat) (x : Bank) : (s.setBank b x).jdp = s.jdp := rfl
@[simp] theorem State.setBank_lanes (s : State) (b : Nat) (x : Bank) : (s.setBank b x).lanes = s.lanes := rfl
@[simp] theorem State.setBank_groups (s : State) (b : Nat) (x : Bank) : (s.setBank b x).groups = s.groups := rfl
@[simp] theorem State.setBank_stc (s : State) (b : Nat) (x : Bank) :
    (s.setBank b x).stc = { s.stc with banks := s.stc.banks.put b x } := rfl
@[simp] theorem State.setBank_mem (s : State) (b : Nat) (x : Bank) : (s.setBank b x).mem = s.mem := rfl
@[simp] theorem State.setBank_channels (s : State) (b : Nat) (x : Bank) : (s.setBank b x).channels = s.channels := rfl
@[simp] theorem State.setBank_freeDraws (s : State) (b : Nat) (x : Bank) :
    (s.setBank b x).freeDraws = s.freeDraws := rfl

/-! ### setBlock -/

@[simp] theorem State.setBlock_pending (s : State) (g : Nat) (x : BlockRec) :
    (s.setBlock g x).pending = s.pending := rfl
@[simp] theorem State.setBlock_sent (s : State) (g : Nat) (x : BlockRec) : (s.setBlock g x).sent = s.sent := rfl
@[simp] theorem State.setBlock_ccu (s : State) (g : Nat) (x : BlockRec) : (s.setBlock g x).ccu = s.ccu := rfl
@[simp] theorem State.setBlock_trr (s : State) (g : Nat) (x : BlockRec) : (s.setBlock g x).trr = s.trr := rfl
@[simp] theorem State.setBlock_trt (s : State) (g : Nat) (x : BlockRec) : (s.setBlock g x).trt = s.trt := rfl
@[simp] theorem State.setBlock_iku (s : State) (g : Nat) (x : BlockRec) : (s.setBlock g x).iku = s.iku := rfl
@[simp] theorem State.setBlock_sgc (s : State) (g : Nat) (x : BlockRec) : (s.setBlock g x).sgc = s.sgc := rfl
@[simp] theorem State.setBlock_jdp (s : State) (g : Nat) (x : BlockRec) : (s.setBlock g x).jdp = s.jdp := rfl
@[simp] theorem State.setBlock_lanes (s : State) (g : Nat) (x : BlockRec) : (s.setBlock g x).lanes = s.lanes := rfl
@[simp] theorem State.setBlock_groups (s : State) (g : Nat) (x : BlockRec) : (s.setBlock g x).groups = s.groups := rfl
@[simp] theorem State.setBlock_stc (s : State) (g : Nat) (x : BlockRec) :
    (s.setBlock g x).stc = { s.stc with blocks := s.stc.blocks.put g x } := rfl
@[simp] theorem State.setBlock_mem (s : State) (g : Nat) (x : BlockRec) : (s.setBlock g x).mem = s.mem := rfl
@[simp] theorem State.setBlock_channels (s : State) (g : Nat) (x : BlockRec) :
    (s.setBlock g x).channels = s.channels := rfl
@[simp] theorem State.setBlock_freeDraws (s : State) (g : Nat) (x : BlockRec) :
    (s.setBlock g x).freeDraws = s.freeDraws := rfl

/-! ### setRun -/

@[simp] theorem State.setRun_pending (s : State) (slot : Nat) (r : Role) (x : Run) :
    (s.setRun slot r x).pending = s.pending := rfl
@[simp] theorem State.setRun_sent (s : State) (slot : Nat) (r : Role) (x : Run) :
    (s.setRun slot r x).sent = s.sent := rfl
@[simp] theorem State.setRun_ccu (s : State) (slot : Nat) (r : Role) (x : Run) :
    (s.setRun slot r x).ccu = s.ccu := rfl
@[simp] theorem State.setRun_trr (s : State) (slot : Nat) (r : Role) (x : Run) :
    (s.setRun slot r x).trr = s.trr := rfl
@[simp] theorem State.setRun_trt (s : State) (slot : Nat) (r : Role) (x : Run) :
    (s.setRun slot r x).trt = s.trt := rfl
@[simp] theorem State.setRun_iku (s : State) (slot : Nat) (r : Role) (x : Run) :
    (s.setRun slot r x).iku = s.iku := rfl
@[simp] theorem State.setRun_sgc (s : State) (slot : Nat) (r : Role) (x : Run) :
    (s.setRun slot r x).sgc = s.sgc := rfl
@[simp] theorem State.setRun_jdp (s : State) (slot : Nat) (r : Role) (x : Run) :
    (s.setRun slot r x).jdp = s.jdp := rfl
@[simp] theorem State.setRun_lanes (s : State) (slot : Nat) (r : Role) (x : Run) :
    (s.setRun slot r x).lanes = s.lanes := rfl
@[simp] theorem State.setRun_groups (s : State) (slot : Nat) (r : Role) (x : Run) :
    (s.setRun slot r x).groups = s.groups := rfl
@[simp] theorem State.setRun_stc (s : State) (slot : Nat) (r : Role) (x : Run) :
    (s.setRun slot r x).stc = { s.stc with runs := s.stc.runs.put (roleKey slot r) x } := rfl
@[simp] theorem State.setRun_mem (s : State) (slot : Nat) (r : Role) (x : Run) :
    (s.setRun slot r x).mem = s.mem := rfl
@[simp] theorem State.setRun_channels (s : State) (slot : Nat) (r : Role) (x : Run) :
    (s.setRun slot r x).channels = s.channels := rfl
@[simp] theorem State.setRun_freeDraws (s : State) (slot : Nat) (r : Role) (x : Run) :
    (s.setRun slot r x).freeDraws = s.freeDraws := rfl

/-! ### setExtent -/

@[simp] theorem State.setExtent_pending (s : State) (n : Nat) (x : Extent) :
    (s.setExtent n x).pending = s.pending := rfl
@[simp] theorem State.setExtent_sent (s : State) (n : Nat) (x : Extent) : (s.setExtent n x).sent = s.sent := rfl
@[simp] theorem State.setExtent_ccu (s : State) (n : Nat) (x : Extent) : (s.setExtent n x).ccu = s.ccu := rfl
@[simp] theorem State.setExtent_trr (s : State) (n : Nat) (x : Extent) : (s.setExtent n x).trr = s.trr := rfl
@[simp] theorem State.setExtent_trt (s : State) (n : Nat) (x : Extent) : (s.setExtent n x).trt = s.trt := rfl
@[simp] theorem State.setExtent_iku (s : State) (n : Nat) (x : Extent) : (s.setExtent n x).iku = s.iku := rfl
@[simp] theorem State.setExtent_sgc (s : State) (n : Nat) (x : Extent) : (s.setExtent n x).sgc = s.sgc := rfl
@[simp] theorem State.setExtent_jdp (s : State) (n : Nat) (x : Extent) : (s.setExtent n x).jdp = s.jdp := rfl
@[simp] theorem State.setExtent_lanes (s : State) (n : Nat) (x : Extent) : (s.setExtent n x).lanes = s.lanes := rfl
@[simp] theorem State.setExtent_groups (s : State) (n : Nat) (x : Extent) : (s.setExtent n x).groups = s.groups := rfl
@[simp] theorem State.setExtent_stc (s : State) (n : Nat) (x : Extent) :
    (s.setExtent n x).stc = { s.stc with extents := s.stc.extents.put n x } := rfl
@[simp] theorem State.setExtent_mem (s : State) (n : Nat) (x : Extent) : (s.setExtent n x).mem = s.mem := rfl
@[simp] theorem State.setExtent_channels (s : State) (n : Nat) (x : Extent) :
    (s.setExtent n x).channels = s.channels := rfl
@[simp] theorem State.setExtent_freeDraws (s : State) (n : Nat) (x : Extent) :
    (s.setExtent n x).freeDraws = s.freeDraws := rfl

/-! ### setBuf -/

@[simp] theorem State.setBuf_pending (s : State) (i : Nat) (x : Buf) : (s.setBuf i x).pending = s.pending := rfl
@[simp] theorem State.setBuf_sent (s : State) (i : Nat) (x : Buf) : (s.setBuf i x).sent = s.sent := rfl
@[simp] theorem State.setBuf_ccu (s : State) (i : Nat) (x : Buf) : (s.setBuf i x).ccu = s.ccu := rfl
@[simp] theorem State.setBuf_trr (s : State) (i : Nat) (x : Buf) : (s.setBuf i x).trr = s.trr := rfl
@[simp] theorem State.setBuf_trt (s : State) (i : Nat) (x : Buf) : (s.setBuf i x).trt = s.trt := rfl
@[simp] theorem State.setBuf_iku (s : State) (i : Nat) (x : Buf) : (s.setBuf i x).iku = s.iku := rfl
@[simp] theorem State.setBuf_sgc (s : State) (i : Nat) (x : Buf) : (s.setBuf i x).sgc = s.sgc := rfl
@[simp] theorem State.setBuf_jdp (s : State) (i : Nat) (x : Buf) : (s.setBuf i x).jdp = s.jdp := rfl
@[simp] theorem State.setBuf_lanes (s : State) (i : Nat) (x : Buf) : (s.setBuf i x).lanes = s.lanes := rfl
@[simp] theorem State.setBuf_groups (s : State) (i : Nat) (x : Buf) : (s.setBuf i x).groups = s.groups := rfl
@[simp] theorem State.setBuf_stc (s : State) (i : Nat) (x : Buf) :
    (s.setBuf i x).stc = { s.stc with buffers := s.stc.buffers.put i x } := rfl
@[simp] theorem State.setBuf_mem (s : State) (i : Nat) (x : Buf) : (s.setBuf i x).mem = s.mem := rfl
@[simp] theorem State.setBuf_channels (s : State) (i : Nat) (x : Buf) : (s.setBuf i x).channels = s.channels := rfl
@[simp] theorem State.setBuf_freeDraws (s : State) (i : Nat) (x : Buf) : (s.setBuf i x).freeDraws = s.freeDraws := rfl

/-! ### setJob -/

@[simp] theorem State.setJob_pending (s : State) (j : Nat) (x : Job) : (s.setJob j x).pending = s.pending := rfl
@[simp] theorem State.setJob_sent (s : State) (j : Nat) (x : Job) : (s.setJob j x).sent = s.sent := rfl
@[simp] theorem State.setJob_ccu (s : State) (j : Nat) (x : Job) : (s.setJob j x).ccu = s.ccu := rfl
@[simp] theorem State.setJob_trr (s : State) (j : Nat) (x : Job) : (s.setJob j x).trr = s.trr := rfl
@[simp] theorem State.setJob_trt (s : State) (j : Nat) (x : Job) : (s.setJob j x).trt = s.trt := rfl
@[simp] theorem State.setJob_iku (s : State) (j : Nat) (x : Job) : (s.setJob j x).iku = s.iku := rfl
@[simp] theorem State.setJob_sgc (s : State) (j : Nat) (x : Job) : (s.setJob j x).sgc = s.sgc := rfl
@[simp] theorem State.setJob_jdp (s : State) (j : Nat) (x : Job) :
    (s.setJob j x).jdp = { s.jdp with jobs := s.jdp.jobs.put j x } := rfl
@[simp] theorem State.setJob_lanes (s : State) (j : Nat) (x : Job) : (s.setJob j x).lanes = s.lanes := rfl
@[simp] theorem State.setJob_groups (s : State) (j : Nat) (x : Job) : (s.setJob j x).groups = s.groups := rfl
@[simp] theorem State.setJob_stc (s : State) (j : Nat) (x : Job) : (s.setJob j x).stc = s.stc := rfl
@[simp] theorem State.setJob_mem (s : State) (j : Nat) (x : Job) : (s.setJob j x).mem = s.mem := rfl
@[simp] theorem State.setJob_channels (s : State) (j : Nat) (x : Job) : (s.setJob j x).channels = s.channels := rfl
@[simp] theorem State.setJob_freeDraws (s : State) (j : Nat) (x : Job) : (s.setJob j x).freeDraws = s.freeDraws := rfl

/-! ### freeBuf -/

@[simp] theorem State.freeBuf_pending (s : State) (i : Nat) : (s.freeBuf i).pending = s.pending := rfl
@[simp] theorem State.freeBuf_sent (s : State) (i : Nat) : (s.freeBuf i).sent = s.sent := rfl
@[simp] theorem State.freeBuf_ccu (s : State) (i : Nat) : (s.freeBuf i).ccu = s.ccu := rfl
@[simp] theorem State.freeBuf_trr (s : State) (i : Nat) : (s.freeBuf i).trr = s.trr := rfl
@[simp] theorem State.freeBuf_trt (s : State) (i : Nat) : (s.freeBuf i).trt = s.trt := rfl
@[simp] theorem State.freeBuf_iku (s : State) (i : Nat) : (s.freeBuf i).iku = s.iku := rfl
@[simp] theorem State.freeBuf_sgc (s : State) (i : Nat) : (s.freeBuf i).sgc = s.sgc := rfl
@[simp] theorem State.freeBuf_jdp (s : State) (i : Nat) : (s.freeBuf i).jdp = s.jdp := rfl
@[simp] theorem State.freeBuf_lanes (s : State) (i : Nat) : (s.freeBuf i).lanes = s.lanes := rfl
@[simp] theorem State.freeBuf_groups (s : State) (i : Nat) : (s.freeBuf i).groups = s.groups := rfl
@[simp] theorem State.freeBuf_stc (s : State) (i : Nat) :
    (s.freeBuf i).stc = { s.stc with buffers := s.stc.buffers.del i } := rfl
@[simp] theorem State.freeBuf_mem (s : State) (i : Nat) : (s.freeBuf i).mem = s.mem := rfl
@[simp] theorem State.freeBuf_channels (s : State) (i : Nat) : (s.freeBuf i).channels = s.channels := rfl
@[simp] theorem State.freeBuf_freeDraws (s : State) (i : Nat) : (s.freeBuf i).freeDraws = s.freeDraws := rfl

/-! ### send -/

@[simp] theorem State.send_pending (s : State) (m : Instr) : (s.send m).pending = s.pending := rfl
@[simp] theorem State.send_sent (s : State) (m : Instr) : (s.send m).sent = s.sent ++ [m] := rfl
@[simp] theorem State.send_ccu (s : State) (m : Instr) : (s.send m).ccu = s.ccu := rfl
@[simp] theorem State.send_trr (s : State) (m : Instr) : (s.send m).trr = s.trr := rfl
@[simp] theorem State.send_trt (s : State) (m : Instr) : (s.send m).trt = s.trt := rfl
@[simp] theorem State.send_iku (s : State) (m : Instr) : (s.send m).iku = s.iku := rfl
@[simp] theorem State.send_sgc (s : State) (m : Instr) : (s.send m).sgc = s.sgc := rfl
@[simp] theorem State.send_jdp (s : State) (m : Instr) : (s.send m).jdp = s.jdp := rfl
@[simp] theorem State.send_lanes (s : State) (m : Instr) : (s.send m).lanes = s.lanes := rfl
@[simp] theorem State.send_groups (s : State) (m : Instr) : (s.send m).groups = s.groups := rfl
@[simp] theorem State.send_stc (s : State) (m : Instr) : (s.send m).stc = s.stc := rfl
@[simp] theorem State.send_mem (s : State) (m : Instr) : (s.send m).mem = s.mem := rfl
@[simp] theorem State.send_channels (s : State) (m : Instr) : (s.send m).channels = s.channels := rfl
@[simp] theorem State.send_freeDraws (s : State) (m : Instr) : (s.send m).freeDraws = s.freeDraws := rfl

/-! ### received -/

@[simp] theorem State.received_pending (s : State) (m : Instr) : (s.received m).pending = s.pending := rfl
@[simp] theorem State.received_sent (s : State) (m : Instr) : (s.received m).sent = s.sent.erase m := rfl
@[simp] theorem State.received_ccu (s : State) (m : Instr) : (s.received m).ccu = s.ccu := rfl
@[simp] theorem State.received_trr (s : State) (m : Instr) : (s.received m).trr = s.trr := rfl
@[simp] theorem State.received_trt (s : State) (m : Instr) : (s.received m).trt = s.trt := rfl
@[simp] theorem State.received_iku (s : State) (m : Instr) : (s.received m).iku = s.iku := rfl
@[simp] theorem State.received_sgc (s : State) (m : Instr) : (s.received m).sgc = s.sgc := rfl
@[simp] theorem State.received_jdp (s : State) (m : Instr) : (s.received m).jdp = s.jdp := rfl
@[simp] theorem State.received_lanes (s : State) (m : Instr) : (s.received m).lanes = s.lanes := rfl
@[simp] theorem State.received_groups (s : State) (m : Instr) : (s.received m).groups = s.groups := rfl
@[simp] theorem State.received_stc (s : State) (m : Instr) : (s.received m).stc = s.stc := rfl
@[simp] theorem State.received_mem (s : State) (m : Instr) : (s.received m).mem = s.mem := rfl
@[simp] theorem State.received_channels (s : State) (m : Instr) : (s.received m).channels = s.channels := rfl
@[simp] theorem State.received_freeDraws (s : State) (m : Instr) : (s.received m).freeDraws = s.freeDraws := rfl

/-! ### queueEvent -/

@[simp] theorem State.queueEvent_pending (s : State) (o : EventObject) (k : EventKind) (c : List Byte) :
    (s.queueEvent o k c).pending = s.pending := rfl
@[simp] theorem State.queueEvent_sent (s : State) (o : EventObject) (k : EventKind) (c : List Byte) :
    (s.queueEvent o k c).sent = s.sent := rfl
@[simp] theorem State.queueEvent_ccu (s : State) (o : EventObject) (k : EventKind) (c : List Byte) :
    (s.queueEvent o k c).ccu = { s.ccu with events := putEvent s.ccu.events o k c } := rfl
@[simp] theorem State.queueEvent_trr (s : State) (o : EventObject) (k : EventKind) (c : List Byte) :
    (s.queueEvent o k c).trr = s.trr := rfl
@[simp] theorem State.queueEvent_trt (s : State) (o : EventObject) (k : EventKind) (c : List Byte) :
    (s.queueEvent o k c).trt = s.trt := rfl
@[simp] theorem State.queueEvent_iku (s : State) (o : EventObject) (k : EventKind) (c : List Byte) :
    (s.queueEvent o k c).iku = s.iku := rfl
@[simp] theorem State.queueEvent_sgc (s : State) (o : EventObject) (k : EventKind) (c : List Byte) :
    (s.queueEvent o k c).sgc = s.sgc := rfl
@[simp] theorem State.queueEvent_jdp (s : State) (o : EventObject) (k : EventKind) (c : List Byte) :
    (s.queueEvent o k c).jdp = s.jdp := rfl
@[simp] theorem State.queueEvent_lanes (s : State) (o : EventObject) (k : EventKind) (c : List Byte) :
    (s.queueEvent o k c).lanes = s.lanes := rfl
@[simp] theorem State.queueEvent_groups (s : State) (o : EventObject) (k : EventKind) (c : List Byte) :
    (s.queueEvent o k c).groups = s.groups := rfl
@[simp] theorem State.queueEvent_stc (s : State) (o : EventObject) (k : EventKind) (c : List Byte) :
    (s.queueEvent o k c).stc = s.stc := rfl
@[simp] theorem State.queueEvent_mem (s : State) (o : EventObject) (k : EventKind) (c : List Byte) :
    (s.queueEvent o k c).mem = s.mem := rfl
@[simp] theorem State.queueEvent_channels (s : State) (o : EventObject) (k : EventKind) (c : List Byte) :
    (s.queueEvent o k c).channels = s.channels := rfl
@[simp] theorem State.queueEvent_freeDraws (s : State) (o : EventObject) (k : EventKind) (c : List Byte) :
    (s.queueEvent o k c).freeDraws = s.freeDraws := rfl

/-! ### lower -/

@[simp] theorem State.lower_pending (s : State) (k : Condition) : (s.lower k).pending = s.pending := rfl
@[simp] theorem State.lower_sent (s : State) (k : Condition) : (s.lower k).sent = s.sent := rfl
@[simp] theorem State.lower_ccu (s : State) (k : Condition) :
    (s.lower k).ccu = { s.ccu with conditions := s.ccu.conditions.set k false } := rfl
@[simp] theorem State.lower_trr (s : State) (k : Condition) : (s.lower k).trr = s.trr := rfl
@[simp] theorem State.lower_trt (s : State) (k : Condition) : (s.lower k).trt = s.trt := rfl
@[simp] theorem State.lower_iku (s : State) (k : Condition) : (s.lower k).iku = s.iku := rfl
@[simp] theorem State.lower_sgc (s : State) (k : Condition) : (s.lower k).sgc = s.sgc := rfl
@[simp] theorem State.lower_jdp (s : State) (k : Condition) : (s.lower k).jdp = s.jdp := rfl
@[simp] theorem State.lower_lanes (s : State) (k : Condition) : (s.lower k).lanes = s.lanes := rfl
@[simp] theorem State.lower_groups (s : State) (k : Condition) : (s.lower k).groups = s.groups := rfl
@[simp] theorem State.lower_stc (s : State) (k : Condition) : (s.lower k).stc = s.stc := rfl
@[simp] theorem State.lower_mem (s : State) (k : Condition) : (s.lower k).mem = s.mem := rfl
@[simp] theorem State.lower_channels (s : State) (k : Condition) : (s.lower k).channels = s.channels := rfl
@[simp] theorem State.lower_freeDraws (s : State) (k : Condition) : (s.lower k).freeDraws = s.freeDraws := rfl

/-! ### reserve -/

@[simp] theorem State.reserve_pending (s : State) (code : Nat) (tag : Word16) :
    (s.reserve code tag).pending = s.pending := rfl
@[simp] theorem State.reserve_sent (s : State) (code : Nat) (tag : Word16) : (s.reserve code tag).sent = s.sent := rfl
@[simp] theorem State.reserve_ccu (s : State) (code : Nat) (tag : Word16) :
    (s.reserve code tag).ccu = { s.ccu with reserved := s.ccu.reserved ++ [⟨code, tag⟩] } := rfl
@[simp] theorem State.reserve_trr (s : State) (code : Nat) (tag : Word16) : (s.reserve code tag).trr = s.trr := rfl
@[simp] theorem State.reserve_trt (s : State) (code : Nat) (tag : Word16) : (s.reserve code tag).trt = s.trt := rfl
@[simp] theorem State.reserve_iku (s : State) (code : Nat) (tag : Word16) : (s.reserve code tag).iku = s.iku := rfl
@[simp] theorem State.reserve_sgc (s : State) (code : Nat) (tag : Word16) : (s.reserve code tag).sgc = s.sgc := rfl
@[simp] theorem State.reserve_jdp (s : State) (code : Nat) (tag : Word16) : (s.reserve code tag).jdp = s.jdp := rfl
@[simp] theorem State.reserve_lanes (s : State) (code : Nat) (tag : Word16) :
    (s.reserve code tag).lanes = s.lanes := rfl
@[simp] theorem State.reserve_groups (s : State) (code : Nat) (tag : Word16) :
    (s.reserve code tag).groups = s.groups := rfl
@[simp] theorem State.reserve_stc (s : State) (code : Nat) (tag : Word16) : (s.reserve code tag).stc = s.stc := rfl
@[simp] theorem State.reserve_mem (s : State) (code : Nat) (tag : Word16) : (s.reserve code tag).mem = s.mem := rfl
@[simp] theorem State.reserve_channels (s : State) (code : Nat) (tag : Word16) :
    (s.reserve code tag).channels = s.channels := rfl
@[simp] theorem State.reserve_freeDraws (s : State) (code : Nat) (tag : Word16) :
    (s.reserve code tag).freeDraws = s.freeDraws := rfl

/-! ### reply -/

@[simp] theorem State.reply_pending (s : State) (code : Nat) (tag : Word16) (result : ReplyCode) (bs : List Byte) :
    (s.reply code tag result bs).pending = s.pending := rfl
@[simp] theorem State.reply_sent (s : State) (code : Nat) (tag : Word16) (result : ReplyCode) (bs : List Byte) :
    (s.reply code tag result bs).sent = s.sent := rfl
@[simp] theorem State.reply_ccu (s : State) (code : Nat) (tag : Word16) (result : ReplyCode) (bs : List Byte) : (s.reply code tag result bs).ccu = { s.ccu with
      reserved := s.ccu.reserved.erase ⟨code, tag⟩, replies := s.ccu.replies ++ [⟨code, tag, result, bs⟩] } := rfl
@[simp] theorem State.reply_trr (s : State) (code : Nat) (tag : Word16) (result : ReplyCode) (bs : List Byte) :
    (s.reply code tag result bs).trr = s.trr := rfl
@[simp] theorem State.reply_trt (s : State) (code : Nat) (tag : Word16) (result : ReplyCode) (bs : List Byte) :
    (s.reply code tag result bs).trt = s.trt := rfl
@[simp] theorem State.reply_iku (s : State) (code : Nat) (tag : Word16) (result : ReplyCode) (bs : List Byte) :
    (s.reply code tag result bs).iku = s.iku := rfl
@[simp] theorem State.reply_sgc (s : State) (code : Nat) (tag : Word16) (result : ReplyCode) (bs : List Byte) :
    (s.reply code tag result bs).sgc = s.sgc := rfl
@[simp] theorem State.reply_jdp (s : State) (code : Nat) (tag : Word16) (result : ReplyCode) (bs : List Byte) :
    (s.reply code tag result bs).jdp = s.jdp := rfl
@[simp] theorem State.reply_lanes (s : State) (code : Nat) (tag : Word16) (result : ReplyCode) (bs : List Byte) :
    (s.reply code tag result bs).lanes = s.lanes := rfl
@[simp] theorem State.reply_groups (s : State) (code : Nat) (tag : Word16) (result : ReplyCode) (bs : List Byte) :
    (s.reply code tag result bs).groups = s.groups := rfl
@[simp] theorem State.reply_stc (s : State) (code : Nat) (tag : Word16) (result : ReplyCode) (bs : List Byte) :
    (s.reply code tag result bs).stc = s.stc := rfl
@[simp] theorem State.reply_mem (s : State) (code : Nat) (tag : Word16) (result : ReplyCode) (bs : List Byte) :
    (s.reply code tag result bs).mem = s.mem := rfl
@[simp] theorem State.reply_channels (s : State) (code : Nat) (tag : Word16) (result : ReplyCode) (bs : List Byte) :
    (s.reply code tag result bs).channels = s.channels := rfl
@[simp] theorem State.reply_freeDraws (s : State) (code : Nat) (tag : Word16) (result : ReplyCode) (bs : List Byte) :
    (s.reply code tag result bs).freeDraws = s.freeDraws := rfl

/-! ### disarm -/

@[simp] theorem State.disarm_pending (s : State) : (s.disarm).pending = s.pending := rfl
@[simp] theorem State.disarm_sent (s : State) : (s.disarm).sent = s.sent := rfl
@[simp] theorem State.disarm_ccu (s : State) : (s.disarm).ccu = { s.ccu with armed := false } := rfl
@[simp] theorem State.disarm_trr (s : State) : (s.disarm).trr = s.trr := rfl
@[simp] theorem State.disarm_trt (s : State) : (s.disarm).trt = s.trt := rfl
@[simp] theorem State.disarm_iku (s : State) : (s.disarm).iku = s.iku := rfl
@[simp] theorem State.disarm_sgc (s : State) : (s.disarm).sgc = s.sgc := rfl
@[simp] theorem State.disarm_jdp (s : State) : (s.disarm).jdp = s.jdp := rfl
@[simp] theorem State.disarm_lanes (s : State) : (s.disarm).lanes = s.lanes := rfl
@[simp] theorem State.disarm_groups (s : State) : (s.disarm).groups = s.groups := rfl
@[simp] theorem State.disarm_stc (s : State) : (s.disarm).stc = s.stc := rfl
@[simp] theorem State.disarm_mem (s : State) : (s.disarm).mem = s.mem := rfl
@[simp] theorem State.disarm_channels (s : State) : (s.disarm).channels = s.channels := rfl
@[simp] theorem State.disarm_freeDraws (s : State) : (s.disarm).freeDraws = s.freeDraws := rfl

/-! ### capDiscard -/

@[simp] theorem State.capDiscard_pending (s : State) : (s.capDiscard).pending = s.pending := rfl
@[simp] theorem State.capDiscard_sent (s : State) : (s.capDiscard).sent = s.sent := rfl
@[simp] theorem State.capDiscard_ccu (s : State) :
    (s.capDiscard).ccu = { s.ccu with controlOverrun := true, discards := min 255 (s.ccu.discards + 1) } := rfl
@[simp] theorem State.capDiscard_trr (s : State) : (s.capDiscard).trr = s.trr := rfl
@[simp] theorem State.capDiscard_trt (s : State) : (s.capDiscard).trt = s.trt := rfl
@[simp] theorem State.capDiscard_iku (s : State) : (s.capDiscard).iku = s.iku := rfl
@[simp] theorem State.capDiscard_sgc (s : State) : (s.capDiscard).sgc = s.sgc := rfl
@[simp] theorem State.capDiscard_jdp (s : State) : (s.capDiscard).jdp = s.jdp := rfl
@[simp] theorem State.capDiscard_lanes (s : State) : (s.capDiscard).lanes = s.lanes := rfl
@[simp] theorem State.capDiscard_groups (s : State) : (s.capDiscard).groups = s.groups := rfl
@[simp] theorem State.capDiscard_stc (s : State) : (s.capDiscard).stc = s.stc := rfl
@[simp] theorem State.capDiscard_mem (s : State) : (s.capDiscard).mem = s.mem := rfl
@[simp] theorem State.capDiscard_channels (s : State) : (s.capDiscard).channels = s.channels := rfl
@[simp] theorem State.capDiscard_freeDraws (s : State) : (s.capDiscard).freeDraws = s.freeDraws := rfl

/-! ### addClaim -/

@[simp] theorem State.addClaim_pending (s : State) (c : Claim) : (s.addClaim c).pending = s.pending := rfl
@[simp] theorem State.addClaim_sent (s : State) (c : Claim) : (s.addClaim c).sent = s.sent := rfl
@[simp] theorem State.addClaim_ccu (s : State) (c : Claim) : (s.addClaim c).ccu = s.ccu := rfl
@[simp] theorem State.addClaim_trr (s : State) (c : Claim) : (s.addClaim c).trr = s.trr := rfl
@[simp] theorem State.addClaim_trt (s : State) (c : Claim) : (s.addClaim c).trt = s.trt := rfl
@[simp] theorem State.addClaim_iku (s : State) (c : Claim) : (s.addClaim c).iku = s.iku := rfl
@[simp] theorem State.addClaim_sgc (s : State) (c : Claim) : (s.addClaim c).sgc = s.sgc := rfl
@[simp] theorem State.addClaim_jdp (s : State) (c : Claim) : (s.addClaim c).jdp = s.jdp := rfl
@[simp] theorem State.addClaim_lanes (s : State) (c : Claim) : (s.addClaim c).lanes = s.lanes := rfl
@[simp] theorem State.addClaim_groups (s : State) (c : Claim) : (s.addClaim c).groups = s.groups := rfl
@[simp] theorem State.addClaim_stc (s : State) (c : Claim) :
    (s.addClaim c).stc = { s.stc with claims := s.stc.claims ++ [c] } := rfl
@[simp] theorem State.addClaim_mem (s : State) (c : Claim) : (s.addClaim c).mem = s.mem := rfl
@[simp] theorem State.addClaim_channels (s : State) (c : Claim) : (s.addClaim c).channels = s.channels := rfl
@[simp] theorem State.addClaim_freeDraws (s : State) (c : Claim) : (s.addClaim c).freeDraws = s.freeDraws := rfl

/-! ### withdrawClaim -/

@[simp] theorem State.withdrawClaim_pending (s : State) (who : Claimant) :
    (s.withdrawClaim who).pending = s.pending := rfl
@[simp] theorem State.withdrawClaim_sent (s : State) (who : Claimant) : (s.withdrawClaim who).sent = s.sent := rfl
@[simp] theorem State.withdrawClaim_ccu (s : State) (who : Claimant) : (s.withdrawClaim who).ccu = s.ccu := rfl
@[simp] theorem State.withdrawClaim_trr (s : State) (who : Claimant) : (s.withdrawClaim who).trr = s.trr := rfl
@[simp] theorem State.withdrawClaim_trt (s : State) (who : Claimant) : (s.withdrawClaim who).trt = s.trt := rfl
@[simp] theorem State.withdrawClaim_iku (s : State) (who : Claimant) : (s.withdrawClaim who).iku = s.iku := rfl
@[simp] theorem State.withdrawClaim_sgc (s : State) (who : Claimant) : (s.withdrawClaim who).sgc = s.sgc := rfl
@[simp] theorem State.withdrawClaim_jdp (s : State) (who : Claimant) : (s.withdrawClaim who).jdp = s.jdp := rfl
@[simp] theorem State.withdrawClaim_lanes (s : State) (who : Claimant) : (s.withdrawClaim who).lanes = s.lanes := rfl
@[simp] theorem State.withdrawClaim_groups (s : State) (who : Claimant) :
    (s.withdrawClaim who).groups = s.groups := rfl
@[simp] theorem State.withdrawClaim_stc (s : State) (who : Claimant) :
    (s.withdrawClaim who).stc = { s.stc with claims := s.stc.claims.filter (fun c => c.who != who) } := rfl
@[simp] theorem State.withdrawClaim_mem (s : State) (who : Claimant) : (s.withdrawClaim who).mem = s.mem := rfl
@[simp] theorem State.withdrawClaim_channels (s : State) (who : Claimant) :
    (s.withdrawClaim who).channels = s.channels := rfl
@[simp] theorem State.withdrawClaim_freeDraws (s : State) (who : Claimant) :
    (s.withdrawClaim who).freeDraws = s.freeDraws := rfl

/-! ### programPage -/

@[simp] theorem State.programPage_pending (s : State) (g page : Nat) (bs : List Byte) :
    (s.programPage g page bs).pending = s.pending := rfl
@[simp] theorem State.programPage_sent (s : State) (g page : Nat) (bs : List Byte) :
    (s.programPage g page bs).sent = s.sent := rfl
@[simp] theorem State.programPage_ccu (s : State) (g page : Nat) (bs : List Byte) :
    (s.programPage g page bs).ccu = s.ccu := rfl
@[simp] theorem State.programPage_trr (s : State) (g page : Nat) (bs : List Byte) :
    (s.programPage g page bs).trr = s.trr := rfl
@[simp] theorem State.programPage_trt (s : State) (g page : Nat) (bs : List Byte) :
    (s.programPage g page bs).trt = s.trt := rfl
@[simp] theorem State.programPage_iku (s : State) (g page : Nat) (bs : List Byte) :
    (s.programPage g page bs).iku = s.iku := rfl
@[simp] theorem State.programPage_sgc (s : State) (g page : Nat) (bs : List Byte) :
    (s.programPage g page bs).sgc = s.sgc := rfl
@[simp] theorem State.programPage_jdp (s : State) (g page : Nat) (bs : List Byte) :
    (s.programPage g page bs).jdp = s.jdp := rfl
@[simp] theorem State.programPage_lanes (s : State) (g page : Nat) (bs : List Byte) :
    (s.programPage g page bs).lanes = s.lanes := rfl
@[simp] theorem State.programPage_groups (s : State) (g page : Nat) (bs : List Byte) :
    (s.programPage g page bs).groups = s.groups := rfl
@[simp] theorem State.programPage_stc (s : State) (g page : Nat) (bs : List Byte) :
    (s.programPage g page bs).stc = s.stc := rfl
@[simp] theorem State.programPage_mem (s : State) (g page : Nat) (bs : List Byte) :
    (s.programPage g page bs).mem = memPut s.mem (pageAddress g page) bs := rfl
@[simp] theorem State.programPage_channels (s : State) (g page : Nat) (bs : List Byte) :
    (s.programPage g page bs).channels = s.channels := rfl
@[simp] theorem State.programPage_freeDraws (s : State) (g page : Nat) (bs : List Byte) :
    (s.programPage g page bs).freeDraws = s.freeDraws := rfl

/-! ### eraseBytes -/

@[simp] theorem State.eraseBytes_pending (s : State) (g : Nat) : (s.eraseBytes g).pending = s.pending := rfl
@[simp] theorem State.eraseBytes_sent (s : State) (g : Nat) : (s.eraseBytes g).sent = s.sent := rfl
@[simp] theorem State.eraseBytes_ccu (s : State) (g : Nat) : (s.eraseBytes g).ccu = s.ccu := rfl
@[simp] theorem State.eraseBytes_trr (s : State) (g : Nat) : (s.eraseBytes g).trr = s.trr := rfl
@[simp] theorem State.eraseBytes_trt (s : State) (g : Nat) : (s.eraseBytes g).trt = s.trt := rfl
@[simp] theorem State.eraseBytes_iku (s : State) (g : Nat) : (s.eraseBytes g).iku = s.iku := rfl
@[simp] theorem State.eraseBytes_sgc (s : State) (g : Nat) : (s.eraseBytes g).sgc = s.sgc := rfl
@[simp] theorem State.eraseBytes_jdp (s : State) (g : Nat) : (s.eraseBytes g).jdp = s.jdp := rfl
@[simp] theorem State.eraseBytes_lanes (s : State) (g : Nat) : (s.eraseBytes g).lanes = s.lanes := rfl
@[simp] theorem State.eraseBytes_groups (s : State) (g : Nat) : (s.eraseBytes g).groups = s.groups := rfl
@[simp] theorem State.eraseBytes_stc (s : State) (g : Nat) : (s.eraseBytes g).stc = s.stc := rfl
@[simp] theorem State.eraseBytes_mem (s : State) (g : Nat) :
    (s.eraseBytes g).mem = memErase s.mem (g * Config.blockBytes) Config.blockBytes := rfl
@[simp] theorem State.eraseBytes_channels (s : State) (g : Nat) : (s.eraseBytes g).channels = s.channels := rfl
@[simp] theorem State.eraseBytes_freeDraws (s : State) (g : Nat) : (s.eraseBytes g).freeDraws = s.freeDraws := rfl

/-! ### writePlace -/

@[simp] theorem State.writePlace_pending (s : State) (k : Nat) (bs : List Byte) :
    (s.writePlace k bs).pending = s.pending := rfl
@[simp] theorem State.writePlace_sent (s : State) (k : Nat) (bs : List Byte) :
    (s.writePlace k bs).sent = s.sent := rfl
@[simp] theorem State.writePlace_ccu (s : State) (k : Nat) (bs : List Byte) : (s.writePlace k bs).ccu = s.ccu := rfl
@[simp] theorem State.writePlace_trr (s : State) (k : Nat) (bs : List Byte) : (s.writePlace k bs).trr = s.trr := rfl
@[simp] theorem State.writePlace_trt (s : State) (k : Nat) (bs : List Byte) : (s.writePlace k bs).trt = s.trt := rfl
@[simp] theorem State.writePlace_iku (s : State) (k : Nat) (bs : List Byte) : (s.writePlace k bs).iku = s.iku := rfl
@[simp] theorem State.writePlace_sgc (s : State) (k : Nat) (bs : List Byte) : (s.writePlace k bs).sgc = s.sgc := rfl
@[simp] theorem State.writePlace_jdp (s : State) (k : Nat) (bs : List Byte) : (s.writePlace k bs).jdp = s.jdp := rfl
@[simp] theorem State.writePlace_lanes (s : State) (k : Nat) (bs : List Byte) :
    (s.writePlace k bs).lanes = s.lanes := rfl
@[simp] theorem State.writePlace_groups (s : State) (k : Nat) (bs : List Byte) :
    (s.writePlace k bs).groups = s.groups := rfl
@[simp] theorem State.writePlace_stc (s : State) (k : Nat) (bs : List Byte) : (s.writePlace k bs).stc = s.stc := rfl
@[simp] theorem State.writePlace_mem (s : State) (k : Nat) (bs : List Byte) :
    (s.writePlace k bs).mem = memPut s.mem (placeAddress k) (bs.take Config.placeBytes) := rfl
@[simp] theorem State.writePlace_channels (s : State) (k : Nat) (bs : List Byte) :
    (s.writePlace k bs).channels = s.channels := rfl
@[simp] theorem State.writePlace_freeDraws (s : State) (k : Nat) (bs : List Byte) :
    (s.writePlace k bs).freeDraws = s.freeDraws := rfl

/-! ### waitExtent -/

@[simp] theorem State.waitExtent_pending (s : State) (k : Nat) : (s.waitExtent k).pending = s.pending := rfl
@[simp] theorem State.waitExtent_sent (s : State) (k : Nat) : (s.waitExtent k).sent = s.sent := rfl
@[simp] theorem State.waitExtent_ccu (s : State) (k : Nat) : (s.waitExtent k).ccu = s.ccu := rfl
@[simp] theorem State.waitExtent_trr (s : State) (k : Nat) : (s.waitExtent k).trr = s.trr := rfl
@[simp] theorem State.waitExtent_trt (s : State) (k : Nat) : (s.waitExtent k).trt = s.trt := rfl
@[simp] theorem State.waitExtent_iku (s : State) (k : Nat) : (s.waitExtent k).iku = s.iku := rfl
@[simp] theorem State.waitExtent_sgc (s : State) (k : Nat) : (s.waitExtent k).sgc = s.sgc := rfl
@[simp] theorem State.waitExtent_jdp (s : State) (k : Nat) :
    (s.waitExtent k).jdp = { s.jdp with waits := s.jdp.waits ++ [k] } := rfl
@[simp] theorem State.waitExtent_lanes (s : State) (k : Nat) : (s.waitExtent k).lanes = s.lanes := rfl
@[simp] theorem State.waitExtent_groups (s : State) (k : Nat) : (s.waitExtent k).groups = s.groups := rfl
@[simp] theorem State.waitExtent_stc (s : State) (k : Nat) : (s.waitExtent k).stc = s.stc := rfl
@[simp] theorem State.waitExtent_mem (s : State) (k : Nat) : (s.waitExtent k).mem = s.mem := rfl
@[simp] theorem State.waitExtent_channels (s : State) (k : Nat) : (s.waitExtent k).channels = s.channels := rfl
@[simp] theorem State.waitExtent_freeDraws (s : State) (k : Nat) : (s.waitExtent k).freeDraws = s.freeDraws := rfl

/-! ### extentFreed -/

@[simp] theorem State.extentFreed_pending (s : State) : (s.extentFreed).pending = s.pending := rfl
@[simp] theorem State.extentFreed_sent (s : State) : (s.extentFreed).sent = s.sent := rfl
@[simp] theorem State.extentFreed_ccu (s : State) : (s.extentFreed).ccu = s.ccu := rfl
@[simp] theorem State.extentFreed_trr (s : State) : (s.extentFreed).trr = s.trr := rfl
@[simp] theorem State.extentFreed_trt (s : State) : (s.extentFreed).trt = s.trt := rfl
@[simp] theorem State.extentFreed_iku (s : State) : (s.extentFreed).iku = s.iku := rfl
@[simp] theorem State.extentFreed_sgc (s : State) : (s.extentFreed).sgc = s.sgc := rfl
@[simp] theorem State.extentFreed_jdp (s : State) : (s.extentFreed).jdp = { s.jdp with waits := [] } := rfl
@[simp] theorem State.extentFreed_lanes (s : State) : (s.extentFreed).lanes = s.lanes := rfl
@[simp] theorem State.extentFreed_groups (s : State) : (s.extentFreed).groups = s.groups := rfl
@[simp] theorem State.extentFreed_stc (s : State) : (s.extentFreed).stc = s.stc := rfl
@[simp] theorem State.extentFreed_mem (s : State) : (s.extentFreed).mem = s.mem := rfl
@[simp] theorem State.extentFreed_channels (s : State) : (s.extentFreed).channels = s.channels := rfl
@[simp] theorem State.extentFreed_freeDraws (s : State) : (s.extentFreed).freeDraws = s.freeDraws := rfl

/-! ### laneReceives -/

@[simp] theorem State.laneReceives_pending (s : State) (n : Nat) (pages : List SourcePage) :
    (s.laneReceives n pages).pending = s.pending := rfl
@[simp] theorem State.laneReceives_sent (s : State) (n : Nat) (pages : List SourcePage) :
    (s.laneReceives n pages).sent = s.sent := rfl
@[simp] theorem State.laneReceives_ccu (s : State) (n : Nat) (pages : List SourcePage) :
    (s.laneReceives n pages).ccu = s.ccu := rfl
@[simp] theorem State.laneReceives_trr (s : State) (n : Nat) (pages : List SourcePage) :
    (s.laneReceives n pages).trr = s.trr := rfl
@[simp] theorem State.laneReceives_trt (s : State) (n : Nat) (pages : List SourcePage) :
    (s.laneReceives n pages).trt = s.trt := rfl
@[simp] theorem State.laneReceives_iku (s : State) (n : Nat) (pages : List SourcePage) :
    (s.laneReceives n pages).iku = s.iku := rfl
@[simp] theorem State.laneReceives_sgc (s : State) (n : Nat) (pages : List SourcePage) :
    (s.laneReceives n pages).sgc = s.sgc := rfl
@[simp] theorem State.laneReceives_jdp (s : State) (n : Nat) (pages : List SourcePage) :
    (s.laneReceives n pages).jdp = s.jdp := rfl
@[simp] theorem State.laneReceives_lanes (s : State) (n : Nat) (pages : List SourcePage) :
    (s.laneReceives n pages).lanes = s.lanes.put n { s.lane n with received := (s.lane n).received ++ pages } := rfl
@[simp] theorem State.laneReceives_groups (s : State) (n : Nat) (pages : List SourcePage) :
    (s.laneReceives n pages).groups = s.groups := rfl
@[simp] theorem State.laneReceives_stc (s : State) (n : Nat) (pages : List SourcePage) :
    (s.laneReceives n pages).stc = s.stc := rfl
@[simp] theorem State.laneReceives_mem (s : State) (n : Nat) (pages : List SourcePage) :
    (s.laneReceives n pages).mem = s.mem := rfl
@[simp] theorem State.laneReceives_channels (s : State) (n : Nat) (pages : List SourcePage) :
    (s.laneReceives n pages).channels = s.channels := rfl
@[simp] theorem State.laneReceives_freeDraws (s : State) (n : Nat) (pages : List SourcePage) :
    (s.laneReceives n pages).freeDraws = s.freeDraws := rfl

end Sys2Proof.Machine
end

