-- ==== Sys2Proof/Laws/Table.lean ====
section
/-! SUPPORT. Reading a table after a write or a removal, and the order of its numbers. -/

namespace Sys2Proof.Machine

variable {α : Type}

@[simp] theorem Table.at?_nil (n : Nat) : Table.at? ([] : Table α) n = none := rfl

@[simp] theorem Table.atD_nil (n : Nat) (d : α) : Table.atD ([] : Table α) n d = d := rfl

theorem Table.at?_cons (k : Nat) (v : α) (t : Table α) (n : Nat) :
    Table.at? ((k, v) :: t) n = if k = n then some v else Table.at? t n := rfl

@[simp] theorem Table.at?_put_same (t : Table α) (n : Nat) (v : α) : (t.put n v).at? n = some v := by
  induction t with
  | nil => simp [Table.put, Table.at?]
  | cons e t ih =>
    obtain ⟨k, w⟩ := e
    unfold Table.put
    split
    · simp [Table.at?]
    · split
      · simp [Table.at?]
      · rename_i h1 h2
        have : k ≠ n := fun h => h2 h.symm
        simp [Table.at?, this, ih]

theorem Table.at?_put_ne (t : Table α) {n m : Nat} (v : α) (h : m ≠ n) : (t.put n v).at? m = t.at? m := by
  have h' : n ≠ m := h.symm
  induction t with
  | nil => simp [Table.put, Table.at?, h']
  | cons e t ih =>
    obtain ⟨k, w⟩ := e
    unfold Table.put
    split
    · simp [Table.at?, h']
    · split
      · rename_i h1 h2
        subst h2
        simp [Table.at?, h']
      · simp [Table.at?, ih]

theorem Table.at?_put (t : Table α) (n m : Nat) (v : α) :
    (t.put n v).at? m = if m = n then some v else t.at? m := by
  by_cases h : m = n
  · subst h
    simp
  · simp [h, Table.at?_put_ne t v h]

@[simp] theorem Table.atD_put_same (t : Table α) (n : Nat) (v d : α) : (t.put n v).atD n d = v := by
  simp [Table.atD]

theorem Table.atD_put_ne (t : Table α) {n m : Nat} (v d : α) (h : m ≠ n) : (t.put n v).atD m d = t.atD m d := by
  simp [Table.atD, Table.at?_put_ne t v h]

theorem Table.atD_put (t : Table α) (n m : Nat) (v d : α) :
    (t.put n v).atD m d = if m = n then v else t.atD m d := by
  by_cases h : m = n
  · subst h
    simp
  · simp [h, Table.atD_put_ne t v d h]

@[simp] theorem Table.at?_del_same (t : Table α) (n : Nat) : (t.del n).at? n = none := by
  induction t with
  | nil => rfl
  | cons e t ih =>
    obtain ⟨k, w⟩ := e
    by_cases h : k = n
    · simpa [Table.del, h] using ih
    · have h2 : (Table.del ((k, w) :: t) n) = (k, w) :: Table.del t n := by simp [Table.del, h]
      rw [h2, Table.at?_cons, if_neg h, ih]

theorem Table.at?_del_ne (t : Table α) {n m : Nat} (h : m ≠ n) : (t.del n).at? m = t.at? m := by
  induction t with
  | nil => rfl
  | cons e t ih =>
    obtain ⟨k, w⟩ := e
    by_cases hk : k = n
    · have h2 : (Table.del ((k, w) :: t) n) = Table.del t n := by simp [Table.del, hk]
      have h3 : k ≠ m := by
        intro e
        exact h (e.symm.trans hk)
      rw [h2, ih, Table.at?_cons, if_neg h3]
    · have h2 : (Table.del ((k, w) :: t) n) = (k, w) :: Table.del t n := by simp [Table.del, hk]
      rw [h2, Table.at?_cons, Table.at?_cons, ih]

theorem Table.sorted_del (t : Table α) (n : Nat) (h : Table.sorted t) : Table.sorted (t.del n) := by
  refine List.Pairwise.sublist ?_ h
  exact List.Sublist.map _ List.filter_sublist

/-- Every number of a table after a write is the number written or one that was there. -/
theorem Table.mem_put (t : Table α) (n : Nat) (v : α) {k : Nat} (h : k ∈ (t.put n v).map (fun e => e.1)) :
    k = n ∨ k ∈ t.map (fun e => e.1) := by
  induction t with
  | nil => simpa [Table.put] using h
  | cons e t ih =>
    obtain ⟨j, w⟩ := e
    unfold Table.put at h
    split at h
    · simpa using h
    · split at h
      · rename_i h1 h2
        simp only [List.map_cons, List.mem_cons] at h ⊢
        rcases h with h | h
        · exact Or.inl h
        · exact Or.inr (Or.inr h)
      · simp only [List.map_cons, List.mem_cons] at h ⊢
        rcases h with h | h
        · exact Or.inr (Or.inl h)
        · rcases ih h with h | h
          · exact Or.inl h
          · exact Or.inr (Or.inr h)

theorem Table.sorted_put (t : Table α) (n : Nat) (v : α) (h : Table.sorted t) : Table.sorted (t.put n v) := by
  induction t with
  | nil => simp [Table.put, Table.sorted]
  | cons e t ih =>
    obtain ⟨k, w⟩ := e
    unfold Table.sorted at h ih ⊢
    simp only [List.map_cons, List.pairwise_cons] at h
    unfold Table.put
    split
    · rename_i hlt
      simp only [List.map_cons, List.pairwise_cons, List.mem_cons]
      refine ⟨?_, h.1, h.2⟩
      intro a ha
      rcases ha with ha | ha
      · exact ha ▸ hlt
      · exact Nat.lt_trans hlt (h.1 a ha)
    · split
      · rename_i h1 h2
        subst h2
        simpa [List.pairwise_cons] using h
      · rename_i h1 h2
        simp only [List.map_cons, List.pairwise_cons]
        refine ⟨?_, ih h.2⟩
        intro a ha
        rcases Table.mem_put t n v ha with ha | ha
        · omega
        · exact h.1 a ha

theorem Table.mem_enter (t : Table α) (n : Nat) (v : α) (e : Nat × α) : e ∈ t.enter n v ↔ e = (n, v) ∨ e ∈ t := by
  induction t with
  | nil => simp [Table.enter]
  | cons a t ih =>
    unfold Table.enter
    split
    · simp
    · simp only [List.mem_cons, ih]
      exact or_left_comm

/-- What a list of entries leaves in a table holds each of them, whatever their numbers. -/
theorem Table.mem_foldl_enter {β : Type} (l : List β) (f : β → Nat) (g : β → α) (t : Table α) (e : Nat × α) :
    e ∈ l.foldl (fun t b => t.enter (f b) (g b)) t ↔ e ∈ t ∨ ∃ b ∈ l, e = (f b, g b) := by
  induction l generalizing t with
  | nil => simp
  | cons b l ih =>
    simp only [List.foldl_cons, ih, Table.mem_enter, List.mem_cons, exists_eq_or_imp]
    tauto

@[simp] theorem PerRole.get_set_same (p : PerRole α) (r : Role) (v : α) : (p.set r v).get r = v := by
  cases r <;> rfl

theorem PerRole.get_set_ne (p : PerRole α) {r q : Role} (v : α) (h : q ≠ r) : (p.set r v).get q = p.get q := by
  cases r <;> cases q <;> first | rfl | exact absurd rfl h

@[simp] theorem PerRole.get_all (v : α) (r : Role) : (PerRole.all v).get r = v := by
  cases r <;> rfl

@[simp] theorem PerRole.get_map {β : Type} (p : PerRole α) (f : Role → α → β) (r : Role) :
    (p.map f).get r = f r (p.get r) := by
  cases r <;> rfl

end Sys2Proof.Machine
end

