-- ==== Sys2Proof/Laws/Still.lean ====
section
/-! SUPPORT. The registers of `State.still` under every operation that is no reset, no directive's own act, no trunk
frame and no end of a bank operation: each leaves them all as they were. -/

set_option linter.unusedTactic false
set_option linter.unnecessarySeqFocus false
set_option linter.unusedSimpArgs false

namespace Sys2Proof.Machine

/-! ### Messages that are no directives -/


@[simp] theorem isDirective_unitNotice : ∀ n, Instr.isDirective (.unitNotice n) = false := fun _ => rfl
@[simp] theorem isDirective_roleEndNotice : ∀ a b, Instr.isDirective (.roleEndNotice a b) = false := fun _ _ => rfl
@[simp] theorem isDirective_lateDropReport : ∀ a b c, Instr.isDirective (.lateDropReport a b c) = false := fun _ _ _ => rfl
@[simp] theorem isDirective_overrunReport : ∀ a, Instr.isDirective (.overrunReport a) = false := fun _ => rfl
@[simp] theorem isDirective_jobOutcome : ∀ a b c d, Instr.isDirective (.jobOutcome a b c d) = false := fun _ _ _ _ => rfl
@[simp] theorem isDirective_jobRecordFreed : Instr.isDirective (.jobRecordFreed) = false := rfl
@[simp] theorem isDirective_extentRecordFreed : Instr.isDirective (.extentRecordFreed) = false := rfl
@[simp] theorem isDirective_channelWake : ∀ a, Instr.isDirective (.channelWake a) = false := fun _ => rfl
@[simp] theorem isDirective_sourceLowMark : ∀ a b c, Instr.isDirective (.sourceLowMark a b c) = false := fun _ _ _ => rfl
@[simp] theorem isDirective_discardRequest : ∀ a b, Instr.isDirective (.discardRequest a b) = false := fun _ _ => rfl
@[simp] theorem isDirective_payloadCell : ∀ a b, Instr.isDirective (.payloadCell a b) = false := fun _ _ => rfl
@[simp] theorem isDirective_controlCell : ∀ a, Instr.isDirective (.controlCell a) = false := fun _ => rfl

/-! ### Updates -/

/-- A state that differs in none of these registers. -/
theorem still_mk (s : State) (sent : List Instr) (ccu : Ccu) (iku : Iku) (sgc : Sgc) (jdp : Jdp) (lanes : Table Lane)
    (stc : Stc) (channels : Table Channel)
    (h1 : sent.filter Instr.isDirective = s.sent.filter Instr.isDirective)
    (h2 : ccu.reserved = s.ccu.reserved) (h3 : ccu.replies = s.ccu.replies)
    (h4 : ccu.controlOverrun = s.ccu.controlOverrun) (h5 : ccu.discards = s.ccu.discards)
    (h6 : ccu.armed = s.ccu.armed) (h7 : ccu.cause = s.ccu.cause)
    (h8 : sgc.profiles = s.sgc.profiles) (h9 : jdp.floor = s.jdp.floor) (h10 : jdp.preemption = s.jdp.preemption)
    (h11 : stc.lowMark = s.stc.lowMark) (h12 : stc.ready = s.stc.ready)
    (h13 : stc.scrubRemaining = s.stc.scrubRemaining) (h14 : stc.emptyPlaces = s.stc.emptyPlaces)
    (h15 : stc.spoiled = s.stc.spoiled) (h16 : stc.unreadable = s.stc.unreadable)
    (h17 : ccu.conditions.trunkSync = s.ccu.conditions.trunkSync)
    (h18 : ccu.conditions.returnLost = s.ccu.conditions.returnLost)
    (h19 : ccu.conditions.groupSupply = s.ccu.conditions.groupSupply) :
    (State.mk s.pending sent ccu s.trr s.trt iku sgc jdp lanes s.groups stc s.mem channels s.freeDraws).still
      = s.still := by
  simp [State.still, h1, h2, h3, h4, h5, h6, h7, h8, h9, h10, h11, h12, h13, h14, h15, h16, h17, h18, h19]

theorem send_still (s : State) (m : Instr) (h : Instr.isDirective m = false) : (s.send m).still = s.still :=
  still_mk s _ _ _ _ _ _ _ _ (by simp [h]) rfl rfl rfl rfl rfl rfl rfl rfl rfl rfl rfl rfl rfl rfl rfl
    rfl rfl rfl

theorem received_still (s : State) (m : Instr) (h : Instr.isDirective m = false) : (s.received m).still = s.still :=
  still_mk s _ _ _ _ _ _ _ _ (by
    show (s.sent.erase m).filter Instr.isDirective = _
    induction s.sent with
    | nil => rfl
    | cons a t ih =>
      by_cases e : a = m
      · subst e
        simp [h]
      · rw [List.erase_cons_tail (by simpa using e), List.filter_cons, List.filter_cons, ih]) rfl rfl rfl rfl rfl rfl rfl
    rfl rfl rfl rfl rfl rfl rfl rfl rfl rfl rfl

theorem foldl_still {α : Type} (f : State → α → State) (h : ∀ s a, (f s a).still = s.still) (l : List α) (s : State) :
    (l.foldl f s).still = s.still := by
  induction l generalizing s with
  | nil => rfl
  | cons a t ih => rw [List.foldl_cons, ih, h]

/-- Taking messages out that are no directives. -/
theorem filter_directives (l : List Instr) (p : Instr → Bool) (h : ∀ m, Instr.isDirective m = true → p m = true) :
    (l.filter p).filter Instr.isDirective = l.filter Instr.isDirective := by
  rw [List.filter_filter]
  apply List.filter_congr
  intro m _
  cases hm : Instr.isDirective m
  · rfl
  · simp [h m hm]

@[simp] theorem State.setLane_still (s : State) (n : Nat) (x : Lane) : (s.setLane n x).still = s.still := rfl
@[simp] theorem State.setChannel_still (s : State) (c : Nat) (x : Channel) : (s.setChannel c x).still = s.still := rfl
@[simp] theorem State.setLecture_still (s : State) (slot : Nat) (x : Lecture) : (s.setLecture slot x).still = s.still := rfl
@[simp] theorem State.setIntake_still (s : State) (slot : Nat) (r : Role) (x : IntakeRec) : (s.setIntake slot r x).still = s.still := rfl
@[simp] theorem State.setDiscard_still (s : State) (slot : Nat) (x : DiscardSetting) : (s.setDiscard slot x).still = s.still := rfl
@[simp] theorem State.setBank_still (s : State) (b : Nat) (x : Bank) : (s.setBank b x).still = s.still := rfl
@[simp] theorem State.setBlock_still (s : State) (g : Nat) (x : BlockRec) : (s.setBlock g x).still = s.still := rfl
@[simp] theorem State.setRun_still (s : State) (slot : Nat) (r : Role) (x : Run) : (s.setRun slot r x).still = s.still := rfl
@[simp] theorem State.setExtent_still (s : State) (n : Nat) (x : Extent) : (s.setExtent n x).still = s.still := rfl
@[simp] theorem State.setBuf_still (s : State) (i : Nat) (x : Buf) : (s.setBuf i x).still = s.still := rfl
@[simp] theorem State.freeBuf_still (s : State) (i : Nat) : (s.freeBuf i).still = s.still := rfl
@[simp] theorem State.setJob_still (s : State) (j : Nat) (x : Job) : (s.setJob j x).still = s.still := rfl
@[simp] theorem State.queueEvent_still (s : State) (o : EventObject) (k : EventKind) (c : List Byte) : (s.queueEvent o k c).still = s.still := rfl
@[simp] theorem State.setBlockState_still (s : State) (g : Nat) (st : BlockState) : (s.setBlockState g st).still = s.still := rfl
@[simp] theorem State.groupEvent_still (s : State) (g : Nat) (byFault : Bool) : (s.groupEvent g byFault).still = s.still := rfl

@[simp] theorem Jdp.setList_floor (d : Jdp) (c : LectureClass) (l : List Nat) : (d.setList c l).floor = d.floor := by
  cases c <;> rfl

@[simp] theorem Jdp.setList_preemption (d : Jdp) (c : LectureClass) (l : List Nat) :
    (d.setList c l).preemption = d.preemption := by
  cases c <;> rfl

/-! ### Conditions -/

theorem State.lower_still (s : State) (k : Condition) (h : k.ofWork = true) : (s.lower k).still = s.still := by
  cases k <;> first | rfl | cases h

theorem State.raise_still (s : State) (k : Condition) (h : k.ofWork = true) : (s.raise k).still = s.still := by
  unfold State.raise
  split
  · rfl
  · unfold State.queueAlarm
    split <;> cases k <;> first | rfl | cases h

theorem State.level_still (s : State) (k : Condition) (b : Bool) (h : k.ofWork = true) :
    (s.level k b).still = s.still := by
  unfold State.level
  split
  · exact State.raise_still s k h
  · exact State.lower_still s k h

@[simp] theorem State.raise_storeExhausted_still (s : State) : (s.raise .storeExhausted).still = s.still := State.raise_still s _ rfl
@[simp] theorem State.raise_storeLow_still (s : State) : (s.raise .storeLow).still = s.still := State.raise_still s _ rfl
@[simp] theorem State.raise_badlistFull_still (s : State) : (s.raise .badlistFull).still = s.still := State.raise_still s _ rfl
@[simp] theorem State.raise_laneFailed_still (s : State) : (s.raise .laneFailed).still = s.still := State.raise_still s _ rfl
@[simp] theorem State.raise_intakeOverrun_still (s : State) : (s.raise .intakeOverrun).still = s.still := State.raise_still s _ rfl
@[simp] theorem State.raise_jobFailed_still (s : State) : (s.raise .jobFailed).still = s.still := State.raise_still s _ rfl
@[simp] theorem State.level_storeExhausted_still (s : State) (b : Bool) : (s.level .storeExhausted b).still = s.still :=
  State.level_still s _ b rfl
@[simp] theorem State.level_storeLow_still (s : State) (b : Bool) : (s.level .storeLow b).still = s.still :=
  State.level_still s _ b rfl
@[simp] theorem State.level_laneFailed_still (s : State) (b : Bool) : (s.level .laneFailed b).still = s.still :=
  State.level_still s _ b rfl

/-! ### Ops -/

@[simp] theorem State.queueAlarm_still (s : State) :
    (State.queueAlarm s).still = s.still := by
  unfold State.queueAlarm
  split <;> rfl

@[simp] theorem State.lectureEvent_still (s : State) (slot : Nat) :
    (State.lectureEvent s slot).still = s.still := by
  unfold State.lectureEvent
  try dsimp only
  (repeat' split) <;> try simp [*, still_mk, send_still, received_still]

@[simp] theorem State.laneEvent_still (s : State) (n : Nat) :
    (State.laneEvent s n).still = s.still := by
  unfold State.laneEvent
  try dsimp only
  (repeat' split) <;> try simp [*, still_mk, send_still, received_still]

@[simp] theorem State.channelEvent_still (s : State) (c : Nat) :
    (State.channelEvent s c).still = s.still := by
  unfold State.channelEvent
  try dsimp only
  (repeat' split) <;> try simp [*, still_mk, send_still, received_still]

@[simp] theorem State.trunkEvent_still (s : State) :
    (State.trunkEvent s).still = s.still := by
  unfold State.trunkEvent
  try dsimp only
  (repeat' split) <;> try simp [*, still_mk, send_still, received_still]

/-! ### Store -/

@[simp] theorem State.storeEvent_still (s : State) :
    (State.storeEvent s).still = s.still := by
  unfold State.storeEvent
  try dsimp only
  (repeat' split) <;> try simp [*, still_mk, send_still, received_still]

@[simp] theorem State.evalLevels_still (s : State) :
    (State.evalLevels s).still = s.still := by
  unfold State.evalLevels
  try dsimp only
  (repeat' split) <;> try simp [*, still_mk, send_still, received_still]

@[simp] theorem State.badlistFull_still (s : State) :
    (State.badlistFull s).still = s.still := by
  unfold State.badlistFull
  try dsimp only
  (repeat' split) <;> try simp [*, still_mk, send_still, received_still]

@[simp] theorem State.startProgram_still (s : State) (b : Nat) (x : Bank) (p : ProgramReq) :
    (State.startProgram s b x p).still = s.still := by
  unfold State.startProgram
  try dsimp only
  (repeat' split) <;> try simp [*, still_mk, send_still, received_still]

@[simp] theorem State.grantCopy_still (s : State) (b : Nat) (x : Bank) (l : List CopyReq) :
    (State.grantCopy s b x l).1.still = s.still := by
  induction l generalizing s with
  | nil => simp [State.grantCopy]
  | cons c t ih =>
    cases c with
    | read r => simp [State.grantCopy]
    | program p => simp [State.grantCopy]
    | append g =>
      simp only [State.grantCopy]
      split <;> simp [ih]

@[simp] theorem State.grantErase_still (s : State) (b : Nat) :
    (State.grantErase s b).still = s.still := by
  unfold State.grantErase
  try dsimp only
  (repeat' split) <;> try simp [*, still_mk, send_still, received_still]

@[simp] theorem State.arbitrate_still (s : State) (b : Nat) :
    (State.arbitrate s b).still = s.still := by
  unfold State.arbitrate
  try dsimp only
  (repeat' split) <;> try simp [*, still_mk, send_still, received_still]

@[simp] theorem State.afterJoin_still (s : State) (b : Nat) :
    (State.afterJoin s b).still = s.still := by
  unfold State.afterJoin
  try dsimp only
  (repeat' split) <;> try simp [*, still_mk, send_still, received_still]

@[simp] theorem State.joinCopy_still (s : State) (b : Nat) (r : CopyReq) :
    (State.joinCopy s b r).still = s.still := by
  unfold State.joinCopy
  try dsimp only
  (repeat' split) <;> try simp [*, still_mk, send_still, received_still]

@[simp] theorem State.joinDeliveryRead_still (s : State) (r : ReadReq) :
    (State.joinDeliveryRead s r).still = s.still := by
  unfold State.joinDeliveryRead
  try dsimp only
  (repeat' split) <;> try simp [*, still_mk, send_still, received_still]

@[simp] theorem State.joinLaneRead_still (s : State) (r : ReadReq) :
    (State.joinLaneRead s r).still = s.still := by
  unfold State.joinLaneRead
  try dsimp only
  (repeat' split) <;> try simp [*, still_mk, send_still, received_still]

@[simp] theorem State.mapBanks_still (s : State) (f : Bank → Bank) :
    (State.mapBanks s f).still = s.still := by
  unfold State.mapBanks
  try dsimp only
  (repeat' split) <;> try simp [*, still_mk, send_still, received_still]

@[simp] theorem State.withdrawReads_still (s : State) (who : Reader → Bool) :
    (State.withdrawReads s who).still = s.still := by
  unfold State.withdrawReads
  try dsimp only
  (repeat' split) <;> try simp [*, still_mk, send_still, received_still]

@[simp] theorem State.retireBlock_still (s : State) (g : Nat) :
    (State.retireBlock s g).still = s.still := by
  unfold State.retireBlock
  try dsimp only
  (repeat' split) <;> try simp [*, still_mk, send_still, received_still]

@[simp] theorem State.badBlock_still (s : State) (g : Nat) :
    (State.badBlock s g).still = s.still := by
  unfold State.badBlock
  try dsimp only
  (repeat' split) <;> try simp [*, still_mk, send_still, received_still]

@[simp] theorem State.takeBlock_still (s : State) (g : Nat) :
    (State.takeBlock s g).still = s.still := by
  unfold State.takeBlock
  try dsimp only
  (repeat' split) <;> try simp [*, still_mk, send_still, received_still]

@[simp] theorem State.giveBuffer_still (s : State) (o : BufOwner) (g page : Nat) :
    (State.giveBuffer s o g page).still = s.still := by
  unfold State.giveBuffer
  try dsimp only
  (repeat' split) <;> try simp [*, still_mk, send_still, received_still]

@[simp] theorem State.offer_still (s : State) (i : Nat) :
    (State.offer s i).still = s.still := by
  unfold State.offer
  try dsimp only
  (repeat' split) <;> try simp [*, still_mk, send_still, received_still]

@[simp] theorem State.discardBuf_still (s : State) (i : Nat) :
    (State.discardBuf s i).still = s.still := by
  unfold State.discardBuf
  try dsimp only
  (repeat' split) <;> try simp [*, still_mk, send_still, received_still]

@[simp] theorem State.discardWhere_still (s : State) (p : Buf → Bool) :
    (State.discardWhere s p).still = s.still := by
  unfold State.discardWhere
  try dsimp only
  (repeat' split) <;> try simp [*, still_mk, send_still, received_still]
  all_goals try refine (foldl_still _ (fun q e => ?_) _ _).trans ?_
  all_goals try dsimp only
  all_goals (repeat' split) <;> try simp [*, still_mk, send_still, received_still]
  all_goals try refine (foldl_still _ (fun q e => ?_) _ _).trans ?_
  all_goals (repeat' split) <;> try simp [*, still_mk, send_still, received_still]

@[simp] theorem State.discardUncommitted_still (s : State) (n : Nat) :
    (State.discardUncommitted s n).still = s.still := by
  unfold State.discardUncommitted
  try dsimp only
  (repeat' split) <;> try simp [*, still_mk, send_still, received_still]
  all_goals try refine (foldl_still _ (fun q e => ?_) _ _).trans ?_
  all_goals try dsimp only
  all_goals (repeat' split) <;> try simp [*, still_mk, send_still, received_still]
  all_goals try refine (foldl_still _ (fun q e => ?_) _ _).trans ?_
  all_goals (repeat' split) <;> try simp [*, still_mk, send_still, received_still]

@[simp] theorem State.losePages_still (s : State) (g : Nat) (pages : List Nat) :
    (State.losePages s g pages).still = s.still := by
  unfold State.losePages
  try dsimp only
  (repeat' split) <;> try simp [*, still_mk, send_still, received_still]

@[simp] theorem State.protectTest_still (s : State) (g : Nat) :
    (State.protectTest s g).still = s.still := by
  unfold State.protectTest
  try dsimp only
  (repeat' split) <;> try simp [*, still_mk, send_still, received_still]

@[simp] theorem State.addClaim_still (s : State) (c : Claim) :
    (State.addClaim s c).still = s.still := by
  unfold State.addClaim
  try dsimp only
  (repeat' split) <;> try simp [*, still_mk, send_still, received_still]

@[simp] theorem State.withdrawClaim_still (s : State) (who : Claimant) :
    (State.withdrawClaim s who).still = s.still := by
  unfold State.withdrawClaim
  try dsimp only
  (repeat' split) <;> try simp [*, still_mk, send_still, received_still]

@[simp] theorem State.setReloc_still (s : State) (x : Relocation) :
    (State.setReloc s x).still = s.still := by
  unfold State.setReloc
  try dsimp only
  (repeat' split) <;> try simp [*, still_mk, send_still, received_still]

@[simp] theorem State.dropReloc_still (s : State) (failed : Nat) :
    (State.dropReloc s failed).still = s.still := by
  unfold State.dropReloc
  try dsimp only
  (repeat' split) <;> try simp [*, still_mk, send_still, received_still]

@[simp] theorem State.copyOn_still (s : State) (o : Owner) (most : Nat) :
    (State.copyOn s o most).still = s.still := by
  unfold State.copyOn
  try dsimp only
  (repeat' split) <;> try simp [*, still_mk, send_still, received_still]
  all_goals try refine (foldl_still _ (fun q e => ?_) _ _).trans ?_
  all_goals try dsimp only
  all_goals (repeat' split) <;> try simp [*, still_mk, send_still, received_still]
  all_goals try refine (foldl_still _ (fun q e => ?_) _ _).trans ?_
  all_goals (repeat' split) <;> try simp [*, still_mk, send_still, received_still]

@[simp] theorem State.takeTarget_still (s : State) (r : Relocation) (g : Nat) :
    (State.takeTarget s r g).still = s.still := by
  unfold State.takeTarget
  try dsimp only
  (repeat' split) <;> try simp [*, still_mk, send_still, received_still]

@[simp] theorem State.askTarget_still (s : State) (r : Relocation) :
    (State.askTarget s r).still = s.still := by
  unfold State.askTarget
  try dsimp only
  (repeat' split) <;> try simp [*, still_mk, send_still, received_still]

@[simp] theorem State.nextReloc_still (s : State) (o : Owner) :
    (State.nextReloc s o).still = s.still := by
  unfold State.nextReloc
  try dsimp only
  (repeat' split) <;> try simp [*, still_mk, send_still, received_still]

@[simp] theorem State.startReloc_still (s : State) (o : Owner) (g page i : Nat) :
    (State.startReloc s o g page i).still = s.still := by
  unfold State.startReloc
  try dsimp only
  (repeat' split) <;> try simp [*, still_mk, send_still, received_still]
  all_goals try refine (foldl_still _ (fun q e => ?_) _ _).trans ?_
  all_goals try dsimp only
  all_goals (repeat' split) <;> try simp [*, still_mk, send_still, received_still]
  all_goals try refine (foldl_still _ (fun q e => ?_) _ _).trans ?_
  all_goals (repeat' split) <;> try simp [*, still_mk, send_still, received_still]

@[simp] theorem State.replaceBlock_still (s : State) (o : Owner) (failed target : Nat) :
    (State.replaceBlock s o failed target).still = s.still := by
  unfold State.replaceBlock
  try dsimp only
  (repeat' split) <;> try simp [*, still_mk, send_still, received_still]

@[simp] theorem State.moveReads_still (s : State) (failed target : Nat) :
    (State.moveReads s failed target).still = s.still := by
  unfold State.moveReads
  try dsimp only
  (repeat' split) <;> try simp [*, still_mk, send_still, received_still]
  all_goals try refine (foldl_still _ (fun q e => ?_) _ _).trans ?_
  all_goals try dsimp only
  all_goals (repeat' split) <;> try simp [*, still_mk, send_still, received_still]
  all_goals try refine (foldl_still _ (fun q e => ?_) _ _).trans ?_
  all_goals (repeat' split) <;> try simp [*, still_mk, send_still, received_still]

@[simp] theorem State.switchReloc_still (s : State) (r : Relocation) (t i : Nat) :
    (State.switchReloc s r t i).still = s.still := by
  unfold State.switchReloc
  try dsimp only
  (repeat' split) <;> try simp [*, still_mk, send_still, received_still]
  all_goals try refine (foldl_still _ (fun q e => ?_) _ _).trans ?_
  all_goals try dsimp only
  all_goals (repeat' split) <;> try simp [*, still_mk, send_still, received_still]
  all_goals try refine (foldl_still _ (fun q e => ?_) _ _).trans ?_
  all_goals (repeat' split) <;> try simp [*, still_mk, send_still, received_still]

@[simp] theorem State.retryReloc_still (s : State) (r : Relocation) (t i : Nat) :
    (State.retryReloc s r t i).still = s.still := by
  unfold State.retryReloc
  try dsimp only
  (repeat' split) <;> try simp [*, still_mk, send_still, received_still]

@[simp] theorem State.abandonReloc_still (s : State) (r : Relocation) :
    (State.abandonReloc s r).still = s.still := by
  unfold State.abandonReloc
  try dsimp only
  (repeat' split) <;> try simp [*, still_mk, send_still, received_still]

@[simp] theorem State.giveUpBlocks_still (s : State) (o : Owner) (blocks : List Nat) :
    (State.giveUpBlocks s o blocks).still = s.still := by
  unfold State.giveUpBlocks
  try dsimp only
  (repeat' split) <;> try simp [*, still_mk, send_still, received_still]
  all_goals try refine (foldl_still _ (fun q e => ?_) _ _).trans ?_
  all_goals try dsimp only
  all_goals (repeat' split) <;> try simp [*, still_mk, send_still, received_still]
  all_goals try refine (foldl_still _ (fun q e => ?_) _ _).trans ?_
  all_goals (repeat' split) <;> try simp [*, still_mk, send_still, received_still]

@[simp] theorem State.retireHead_still (s : State) (slot : Nat) (r : Role) (x : Run) (g : Nat) (rest : List Nat) :
    (State.retireHead s slot r x g rest).still = s.still := by
  unfold State.retireHead
  try dsimp only
  (repeat' split) <;> try simp [*, still_mk, send_still, received_still]
  all_goals try refine (foldl_still _ (fun q e => ?_) _ _).trans ?_
  all_goals try dsimp only
  all_goals (repeat' split) <;> try simp [*, still_mk, send_still, received_still]
  all_goals try refine (foldl_still _ (fun q e => ?_) _ _).trans ?_
  all_goals (repeat' split) <;> try simp [*, still_mk, send_still, received_still]

@[simp] theorem State.retireHeads_still (s : State) (slot : Nat) (r : Role) (n : Nat) :
    (State.retireHeads s slot r n).still = s.still := by
  induction n generalizing s with
  | zero => rfl
  | succ n ih =>
    unfold State.retireHeads
    (repeat' split) <;> simp [ih]

@[simp] theorem State.retireTest_still (s : State) (slot : Nat) (r : Role) :
    (State.retireTest s slot r).still = s.still := by
  unfold State.retireTest
  try dsimp only
  (repeat' split) <;> try simp [*, still_mk, send_still, received_still]

@[simp] theorem State.releaseRun_still (s : State) (slot : Nat) (r : Role) :
    (State.releaseRun s slot r).still = s.still := by
  unfold State.releaseRun
  split
  · rfl
  · rw [still_mk]
    · simp
    all_goals try rfl
    apply filter_directives
    intro m hm
    cases m <;> first | rfl | exact absurd hm (by simp)

@[simp] theorem State.takeExtent_still (s : State) (n slot segment rendition : Nat) (st : ExtentState) :
    (State.takeExtent s n slot segment rendition st).still = s.still := by
  unfold State.takeExtent
  try dsimp only
  (repeat' split) <;> try simp [*, still_mk, send_still, received_still]

@[simp] theorem State.freeExtentRecord_still (s : State) (n : Nat) (x : Extent) :
    (State.freeExtentRecord s n x).still = s.still := by
  unfold State.freeExtentRecord
  rw [send_still _ _ rfl, still_mk]
  · simp
  all_goals rfl

@[simp] theorem State.giveUpExtent_still (s : State) (n slot segment rendition : Nat) :
    (State.giveUpExtent s n slot segment rendition).still = s.still := by
  unfold State.giveUpExtent
  try dsimp only
  (repeat' split) <;> try simp [*, still_mk, send_still, received_still]

@[simp] theorem State.releaseExtent_still (s : State) (n slot segment rendition : Nat) :
    (State.releaseExtent s n slot segment rendition).still = s.still := by
  unfold State.releaseExtent
  try dsimp only
  (repeat' split) <;> try simp [*, still_mk, send_still, received_still]

@[simp] theorem State.protectExtent_still (s : State) (n slot segment rendition : Nat) :
    (State.protectExtent s n slot segment rendition).still = s.still := by
  unfold State.protectExtent
  try dsimp only
  (repeat' split) <;> try simp [*, still_mk, send_still, received_still]
  all_goals try refine (foldl_still _ (fun q e => ?_) _ _).trans ?_
  all_goals try dsimp only
  all_goals (repeat' split) <;> try simp [*, still_mk, send_still, received_still]
  all_goals try refine (foldl_still _ (fun q e => ?_) _ _).trans ?_
  all_goals (repeat' split) <;> try simp [*, still_mk, send_still, received_still]

@[simp] theorem State.padBuffer_still (s : State) (i : Nat) :
    (State.padBuffer s i).still = s.still := by
  unfold State.padBuffer
  try dsimp only
  (repeat' split) <;> try simp [*, still_mk, send_still, received_still]

@[simp] theorem State.sealTail_still (s : State) (o : Owner) (blocks : List Nat) :
    (State.sealTail s o blocks).still = s.still := by
  unfold State.sealTail
  try dsimp only
  (repeat' split) <;> try simp [*, still_mk, send_still, received_still]

@[simp] theorem State.closeExtent_still (s : State) (n slot segment rendition : Nat) :
    (State.closeExtent s n slot segment rendition).still = s.still := by
  unfold State.closeExtent
  try dsimp only
  (repeat' split) <;> try simp [*, still_mk, send_still, received_still]

@[simp] theorem State.commitExtent_still (s : State) (n : Nat) (x : Extent) (length : Nat) :
    (State.commitExtent s n x length).still = s.still := by
  unfold State.commitExtent
  try dsimp only
  (repeat' split) <;> try simp [*, still_mk, send_still, received_still]
  all_goals try refine (foldl_still _ (fun q e => ?_) _ _).trans ?_
  all_goals try dsimp only
  all_goals (repeat' split) <;> try simp [*, still_mk, send_still, received_still]
  all_goals try refine (foldl_still _ (fun q e => ?_) _ _).trans ?_
  all_goals (repeat' split) <;> try simp [*, still_mk, send_still, received_still]

@[simp] theorem State.appendRunBlock_still (s : State) (slot : Nat) (r : Role) (x : Run) (g : Nat) :
    (State.appendRunBlock s slot r x g).still = s.still := by
  unfold State.appendRunBlock
  try dsimp only
  (repeat' split) <;> try simp [*, still_mk, send_still, received_still]

@[simp] theorem State.appendExtentBlock_still (s : State) (n : Nat) (x : Extent) (g : Nat) :
    (State.appendExtentBlock s n x g).still = s.still := by
  unfold State.appendExtentBlock
  try dsimp only
  (repeat' split) <;> try simp [*, still_mk, send_still, received_still]

@[simp] theorem State.pageCopied_still (s : State) (o : Owner) (page : Nat) :
    (State.pageCopied s o page).still = s.still := by
  unfold State.pageCopied
  try dsimp only
  (repeat' split) <;> try simp [*, still_mk, send_still, received_still]

@[simp] theorem State.programFailed_still (s : State) (p : ProgramReq) (buf : Buf) :
    (State.programFailed s p buf).still = s.still := by
  unfold State.programFailed
  try dsimp only
  (repeat' split) <;> try simp [*, still_mk, send_still, received_still]

@[simp] theorem State.relocRead_still (s : State) (o : Owner) (r : ReadReq) (errors : List Nat) :
    (State.relocRead s o r errors).still = s.still := by
  unfold State.relocRead
  try dsimp only
  (repeat' split) <;> try simp [*, still_mk, send_still, received_still]
  all_goals try refine (foldl_still _ (fun q e => ?_) _ _).trans ?_
  all_goals try dsimp only
  all_goals (repeat' split) <;> try simp [*, still_mk, send_still, received_still]
  all_goals try refine (foldl_still _ (fun q e => ?_) _ _).trans ?_
  all_goals (repeat' split) <;> try simp [*, still_mk, send_still, received_still]

/-! ### Runs -/

@[simp] theorem State.runBlock_still (s : State) (slot : Nat) (r : Role) (x : Run) (pos : Nat) :
    (State.runBlock s slot r x pos).1.still = s.still := by
  unfold State.runBlock
  try dsimp only
  (repeat' split) <;> try simp [*, still_mk, send_still, received_still]

@[simp] theorem State.runBuffer_still (s : State) (slot : Nat) (r : Role) (pos : Nat) :
    (State.runBuffer s slot r pos).1.still = s.still := by
  unfold State.runBuffer
  try dsimp only
  (repeat' split) <;> try simp [*, still_mk, send_still, received_still]

@[simp] theorem State.runReady_still (s : State) (slot : Nat) (r : Role) (pos : Nat) :
    (State.runReady s slot r pos).1.still = s.still := by
  unfold State.runReady
  try dsimp only
  (repeat' split) <;> try simp [*, still_mk, send_still, received_still]

@[simp] theorem State.putRun_still (s : State) (slot : Nat) (r : Role) (bs : List Byte) :
    (State.putRun s slot r bs).still = s.still := by
  unfold State.putRun
  try dsimp only
  (repeat' split) <;> try simp [*, still_mk, send_still, received_still]

@[simp] theorem State.writeRun_still (slot : Nat) (r : Role) (n : Nat) (bs : List Byte) (s : State) :
    (State.writeRun slot r n bs s).1.still = s.still := by
  induction n generalizing s bs with
  | zero => rfl
  | succ n ih =>
    unfold State.writeRun
    split
    · rfl
    · dsimp only
      split <;> simp [ih]

@[simp] theorem State.writeBytes_still (s : State) (slot : Nat) (r : Role) (bs : List Byte) :
    (State.writeBytes s slot r bs).1.still = s.still := by
  unfold State.writeBytes
  try dsimp only
  (repeat' split) <;> try simp [*, still_mk, send_still, received_still]

@[simp] theorem State.startOverrun_still (s : State) (slot : Nat) (r : Role) :
    (State.startOverrun s slot r).still = s.still := by
  unfold State.startOverrun
  try dsimp only
  (repeat' split) <;> try simp [*, still_mk, send_still, received_still]

@[simp] theorem State.noticeUnit_still (s : State) (slot : Nat) (r : Role) (stamp : Stamp) (key good : Bool) (start : Nat) :
    (State.noticeUnit s slot r stamp key good start).still = s.still := by
  unfold State.noticeUnit
  try dsimp only
  (repeat' split) <;> try simp [*, still_mk, send_still, received_still]

@[simp] theorem State.completeUnit_still (s : State) (slot : Nat) (r : Role) (u : BrokenUnit) :
    (State.completeUnit s slot r u).1.still = s.still := by
  unfold State.completeUnit
  try dsimp only
  (repeat' split) <;> try simp [*, still_mk, send_still, received_still]

@[simp] theorem State.holdBroken_still (s : State) (slot : Nat) (r : Role) (u : BrokenUnit) :
    (State.holdBroken s slot r u).still = s.still := by
  unfold State.holdBroken
  try dsimp only
  (repeat' split) <;> try simp [*, still_mk, send_still, received_still]

@[simp] theorem State.refusedInUnit_still (s : State) (slot : Nat) (r : Role) (good : Bool) :
    (State.refusedInUnit s slot r good).still = s.still := by
  unfold State.refusedInUnit
  try dsimp only
  (repeat' split) <;> try simp [*, still_mk, send_still, received_still]

@[simp] theorem State.finishUnit_still (s : State) (slot : Nat) (r : Role) :
    (State.finishUnit s slot r).still = s.still := by
  unfold State.finishUnit
  try dsimp only
  (repeat' split) <;> try simp [*, still_mk, send_still, received_still]

@[simp] theorem State.breakUnit_still (s : State) (slot : Nat) (r : Role) :
    (State.breakUnit s slot r).still = s.still := by
  unfold State.breakUnit
  try dsimp only
  (repeat' split) <;> try simp [*, still_mk, send_still, received_still]

@[simp] theorem State.skipUnit_still (s : State) (slot : Nat) (r : Role) (h : List Byte) :
    (State.skipUnit s slot r h).still = s.still := by
  unfold State.skipUnit
  try dsimp only
  (repeat' split) <;> try simp [*, still_mk, send_still, received_still]

@[simp] theorem State.appendUnit_still (s : State) (slot : Nat) (r : Role) (h : List Byte) :
    (State.appendUnit s slot r h).still = s.still := by
  unfold State.appendUnit
  try dsimp only
  (repeat' split) <;> try simp [*, still_mk, send_still, received_still]

@[simp] theorem State.unitFate_still (s : State) (slot : Nat) (r : Role) (h : List Byte) :
    (State.unitFate s slot r h).still = s.still := by
  unfold State.unitFate
  try dsimp only
  (repeat' split) <;> try simp [*, still_mk, send_still, received_still]

@[simp] theorem State.testHeader_still (s : State) (slot : Nat) (r : Role) (h : List Byte) :
    (State.testHeader s slot r h).still = s.still := by
  unfold State.testHeader
  try dsimp only
  (repeat' split) <;> try simp [*, still_mk, send_still, received_still]

@[simp] theorem State.bodyByte_still (s : State) (slot : Nat) (r : Role) (x : IntakeRec) (b : Byte) :
    (State.bodyByte s slot r x b).still = s.still := by
  unfold State.bodyByte
  try dsimp only
  (repeat' split) <;> try simp [*, still_mk, send_still, received_still]

@[simp] theorem State.takeByte_still (slot : Nat) (r : Role) (s : State) (b : Byte) :
    (State.takeByte slot r s b).still = s.still := by
  unfold State.takeByte
  try dsimp only
  (repeat' split) <;> try simp [*, still_mk, send_still, received_still]

@[simp] theorem State.takeCell_still (s : State) (entry : ForwardEntry) (bytes : List Byte) :
    (State.takeCell s entry bytes).still = s.still := by
  unfold State.takeCell
  try dsimp only
  (repeat' split) <;> try simp [*, still_mk, send_still, received_still]
  all_goals try refine (foldl_still _ (fun q e => ?_) _ _).trans ?_
  all_goals try dsimp only
  all_goals (repeat' split) <;> try simp [*, still_mk, send_still, received_still]
  all_goals try refine (foldl_still _ (fun q e => ?_) _ _).trans ?_
  all_goals (repeat' split) <;> try simp [*, still_mk, send_still, received_still]

@[simp] theorem State.lossRecord_still (s : State) (slot : Nat) (r : Role) :
    (State.lossRecord s slot r).still = s.still := by
  unfold State.lossRecord
  try dsimp only
  (repeat' split) <;> try simp [*, still_mk, send_still, received_still]

@[simp] theorem State.intakeLoss_still (s : State) :
    (State.intakeLoss s).still = s.still := by
  unfold State.intakeLoss
  dsimp only
  refine (foldl_still _ (fun q e => by simp) _ _).trans ?_
  refine (foldl_still _ (fun q e => by simp) _ _).trans ?_
  refine still_mk s _ _ _ _ _ _ _ _ ?_ rfl rfl rfl rfl rfl rfl rfl rfl rfl rfl rfl rfl rfl rfl rfl
    rfl rfl rfl
  apply filter_directives
  intro m hm
  cases m <;> first | rfl | exact absurd hm (by simp)

@[simp] theorem State.closeRunTail_still (s : State) (slot : Nat) (r : Role) :
    (State.closeRunTail s slot r).still = s.still := by
  unfold State.closeRunTail
  try dsimp only
  (repeat' split) <;> try simp [*, still_mk, send_still, received_still]

@[simp] theorem State.closeRole_still (s : State) (slot : Nat) (r : Role) :
    (State.closeRole s slot r).still = s.still := by
  unfold State.closeRole
  try dsimp only
  (repeat' split) <;> try simp [*, still_mk, send_still, received_still]

@[simp] theorem State.dropRole_still (s : State) (slot : Nat) (r : Role) :
    (State.dropRole s slot r).still = s.still := by
  unfold State.dropRole
  try dsimp only
  (repeat' split) <;> try simp [*, still_mk, send_still, received_still]

@[simp] theorem State.overrunGranted_still (s : State) (slot : Nat) (r : Role) :
    (State.overrunGranted s slot r).still = s.still := by
  unfold State.overrunGranted
  try dsimp only
  (repeat' split) <;> try simp [*, still_mk, send_still, received_still]

/-! ### Claims -/

@[simp] theorem State.laneFill_still (s : State) (n : Nat) :
    (State.laneFill s n).still = s.still := by
  unfold State.laneFill
  try dsimp only
  (repeat' split) <;> try simp [*, still_mk, send_still, received_still]

@[simp] theorem State.laneTakeBuffer_still (s : State) (n e : Nat) (x : Extent) :
    (State.laneTakeBuffer s n e x).still = s.still := by
  unfold State.laneTakeBuffer
  try dsimp only
  (repeat' split) <;> try simp [*, still_mk, send_still, received_still]

@[simp] theorem State.unhold_still (s : State) (n : Nat) :
    (State.unhold s n).still = s.still := by
  unfold State.unhold
  try dsimp only
  (repeat' split) <;> try simp [*, still_mk, send_still, received_still]

@[simp] theorem State.hold_still (s : State) (n : Nat) (kind : ClaimKind) :
    (State.hold s n kind).still = s.still := by
  unfold State.hold
  try dsimp only
  (repeat' split) <;> try simp [*, still_mk, send_still, received_still]

@[simp] theorem State.giveRun_still (s : State) (slot : Nat) (r : Role) (kind : ClaimKind) :
    (State.giveRun s slot r kind).still = s.still := by
  unfold State.giveRun
  try dsimp only
  (repeat' split) <;> try simp [*, still_mk, send_still, received_still]

@[simp] theorem State.giveLane_still (s : State) (n : Nat) (kind : ClaimKind) :
    (State.giveLane s n kind).still = s.still := by
  unfold State.giveLane
  try dsimp only
  (repeat' split) <;> try simp [*, still_mk, send_still, received_still]

@[simp] theorem State.grant_still (s : State) (c : Claim) :
    (State.grant s c).still = s.still := by
  unfold State.grant
  try dsimp only
  (repeat' split) <;> try simp [*, still_mk, send_still, received_still]

@[simp] theorem State.serveLoop_still (n : Nat) (s : State) : (State.serveLoop n s).still = s.still := by
  induction n generalizing s with
  | zero => rfl
  | succ n ih =>
    unfold State.serveLoop
    split <;> simp [ih]

@[simp] theorem State.resumeCopies_still (s : State) :
    (State.resumeCopies s).still = s.still := by
  unfold State.resumeCopies
  try dsimp only
  (repeat' split) <;> try simp [*, still_mk, send_still, received_still]
  all_goals try refine (foldl_still _ (fun q e => ?_) _ _).trans ?_
  all_goals try dsimp only
  all_goals (repeat' split) <;> try simp [*, still_mk, send_still, received_still]
  all_goals try refine (foldl_still _ (fun q e => ?_) _ _).trans ?_
  all_goals (repeat' split) <;> try simp [*, still_mk, send_still, received_still]

@[simp] theorem State.endOverruns_still (s : State) (before : List Claim) :
    (State.endOverruns s before).still = s.still := by
  unfold State.endOverruns
  try dsimp only
  (repeat' split) <;> try simp [*, still_mk, send_still, received_still]
  all_goals try refine (foldl_still _ (fun q e => ?_) _ _).trans ?_
  all_goals try dsimp only
  all_goals (repeat' split) <;> try simp [*, still_mk, send_still, received_still]
  all_goals try refine (foldl_still _ (fun q e => ?_) _ _).trans ?_
  all_goals (repeat' split) <;> try simp [*, still_mk, send_still, received_still]

@[simp] theorem State.serveClaims_still (s : State) :
    (State.serveClaims s).still = s.still := by
  unfold State.serveClaims
  try dsimp only
  (repeat' split) <;> try simp [*, still_mk, send_still, received_still]

/-! ### Jobs -/

@[simp] theorem State.evalLaneFailed_still (s : State) :
    (State.evalLaneFailed s).still = s.still := by
  unfold State.evalLaneFailed
  try dsimp only
  (repeat' split) <;> try simp [*, still_mk, send_still, received_still]

@[simp] theorem State.createJob_still (s : State) (j : Job) :
    (State.createJob s j).still = s.still := by
  unfold State.createJob
  try dsimp only
  (repeat' split) <;> try simp [*, still_mk, send_still, received_still]

@[simp] theorem State.unlistJob_still (s : State) (k : Nat) :
    (State.unlistJob s k).still = s.still := by
  unfold State.unlistJob
  try dsimp only
  (repeat' split) <;> try simp [*, still_mk, send_still, received_still]

@[simp] theorem State.freeJob_still (s : State) (k : Nat) :
    (State.freeJob s k).still = s.still := by
  unfold State.freeJob
  rw [send_still _ _ rfl, still_mk]
  · simp
  all_goals try rfl
  apply filter_directives
  intro m hm
  cases m <;> first | rfl | exact absurd hm (by simp)

@[simp] theorem State.returnJob_still (s : State) (k : Nat) (j : Job) :
    (State.returnJob s k j).still = s.still := by
  unfold State.returnJob
  try dsimp only
  (repeat' split) <;> try simp [*, still_mk, send_still, received_still]

@[simp] theorem State.clearYield_still (s : State) (n : Nat) :
    (State.clearYield s n).still = s.still := by
  unfold State.clearYield
  try dsimp only
  (repeat' split) <;> try simp [*, still_mk, send_still, received_still]

@[simp] theorem State.overtake_still (s : State) (n : Nat) :
    (State.overtake s n).still = s.still := by
  unfold State.overtake
  try dsimp only
  (repeat' split) <;> try simp [*, still_mk, send_still, received_still]

@[simp] theorem State.laneWithout_still (s : State) (n : Nat) (st : LaneState) :
    (State.laneWithout s n st).still = s.still := by
  unfold State.laneWithout
  try dsimp only
  (repeat' split) <;> try simp [*, still_mk, send_still, received_still]

@[simp] theorem State.failJob_still (s : State) (k : Nat) (j : Job) (reason : FailReason) :
    (State.failJob s k j reason).still = s.still := by
  unfold State.failJob
  try dsimp only
  (repeat' split) <;> try simp [*, still_mk, send_still, received_still]

@[simp] theorem State.failLaneJob_still (s : State) (n : Nat) (reason : FailReason) :
    (State.failLaneJob s n reason).still = s.still := by
  unfold State.failLaneJob
  try dsimp only
  (repeat' split) <;> try simp [*, still_mk, send_still, received_still]

@[simp] theorem State.returnLaneJob_still (s : State) (n : Nat) (st : LaneState) :
    (State.returnLaneJob s n st).still = s.still := by
  unfold State.returnLaneJob
  try dsimp only
  (repeat' split) <;> try simp [*, still_mk, send_still, received_still]

@[simp] theorem State.finishJob_still (s : State) (k : Nat) (j : Job) (e : Nat) :
    (State.finishJob s k j e).still = s.still := by
  unfold State.finishJob
  try dsimp only
  (repeat' split) <;> try simp [*, still_mk, send_still, received_still]

@[simp] theorem State.startChunk_still (s : State) (n : Nat) (j : Job) (k : Nat) (positions : PerRole (Option Nat)) :
    (State.startChunk s n j k positions).still = s.still := by
  unfold State.startChunk
  try dsimp only
  (repeat' split) <;> try simp [*, still_mk, send_still, received_still]

@[simp] theorem State.startWalk_still (s : State) (n : Nat) (j : Job) (starts : PerRole (Option Nat)) :
    (State.startWalk s n j starts).still = s.still := by
  unfold State.startWalk
  try dsimp only
  (repeat' split) <;> try simp [*, still_mk, send_still, received_still]

@[simp] theorem State.beginJob_still (s : State) (n : Nat) (j : Job) :
    (State.beginJob s n j).still = s.still := by
  unfold State.beginJob
  try dsimp only
  (repeat' split) <;> try simp [*, still_mk, send_still, received_still]

@[simp] theorem State.waitExtent_still (s : State) (k : Nat) :
    (State.waitExtent s k).still = s.still := by
  unfold State.waitExtent
  try dsimp only
  (repeat' split) <;> try simp [*, still_mk, send_still, received_still]

@[simp] theorem State.handOver_still (s : State) (n k : Nat) (j : Job) :
    (State.handOver s n k j).1.still = s.still := by
  unfold State.handOver
  try dsimp only
  (repeat' split) <;> try simp [*, still_mk, send_still, received_still]

@[simp] theorem State.offerJob_still (s : State) (n k : Nat) :
    (State.offerJob s n k).1.still = s.still := by
  unfold State.offerJob
  try dsimp only
  (repeat' split) <;> try simp [*, still_mk, send_still, received_still]

@[simp] theorem State.dispatchLoop_still (n : Nat) (s : State) : (State.dispatchLoop n s).still = s.still := by
  induction n generalizing s with
  | zero => rfl
  | succ n ih =>
    unfold State.dispatchLoop
    dsimp only
    (repeat' split) <;> simp [ih]

@[simp] theorem State.withdrawYields_still (n : Nat) (s : State) : (State.withdrawYields n s).still = s.still := by
  induction n generalizing s with
  | zero => rfl
  | succ n ih =>
    unfold State.withdrawYields
    dsimp only
    (repeat' split) <;> simp [ih, still_mk]

@[simp] theorem State.setYields_still (n : Nat) (s : State) : (State.setYields n s).still = s.still := by
  induction n generalizing s with
  | zero => rfl
  | succ n ih =>
    unfold State.setYields
    dsimp only
    (repeat' split) <;> simp [ih, still_mk]

@[simp] theorem State.settle_still (s : State) :
    (State.settle s).still = s.still := by
  unfold State.settle
  try dsimp only
  (repeat' split) <;> try simp [*, still_mk, send_still, received_still]

@[simp] theorem State.takeLive_still (n fuel : Nat) (s : State) : (State.takeLive n fuel s).still = s.still := by
  induction fuel generalizing s with
  | zero => simp [State.takeLive]
  | succ f ih =>
    unfold State.takeLive
    dsimp only
    (repeat' split) <;> simp [ih]

@[simp] theorem State.commitChunk_still (s : State) (n k : Nat) (j : Job) :
    (State.commitChunk s n k j).still = s.still := by
  unfold State.commitChunk
  try dsimp only
  (repeat' split) <;> try simp [*, still_mk, send_still, received_still]

@[simp] theorem State.afterCommit_still (s : State) (n k : Nat) (j : Job) :
    (State.afterCommit s n k j).still = s.still := by
  unfold State.afterCommit
  try dsimp only
  (repeat' split) <;> try simp [*, still_mk, send_still, received_still]

/-! ### Segments -/

@[simp] theorem State.modLecture_still (s : State) (slot : Nat) (f : Lecture → Lecture) :
    (State.modLecture s slot f).still = s.still := by
  unfold State.modLecture
  try dsimp only
  (repeat' split) <;> try simp [*, still_mk, send_still, received_still]

@[simp] theorem State.setStretch_still (s : State) (slot : Nat) (m : Stretch) :
    (State.setStretch s slot m).still = s.still := by
  unfold State.setStretch
  try dsimp only
  (repeat' split) <;> try simp [*, still_mk, send_still, received_still]

@[simp] theorem State.endStretch_still (s : State) (slot : Nat) :
    (State.endStretch s slot).still = s.still := by
  unfold State.endStretch
  try dsimp only
  (repeat' split) <;> try simp [*, still_mk, send_still, received_still]

@[simp] theorem State.moveStretch_still (s : State) (slot : Nat) :
    (State.moveStretch s slot).still = s.still := by
  unfold State.moveStretch
  try dsimp only
  (repeat' split) <;> try simp [*, still_mk, send_still, received_still]

@[simp] theorem State.presentMark_still (slot : Nat) (s : State) (r : Role) :
    (State.presentMark slot s r).still = s.still := by
  unfold State.presentMark
  try dsimp only
  (repeat' split) <;> try simp [*, still_mk, send_still, received_still]

@[simp] theorem State.presentMarks_still (s : State) (slot : Nat) :
    (State.presentMarks s slot).still = s.still := by
  unfold State.presentMarks
  try dsimp only
  (repeat' split) <;> try simp [*, still_mk, send_still, received_still]
  all_goals try refine (foldl_still _ (fun q e => ?_) _ _).trans ?_
  all_goals try dsimp only
  all_goals (repeat' split) <;> try simp [*, still_mk, send_still, received_still]
  all_goals try refine (foldl_still _ (fun q e => ?_) _ _).trans ?_
  all_goals (repeat' split) <;> try simp [*, still_mk, send_still, received_still]

@[simp] theorem State.createJobs_still (s : State) (slot : Nat) (l : Lecture) (g : Segment) :
    (State.createJobs s slot l g).still = s.still := by
  unfold State.createJobs
  try dsimp only
  (repeat' split) <;> try simp [*, still_mk, send_still, received_still]
  all_goals try refine (foldl_still _ (fun q e => ?_) _ _).trans ?_
  all_goals try dsimp only
  all_goals (repeat' split) <;> try simp [*, still_mk, send_still, received_still]
  all_goals try refine (foldl_still _ (fun q e => ?_) _ _).trans ?_
  all_goals (repeat' split) <;> try simp [*, still_mk, send_still, received_still]

@[simp] theorem State.admitSegment_still (s : State) (slot n : Nat) :
    (State.admitSegment s slot n).still = s.still := by
  unfold State.admitSegment
  try dsimp only
  (repeat' split) <;> try simp [*, still_mk, send_still, received_still]

@[simp] theorem State.admitLoop_still (n : Nat) (s : State) : (State.admitLoop n s).still = s.still := by
  induction n generalizing s with
  | zero => rfl
  | succ n ih =>
    unfold State.admitLoop
    (repeat' split) <;> simp [ih, still_mk]

@[simp] theorem State.tryAdmission_still (s : State) :
    (State.tryAdmission s).still = s.still := by
  unfold State.tryAdmission
  try dsimp only
  (repeat' split) <;> try simp [*, still_mk, send_still, received_still]

@[simp] theorem State.joinAdmission_still (s : State) (c : LectureClass) (slot n : Nat) :
    (State.joinAdmission s c slot n).still = s.still := by
  unfold State.joinAdmission
  try dsimp only
  (repeat' split) <;> try simp [*, still_mk, send_still, received_still]

@[simp] theorem State.sealSegment_still (s : State) (slot n : Nat) :
    (State.sealSegment s slot n).still = s.still := by
  unfold State.sealSegment
  try dsimp only
  (repeat' split) <;> try simp [*, still_mk, send_still, received_still]

@[simp] theorem State.endOpen_still (s : State) (slot : Nat) :
    (State.endOpen s slot).still = s.still := by
  unfold State.endOpen
  try dsimp only
  (repeat' split) <;> try simp [*, still_mk, send_still, received_still]

@[simp] theorem State.openNext_still (s : State) (slot : Nat) (lead : Option Stamp) (ranges : PerRole RoleRange) :
    (State.openNext s slot lead ranges).still = s.still := by
  unfold State.openNext
  try dsimp only
  (repeat' split) <;> try simp [*, still_mk, send_still, received_still]

@[simp] theorem State.closeLecture_still (s : State) (slot : Nat) :
    (State.closeLecture s slot).still = s.still := by
  unfold State.closeLecture
  try dsimp only
  (repeat' split) <;> try simp [*, still_mk, send_still, received_still]
  all_goals try refine (foldl_still _ (fun q e => ?_) _ _).trans ?_
  all_goals try dsimp only
  all_goals (repeat' split) <;> try simp [*, still_mk, send_still, received_still]
  all_goals try refine (foldl_still _ (fun q e => ?_) _ _).trans ?_
  all_goals (repeat' split) <;> try simp [*, still_mk, send_still, received_still]

@[simp] theorem State.testClosed_still (s : State) (slot : Nat) :
    (State.testClosed s slot).still = s.still := by
  unfold State.testClosed
  try dsimp only
  (repeat' split) <;> try simp [*, still_mk, send_still, received_still]

@[simp] theorem State.enterEnding_still (s : State) (slot : Nat) :
    (State.enterEnding s slot).still = s.still := by
  unfold State.enterEnding
  try dsimp only
  (repeat' split) <;> try simp [*, still_mk, send_still, received_still]

@[simp] theorem State.stall_still (s : State) (slot : Nat) :
    (State.stall s slot).still = s.still := by
  unfold State.stall
  try dsimp only
  (repeat' split) <;> try simp [*, still_mk, send_still, received_still]

@[simp] theorem State.failover_still (s : State) (slot : Nat) :
    (State.failover s slot).still = s.still := by
  unfold State.failover
  try dsimp only
  (repeat' split) <;> try simp [*, still_mk, send_still, received_still]

@[simp] theorem State.fileCutting_still (s : State) (slot : Nat) (l : Lecture) (g : Segment) (u : FiledUnit) :
    (State.fileCutting s slot l g u).1.still = s.still := by
  unfold State.fileCutting
  try dsimp only
  (repeat' split) <;> try simp [*, still_mk, send_still, received_still]

@[simp] theorem State.leadCut_still (s : State) (slot : Nat) (l : Lecture) (g : Segment) (u : FiledUnit) :
    (State.leadCut s slot l g u).still = s.still := by
  unfold State.leadCut
  try dsimp only
  (repeat' split) <;> try simp [*, still_mk, send_still, received_still]

@[simp] theorem State.startStretch_still (s : State) (slot : Nat) (l : Lecture) (g : Segment) :
    (State.startStretch s slot l g).still = s.still := by
  unfold State.startStretch
  try dsimp only
  (repeat' split) <;> try simp [*, still_mk, send_still, received_still]

@[simp] theorem State.fileLead_still (s : State) (slot : Nat) (l : Lecture) (g : Segment) (u : FiledUnit) :
    (State.fileLead s slot l g u).still = s.still := by
  unfold State.fileLead
  try dsimp only
  (repeat' split) <;> try simp [*, still_mk, send_still, received_still]

@[simp] theorem State.fileOther_still (s : State) (slot : Nat) (l : Lecture) (g : Segment) (u : FiledUnit) :
    (State.fileOther s slot l g u).still = s.still := by
  unfold State.fileOther
  try dsimp only
  (repeat' split) <;> try simp [*, still_mk, send_still, received_still]

@[simp] theorem State.fileOpen_still (s : State) (slot : Nat) (u : FiledUnit) :
    (State.fileOpen s slot u).still = s.still := by
  unfold State.fileOpen
  try dsimp only
  (repeat' split) <;> try simp [*, still_mk, send_still, received_still]

@[simp] theorem State.fileUnit_still (s : State) (slot : Nat) (u : FiledUnit) :
    (State.fileUnit s slot u).still = s.still := by
  unfold State.fileUnit
  try dsimp only
  (repeat' split) <;> try simp [*, still_mk, send_still, received_still]

@[simp] theorem State.openDue_still (s : State) (slot : Nat) :
    (State.openDue s slot).still = s.still := by
  unfold State.openDue
  try dsimp only
  (repeat' split) <;> try simp [*, still_mk, send_still, received_still]

@[simp] theorem State.resume_still (s : State) (slot : Nat) :
    (State.resume s slot).still = s.still := by
  unfold State.resume
  try dsimp only
  (repeat' split) <;> try simp [*, still_mk, send_still, received_still]

@[simp] theorem State.startLecture_still (s : State) (slot : Nat) (u : FiledUnit) :
    (State.startLecture s slot u).still = s.still := by
  unfold State.startLecture
  try dsimp only
  (repeat' split) <;> try simp [*, still_mk, send_still, received_still]

@[simp] theorem State.useNotice_still (s : State) (slot : Nat) (n : UnitNotice) :
    (State.useNotice s slot n).still = s.still := by
  unfold State.useNotice
  try dsimp only
  (repeat' split) <;> try simp [*, still_mk, send_still, received_still]

@[simp] theorem State.takeNotice_still (s : State) (n : UnitNotice) :
    (State.takeNotice s n).still = s.still := by
  unfold State.takeNotice
  try dsimp only
  (repeat' split) <;> try simp [*, still_mk, send_still, received_still]

/-! ### Publication -/

@[simp] theorem State.publishHead_still (s : State) (slot : Nat) (l : Lecture) (g : Segment) :
    (State.publishHead s slot l g).still = s.still := by
  unfold State.publishHead
  try dsimp only
  (repeat' split) <;> try simp [*, still_mk, send_still, received_still]
  all_goals try refine (foldl_still _ (fun q e => ?_) _ _).trans ?_
  all_goals try dsimp only
  all_goals (repeat' split) <;> try simp [*, still_mk, send_still, received_still]
  all_goals try refine (foldl_still _ (fun q e => ?_) _ _).trans ?_
  all_goals (repeat' split) <;> try simp [*, still_mk, send_still, received_still]

@[simp] theorem State.joinWaiting_still (s : State) (slot : Nat) :
    (State.joinWaiting s slot).still = s.still := by
  unfold State.joinWaiting
  try dsimp only
  (repeat' split) <;> try simp [*, still_mk, send_still, received_still]

@[simp] theorem State.publishLoop_still (slot n : Nat) (s : State) : (State.publishLoop slot n s).still = s.still := by
  induction n generalizing s with
  | zero => rfl
  | succ n ih =>
    unfold State.publishLoop
    (repeat' split) <;> simp [ih]

@[simp] theorem State.afterPublication_still (s : State) (slot : Nat) :
    (State.afterPublication s slot).still = s.still := by
  unfold State.afterPublication
  try dsimp only
  (repeat' split) <;> try simp [*, still_mk, send_still, received_still]

@[simp] theorem State.publishFrom_still (s : State) (slot : Nat) :
    (State.publishFrom s slot).still = s.still := by
  unfold State.publishFrom
  try dsimp only
  (repeat' split) <;> try simp [*, still_mk, send_still, received_still]

@[simp] theorem State.tryPublish_still (s : State) (slot : Nat) :
    (State.tryPublish s slot).still = s.still := by
  unfold State.tryPublish
  try dsimp only
  (repeat' split) <;> try simp [*, still_mk, send_still, received_still]

@[simp] theorem State.serveWaiting_still (n : Nat) (s : State) : (State.serveWaiting n s).still = s.still := by
  induction n generalizing s with
  | zero => rfl
  | succ n ih =>
    unfold State.serveWaiting
    (repeat' split) <;> simp [ih]

@[simp] theorem State.entriesFreed_still (s : State) :
    (State.entriesFreed s).still = s.still := by
  unfold State.entriesFreed
  try dsimp only
  (repeat' split) <;> try simp [*, still_mk, send_still, received_still]

@[simp] theorem State.takeOutcome_still (s : State) (slot segment rendition : Nat) (v : RenditionState) :
    (State.takeOutcome s slot segment rendition v).still = s.still := by
  unfold State.takeOutcome
  try dsimp only
  (repeat' split) <;> try simp [*, still_mk, send_still, received_still]

@[simp] theorem State.removeEntries_still (s : State) (p : CatalogueEntry → Bool) :
    (State.removeEntries s p).still = s.still := by
  unfold State.removeEntries
  try dsimp only
  (repeat' split) <;> try simp [*, still_mk, send_still, received_still]
  all_goals try refine (foldl_still _ (fun q e => ?_) _ _).trans ?_
  all_goals try dsimp only
  all_goals (repeat' split) <;> try simp [*, still_mk, send_still, received_still]
  all_goals try refine (foldl_still _ (fun q e => ?_) _ _).trans ?_
  all_goals (repeat' split) <;> try simp [*, still_mk, send_still, received_still]

@[simp] theorem State.vacate_still (s : State) (slot : Nat) :
    (State.vacate s slot).still = s.still := by
  refine still_mk s _ _ _ _ _ _ _ _ ?_ rfl rfl rfl rfl rfl rfl rfl rfl rfl rfl rfl rfl rfl rfl rfl
    rfl rfl rfl
  apply filter_directives
  intro m hm
  cases m <;> first | rfl | exact absurd hm (by simp)

@[simp] theorem State.archive_still (s : State) (slot : Nat) (l : Lecture) :
    (State.archive s slot l).still = s.still := by
  unfold State.archive
  try dsimp only
  (repeat' split) <;> try simp [*, still_mk, send_still, received_still]
  all_goals try refine (foldl_still _ (fun q e => ?_) _ _).trans ?_
  all_goals try dsimp only
  all_goals (repeat' split) <;> try simp [*, still_mk, send_still, received_still]
  all_goals try refine (foldl_still _ (fun q e => ?_) _ _).trans ?_
  all_goals (repeat' split) <;> try simp [*, still_mk, send_still, received_still]

@[simp] theorem State.dropJob_still (s : State) (k : Nat) (j : Job) :
    (State.dropJob s k j).still = s.still := by
  unfold State.dropJob
  try dsimp only
  (repeat' split) <;> try simp [*, still_mk, send_still, received_still]

@[simp] theorem State.dropJobs_still (s : State) (slot : Nat) :
    (State.dropJobs s slot).still = s.still := by
  unfold State.dropJobs
  try dsimp only
  (repeat' split) <;> try simp [*, still_mk, send_still, received_still]
  all_goals try refine (foldl_still _ (fun q e => ?_) _ _).trans ?_
  all_goals try dsimp only
  all_goals (repeat' split) <;> try simp [*, still_mk, send_still, received_still]
  all_goals try refine (foldl_still _ (fun q e => ?_) _ _).trans ?_
  all_goals (repeat' split) <;> try simp [*, still_mk, send_still, received_still]

@[simp] theorem State.giveUpExtents_still (s : State) (slot : Nat) :
    (State.giveUpExtents s slot).still = s.still := by
  unfold State.giveUpExtents
  try dsimp only
  (repeat' split) <;> try simp [*, still_mk, send_still, received_still]
  all_goals try refine (foldl_still _ (fun q e => ?_) _ _).trans ?_
  all_goals try dsimp only
  all_goals (repeat' split) <;> try simp [*, still_mk, send_still, received_still]
  all_goals try refine (foldl_still _ (fun q e => ?_) _ _).trans ?_
  all_goals (repeat' split) <;> try simp [*, still_mk, send_still, received_still]

@[simp] theorem State.abortRecord_still (s : State) (slot : Nat) (l : Lecture) :
    (State.abortRecord s slot l).still = s.still := by
  unfold State.abortRecord
  try dsimp only
  (repeat' split) <;> try simp [*, still_mk, send_still, received_still]

@[simp] theorem State.abort_still (s : State) (slot : Nat) (l : Lecture) :
    (State.abort s slot l).still = s.still := by
  unfold State.abort
  try dsimp only
  (repeat' split) <;> try simp [*, still_mk, send_still, received_still]
  all_goals try refine (foldl_still _ (fun q e => ?_) _ _).trans ?_
  all_goals try dsimp only
  all_goals (repeat' split) <;> try simp [*, still_mk, send_still, received_still]
  all_goals try refine (foldl_still _ (fun q e => ?_) _ _).trans ?_
  all_goals (repeat' split) <;> try simp [*, still_mk, send_still, received_still]

/-! ### Channels -/

@[simp] theorem State.bodyError_still (s : State) (c j : Nat) :
    (State.bodyError s c j).still = s.still := by
  unfold State.bodyError
  try dsimp only
  (repeat' split) <;> try simp [*, still_mk, send_still, received_still]

@[simp] theorem State.stagePage_still (s : State) (c j : Nat) (bs : List Byte) :
    (State.stagePage s c j bs).still = s.still := by
  unfold State.stagePage
  try dsimp only
  (repeat' split) <;> try simp [*, still_mk, send_still, received_still]

@[simp] theorem State.requestPage_still (s : State) (c : Nat) :
    (State.requestPage s c).still = s.still := by
  unfold State.requestPage
  try dsimp only
  (repeat' split) <;> try simp [*, still_mk, send_still, received_still]

@[simp] theorem State.channelRead_still (s : State) (c j : Nat) (r : ReadReq) (errors : List Nat) :
    (State.channelRead s c j r errors).still = s.still := by
  unfold State.channelRead
  try dsimp only
  (repeat' split) <;> try simp [*, still_mk, send_still, received_still]

@[simp] theorem State.setChannelState_still (s : State) (c : Nat) (x : Channel) (st : ChannelState) :
    (State.setChannelState s c x st).still = s.still := by
  unfold State.setChannelState
  try dsimp only
  (repeat' split) <;> try simp [*, still_mk, send_still, received_still]

@[simp] theorem State.channelIdle_still (s : State) (c : Nat) (ending : LastEnding) :
    (State.channelIdle s c ending).still = s.still := by
  unfold State.channelIdle
  try dsimp only
  (repeat' split) <;> try simp [*, still_mk, send_still, received_still]

@[simp] theorem State.buildEnd_still (s : State) (c : Nat) (x : Channel) (f : Fetch) (l : Lecture) :
    (State.buildEnd s c x f l).still = s.still := by
  unfold State.buildEnd
  try dsimp only
  (repeat' split) <;> try simp [*, still_mk, send_still, received_still]

@[simp] theorem State.buildAbsent_still (s : State) (c : Nat) (x : Channel) (f : Fetch) (l : Lecture) (n : Nat) (e : Option CatalogueEntry) :
    (State.buildAbsent s c x f l n e).still = s.still := by
  unfold State.buildAbsent
  try dsimp only
  (repeat' split) <;> try simp [*, still_mk, send_still, received_still]

@[simp] theorem State.buildBody_still (s : State) (c : Nat) (x : Channel) (f : Fetch) (l : Lecture) (n : Nat) (e : CatalogueEntry) (extent length : Nat) :
    (State.buildBody s c x f l n e extent length).still = s.still := by
  unfold State.buildBody
  try dsimp only
  (repeat' split) <;> try simp [*, still_mk, send_still, received_still]

@[simp] theorem State.beginSegment_still (s : State) (c n : Nat) :
    (State.beginSegment s c n).still = s.still := by
  unfold State.beginSegment
  try dsimp only
  (repeat' split) <;> try simp [*, still_mk, send_still, received_still]

@[simp] theorem State.finishSegment_still (s : State) (c : Nat) :
    (State.finishSegment s c).still = s.still := by
  unfold State.finishSegment
  try dsimp only
  (repeat' split) <;> try simp [*, still_mk, send_still, received_still]

@[simp] theorem State.itemDone_still (s : State) (c : Nat) :
    (State.itemDone s c).still = s.still := by
  unfold State.itemDone
  try dsimp only
  (repeat' split) <;> try simp [*, still_mk, send_still, received_still]

@[simp] theorem State.placeBody_still (s : State) (c : Nat) (bs : List Byte) :
    (State.placeBody s c bs).still = s.still := by
  unfold State.placeBody
  try dsimp only
  (repeat' split) <;> try simp [*, still_mk, send_still, received_still]

@[simp] theorem State.placeItem_still (s : State) (c room : Nat) :
    (State.placeItem s c room).still = s.still := by
  unfold State.placeItem
  try dsimp only
  (repeat' split) <;> try simp [*, still_mk, send_still, received_still]

@[simp] theorem State.fillLoop_still (c n : Nat) (s : State) (acc : List Byte) :
    (State.fillLoop c n s acc).1.still = s.still := by
  induction n generalizing s acc with
  | zero => rfl
  | succ n ih =>
    unfold State.fillLoop
    dsimp only
    (repeat' split) <;> simp [ih]

@[simp] theorem State.fillCell_still (s : State) (c : Nat) :
    (State.fillCell s c).1.still = s.still := by
  unfold State.fillCell
  try dsimp only
  (repeat' split) <;> try simp [*, still_mk, send_still, received_still]

@[simp] theorem State.stopChannel_still (s : State) (c : Nat) :
    (State.stopChannel s c).1.still = s.still := by
  unfold State.stopChannel
  try dsimp only
  (repeat' split) <;> try simp [*, still_mk, send_still, received_still]

@[simp] theorem State.wakeChannels_still (s : State) (slot : Nat) :
    (State.wakeChannels s slot).still = s.still := by
  unfold State.wakeChannels
  try dsimp only
  (repeat' split) <;> try simp [*, still_mk, send_still, received_still]
  all_goals try refine (foldl_still _ (fun q e => ?_) _ _).trans ?_
  all_goals try dsimp only
  all_goals (repeat' split) <;> try simp [*, still_mk, send_still, received_still]
  all_goals try refine (foldl_still _ (fun q e => ?_) _ _).trans ?_
  all_goals (repeat' split) <;> try simp [*, still_mk, send_still, received_still]

/-! ### Lectures -/

@[simp] theorem State.load_still (s : State) (b : LoadBody) (cls : LectureClass) :
    (State.load s b cls).still = s.still := by
  unfold State.load
  try dsimp only
  (repeat' split) <;> try simp [*, still_mk, send_still, received_still]
  all_goals try refine (foldl_still _ (fun q e => ?_) _ _).trans ?_
  all_goals try dsimp only
  all_goals (repeat' split) <;> try simp [*, still_mk, send_still, received_still]
  all_goals try refine (foldl_still _ (fun q e => ?_) _ _).trans ?_
  all_goals (repeat' split) <;> try simp [*, still_mk, send_still, received_still]

@[simp] theorem State.endLecture_still (s : State) (slot : Nat) :
    (State.endLecture s slot).still = s.still := by
  unfold State.endLecture
  try dsimp only
  (repeat' split) <;> try simp [*, still_mk, send_still, received_still]

@[simp] theorem State.gapExpire_still (s : State) (slot : Nat) (r : Role) :
    (State.gapExpire s slot r).still = s.still := by
  unfold State.gapExpire
  try dsimp only
  (repeat' split) <;> try simp [*, still_mk, send_still, received_still]

@[simp] theorem State.skewExpire_still (s : State) (slot : Nat) :
    (State.skewExpire s slot).still = s.still := by
  unfold State.skewExpire
  try dsimp only
  (repeat' split) <;> try simp [*, still_mk, send_still, received_still]

@[simp] theorem State.endCuttingRole_still (s : State) (slot : Nat) (r : Role) :
    (State.endCuttingRole s slot r).still = s.still := by
  unfold State.endCuttingRole
  try dsimp only
  (repeat' split) <;> try simp [*, still_mk, send_still, received_still]

@[simp] theorem State.allEnded_still (s : State) (slot : Nat) (st : LectureState) :
    (State.allEnded s slot st).still = s.still := by
  unfold State.allEnded
  try dsimp only
  (repeat' split) <;> try simp [*, still_mk, send_still, received_still]

@[simp] theorem State.roleEnd_still (s : State) (slot : Nat) (r : Role) :
    (State.roleEnd s slot r).still = s.still := by
  unfold State.roleEnd
  try dsimp only
  (repeat' split) <;> try simp [*, still_mk, send_still, received_still]

@[simp] theorem State.lateDrop_still (s : State) (slot : Nat) (r : Role) :
    (State.lateDrop s slot r).still = s.still := by
  unfold State.lateDrop
  try dsimp only
  (repeat' split) <;> try simp [*, still_mk, send_still, received_still]

@[simp] theorem State.overrunDamage_still (s : State) (slot : Nat) :
    (State.overrunDamage s slot).still = s.still := by
  unfold State.overrunDamage
  try dsimp only
  (repeat' split) <;> try simp [*, still_mk, send_still, received_still]

/-! ### Lanes -/

@[simp] theorem State.finish_still (s : State) :
    (State.finish s).still = s.still := by
  unfold State.finish
  try dsimp only
  (repeat' split) <;> try simp [*, still_mk, send_still, received_still]

@[simp] theorem State.startTest_still (s : State) (n : Nat) :
    (State.startTest s n).still = s.still := by
  unfold State.startTest
  try dsimp only
  (repeat' split) <;> try simp [*, still_mk, send_still, received_still]

@[simp] theorem State.faultLane_still (s : State) (n : Nat) :
    (State.faultLane s n).still = s.still := by
  unfold State.faultLane
  try dsimp only
  (repeat' split) <;> try simp [*, still_mk, send_still, received_still]

@[simp] theorem State.setScratch_still (s : State) (g : Nat) (x : Option (List Byte)) :
    (State.setScratch s g x).still = s.still := by
  unfold State.setScratch
  try dsimp only
  (repeat' split) <;> try simp [*, still_mk, send_still, received_still]
  all_goals try refine (foldl_still _ (fun q e => ?_) _ _).trans ?_
  all_goals try dsimp only
  all_goals (repeat' split) <;> try simp [*, still_mk, send_still, received_still]
  all_goals try refine (foldl_still _ (fun q e => ?_) _ _).trans ?_
  all_goals (repeat' split) <;> try simp [*, still_mk, send_still, received_still]

@[simp] theorem State.sanityExpire_still (s : State) (n : Nat) :
    (State.sanityExpire s n).still = s.still := by
  unfold State.sanityExpire
  try dsimp only
  (repeat' split) <;> try simp [*, still_mk, send_still, received_still]

@[simp] theorem State.testFails_still (s : State) (n : Nat) (f : LaneFault) :
    (State.testFails s n f).still = s.still := by
  unfold State.testFails
  try dsimp only
  (repeat' split) <;> try simp [*, still_mk, send_still, received_still]

@[simp] theorem State.testChunkDone_still (s : State) (n : Nat) (output : List Byte) :
    (State.testChunkDone s n output).still = s.still := by
  unfold State.testChunkDone
  try dsimp only
  (repeat' split) <;> try simp [*, still_mk, send_still, received_still]

@[simp] theorem State.testChunkExpire_still (s : State) (n : Nat) :
    (State.testChunkExpire s n).still = s.still := by
  unfold State.testChunkExpire
  try dsimp only
  (repeat' split) <;> try simp [*, still_mk, send_still, received_still]

@[simp] theorem State.laneFails_still (s : State) (n : Nat) (reason : FailReason) :
    (State.laneFails s n reason).still = s.still := by
  unfold State.laneFails
  try dsimp only
  (repeat' split) <;> try simp [*, still_mk, send_still, received_still]

@[simp] theorem State.laneWrites_still (s : State) (n : Nat) (output : List Byte) :
    (State.laneWrites s n output).still = s.still := by
  unfold State.laneWrites
  try dsimp only
  (repeat' split) <;> try simp [*, still_mk, send_still, received_still]

@[simp] theorem State.chunkDone_still (s : State) (n : Nat) (output : List Byte) :
    (State.chunkDone s n output).still = s.still := by
  unfold State.chunkDone
  try dsimp only
  (repeat' split) <;> try simp [*, still_mk, send_still, received_still]

@[simp] theorem State.laneWantsBuffer_still (s : State) (n : Nat) (output : List Byte) :
    (State.laneWantsBuffer s n output).still = s.still := by
  unfold State.laneWantsBuffer
  try dsimp only
  (repeat' split) <;> try simp [*, still_mk, send_still, received_still]

@[simp] theorem State.laneWantsBlock_still (s : State) (n : Nat) (output : List Byte) :
    (State.laneWantsBlock s n output).still = s.still := by
  unfold State.laneWantsBlock
  try dsimp only
  (repeat' split) <;> try simp [*, still_mk, send_still, received_still]

@[simp] theorem State.laneReadOn_still (s : State) (n : Nat) :
    (State.laneReadOn s n).still = s.still := by
  unfold State.laneReadOn
  try dsimp only
  (repeat' split) <;> try simp [*, still_mk, send_still, received_still]

@[simp] theorem State.laneReceives_still (s : State) (n : Nat) (pages : List SourcePage) :
    (State.laneReceives s n pages).still = s.still := by
  unfold State.laneReceives
  try dsimp only
  (repeat' split) <;> try simp [*, still_mk, send_still, received_still]

@[simp] theorem State.laneReads_still (s : State) (n : Nat) (r : Role) (x : Run) (offset length : Nat) :
    (State.laneReads s n r x offset length).still = s.still := by
  unfold State.laneReads
  try dsimp only
  (repeat' split) <;> try simp [*, still_mk, send_still, received_still]

@[simp] theorem State.laneWantsSource_still (s : State) (n : Nat) (r : Role) (offset length : Nat) :
    (State.laneWantsSource s n r offset length).still = s.still := by
  unfold State.laneWantsSource
  try dsimp only
  (repeat' split) <;> try simp [*, still_mk, send_still, received_still]

@[simp] theorem State.laneRead_still (s : State) (n : Nat) (role : Role) (base : Nat) (r : ReadReq) (errors : List Nat) :
    (State.laneRead s n role base r errors).still = s.still := by
  unfold State.laneRead
  try dsimp only
  (repeat' split) <;> try simp [*, still_mk, send_still, received_still]

@[simp] theorem State.discardJob_still (s : State) (n k : Nat) :
    (State.discardJob s n k).still = s.still := by
  unfold State.discardJob
  try dsimp only
  (repeat' split) <;> try simp [*, still_mk, send_still, received_still]

@[simp] theorem State.extentFreed_still (s : State) :
    (State.extentFreed s).still = s.still := by
  unfold State.extentFreed
  try dsimp only
  (repeat' split) <;> try simp [*, still_mk, send_still, received_still]

/-! ### StorePort -/

@[simp] theorem State.returnRead_still (s : State) (r : ReadReq) (wanted : Bool) (errors : List Nat) :
    (State.returnRead s r wanted errors).still = s.still := by
  unfold State.returnRead
  try dsimp only
  (repeat' split) <;> try simp [*, still_mk, send_still, received_still]

@[simp] theorem State.endRead_still (s : State) (b : Nat) (r : ReadReq) (wanted : Bool) (errors : List Nat) :
    (State.endRead s b r wanted errors).still = s.still := by
  unfold State.endRead
  try dsimp only
  (repeat' split) <;> try simp [*, still_mk, send_still, received_still]

/-! ### Delivery -/

@[simp] theorem State.fetch_still (s : State) (c : Nat) (f : Fetch) :
    (State.fetch s c f).still = s.still := by
  unfold State.fetch
  try dsimp only
  (repeat' split) <;> try simp [*, still_mk, send_still, received_still]

/-! ### Tick -/

@[simp] theorem State.tickGaps_still (s : State) (slot : Nat) :
    (State.tickGaps s slot).still = s.still := by
  unfold State.tickGaps
  try dsimp only
  (repeat' split) <;> try simp [*, still_mk, send_still, received_still]
  all_goals try refine (foldl_still _ (fun q e => ?_) _ _).trans ?_
  all_goals try dsimp only
  all_goals (repeat' split) <;> try simp [*, still_mk, send_still, received_still]
  all_goals try refine (foldl_still _ (fun q e => ?_) _ _).trans ?_
  all_goals (repeat' split) <;> try simp [*, still_mk, send_still, received_still]

@[simp] theorem State.tickSkew_still (s : State) (slot : Nat) :
    (State.tickSkew s slot).still = s.still := by
  unfold State.tickSkew
  try dsimp only
  (repeat' split) <;> try simp [*, still_mk, send_still, received_still]

@[simp] theorem State.tickLane_still (s : State) (n : Nat) :
    (State.tickLane s n).still = s.still := by
  unfold State.tickLane
  try dsimp only
  (repeat' split) <;> try simp [*, still_mk, send_still, received_still]

end Sys2Proof.Machine
end

