-- ==== Sys2Proof/Laws/Frame.lean ====
section
/-! SUPPORT. What the operations of the store, the intake, the claims and the jobs leave alone: the SGC, the JDP and the
lanes. -/

set_option linter.unusedTactic false
set_option linter.unnecessarySeqFocus false
set_option linter.unusedSimpArgs false

namespace Sys2Proof.Machine

/-- A fold of steps that each leave something alone leaves it alone. -/
theorem foldl_keeps {α β : Type} (p : State → β) (f : State → α → State) (h : ∀ s a, p (f s a) = p s) (l : List α)
    (s : State) : p (l.foldl f s) = p s := by
  induction l generalizing s with
  | nil => rfl
  | cons a t ih => rw [List.foldl_cons, ih, h]

/-- What stands above the store and the intake: the SGC, the JDP and the lanes, with the conditions LANE_FAILED and
JOB_FAILED. -/
def State.above (s : State) : Sgc × Jdp × Table Lane × Bool × Bool :=
  (s.sgc, s.jdp, s.lanes, s.ccu.conditions.laneFailed, s.ccu.conditions.jobFailed)

/-- A state with the same SGC, JDP and lanes, and the same two conditions. -/
theorem above_mk (s : State) (a b : List Instr) (c : Ccu) (d : Trr) (e : Trt) (f : Iku) (g : Table Group) (h : Stc)
    (i : List Host.Cell) (j : Table Channel) (k : Nat)
    (h1 : c.conditions.laneFailed = s.ccu.conditions.laneFailed)
    (h2 : c.conditions.jobFailed = s.ccu.conditions.jobFailed) :
    (State.mk a b c d e f s.sgc s.jdp s.lanes g h i j k).above = s.above := by
  simp [State.above, h1, h2]

theorem State.sgc_of_above {s t : State} (h : t.above = s.above) : t.sgc = s.sgc := congrArg Prod.fst h
theorem State.jdp_of_above {s t : State} (h : t.above = s.above) : t.jdp = s.jdp := congrArg (fun x => x.2.1) h
theorem State.lanes_of_above {s t : State} (h : t.above = s.above) : t.lanes = s.lanes := congrArg (fun x => x.2.2.1) h
theorem State.laneFailed_of_above {s t : State} (h : t.above = s.above) :
    t.ccu.conditions.laneFailed = s.ccu.conditions.laneFailed := congrArg (fun x => x.2.2.2.1) h
theorem State.jobFailed_of_above {s t : State} (h : t.above = s.above) :
    t.ccu.conditions.jobFailed = s.ccu.conditions.jobFailed := congrArg (fun x => x.2.2.2.2) h

@[simp] theorem State.queueEvent_above (s : State) (o : EventObject) (k : EventKind) (c : List Byte) :
    (s.queueEvent o k c).above = s.above := rfl
@[simp] theorem State.send_above (s : State) (m : Instr) : (s.send m).above = s.above := rfl
@[simp] theorem State.received_above (s : State) (m : Instr) : (s.received m).above = s.above := rfl
@[simp] theorem State.setIntake_above (s : State) (slot : Nat) (r : Role) (x : IntakeRec) :
    (s.setIntake slot r x).above = s.above := rfl
@[simp] theorem State.setDiscard_above (s : State) (slot : Nat) (x : DiscardSetting) :
    (s.setDiscard slot x).above = s.above := rfl
@[simp] theorem State.setBank_above (s : State) (b : Nat) (x : Bank) : (s.setBank b x).above = s.above := rfl
@[simp] theorem State.setBlock_above (s : State) (g : Nat) (x : BlockRec) : (s.setBlock g x).above = s.above := rfl
@[simp] theorem State.setBlockState_above (s : State) (g : Nat) (x : BlockState) :
    (s.setBlockState g x).above = s.above := rfl
@[simp] theorem State.setRun_above (s : State) (slot : Nat) (r : Role) (x : Run) :
    (s.setRun slot r x).above = s.above := rfl
@[simp] theorem State.setExtent_above (s : State) (n : Nat) (x : Extent) : (s.setExtent n x).above = s.above := rfl
@[simp] theorem State.setBuf_above (s : State) (i : Nat) (x : Buf) : (s.setBuf i x).above = s.above := rfl
@[simp] theorem State.freeBuf_above (s : State) (i : Nat) : (s.freeBuf i).above = s.above := rfl
@[simp] theorem State.queueAlarm_above (s : State) : s.queueAlarm.above = s.above := by
  unfold State.queueAlarm
  split <;> rfl

/-- A condition of the store or of the intake. -/
def Condition.ofStore : Condition → Bool
  | .storeExhausted => true
  | .storeLow => true
  | .badlistFull => true
  | .intakeOverrun => true
  | _ => false

theorem State.lower_above (s : State) (k : Condition) (h : k.ofStore = true) : (s.lower k).above = s.above := by
  cases k <;> first | rfl | cases h
theorem State.raise_above (s : State) (k : Condition) (h : k.ofStore = true) : (s.raise k).above = s.above := by
  unfold State.raise
  split
  · rfl
  · rw [State.queueAlarm_above]
    cases k <;> first | rfl | cases h
theorem State.level_above (s : State) (k : Condition) (b : Bool) (h : k.ofStore = true) :
    (s.level k b).above = s.above := by
  unfold State.level
  split
  · exact State.raise_above s k h
  · exact State.lower_above s k h
@[simp] theorem State.level_storeExhausted_above (s : State) (b : Bool) :
    (s.level .storeExhausted b).above = s.above := State.level_above s _ b rfl
@[simp] theorem State.level_storeLow_above (s : State) (b : Bool) :
    (s.level .storeLow b).above = s.above := State.level_above s _ b rfl
@[simp] theorem State.raise_badlistFull_above (s : State) : (s.raise .badlistFull).above = s.above :=
  State.raise_above s _ rfl
@[simp] theorem State.raise_intakeOverrun_above (s : State) : (s.raise .intakeOverrun).above = s.above :=
  State.raise_above s _ rfl
@[simp] theorem State.level_storeExhausted_laneFailed (s : State) (b : Bool) :
    (s.level .storeExhausted b).ccu.conditions.laneFailed = s.ccu.conditions.laneFailed :=
  State.laneFailed_of_above (State.level_above s _ b rfl)
@[simp] theorem State.level_storeExhausted_jobFailed (s : State) (b : Bool) :
    (s.level .storeExhausted b).ccu.conditions.jobFailed = s.ccu.conditions.jobFailed :=
  State.jobFailed_of_above (State.level_above s _ b rfl)
@[simp] theorem State.level_storeLow_laneFailed (s : State) (b : Bool) :
    (s.level .storeLow b).ccu.conditions.laneFailed = s.ccu.conditions.laneFailed :=
  State.laneFailed_of_above (State.level_above s _ b rfl)
@[simp] theorem State.level_storeLow_jobFailed (s : State) (b : Bool) :
    (s.level .storeLow b).ccu.conditions.jobFailed = s.ccu.conditions.jobFailed :=
  State.jobFailed_of_above (State.level_above s _ b rfl)
@[simp] theorem State.raise_badlistFull_laneFailed (s : State) :
    (s.raise .badlistFull).ccu.conditions.laneFailed = s.ccu.conditions.laneFailed :=
  State.laneFailed_of_above (State.raise_above s _ rfl)
@[simp] theorem State.raise_badlistFull_jobFailed (s : State) :
    (s.raise .badlistFull).ccu.conditions.jobFailed = s.ccu.conditions.jobFailed :=
  State.jobFailed_of_above (State.raise_above s _ rfl)
@[simp] theorem State.raise_intakeOverrun_laneFailed (s : State) :
    (s.raise .intakeOverrun).ccu.conditions.laneFailed = s.ccu.conditions.laneFailed :=
  State.laneFailed_of_above (State.raise_above s _ rfl)
@[simp] theorem State.raise_intakeOverrun_jobFailed (s : State) :
    (s.raise .intakeOverrun).ccu.conditions.jobFailed = s.ccu.conditions.jobFailed :=
  State.jobFailed_of_above (State.raise_above s _ rfl)
@[simp] theorem State.raise_jobFailed_laneFailed (s : State) :
    (s.raise .jobFailed).ccu.conditions.laneFailed = s.ccu.conditions.laneFailed := by
  unfold State.raise State.queueAlarm
  (repeat' split) <;> rfl
@[simp] theorem State.raise_sgc (s : State) (k : Condition) : (s.raise k).sgc = s.sgc := by
  unfold State.raise State.queueAlarm
  (repeat' split) <;> rfl
@[simp] theorem State.raise_jdp (s : State) (k : Condition) : (s.raise k).jdp = s.jdp := by
  unfold State.raise State.queueAlarm
  (repeat' split) <;> rfl
@[simp] theorem State.raise_lanes (s : State) (k : Condition) : (s.raise k).lanes = s.lanes := by
  unfold State.raise State.queueAlarm
  (repeat' split) <;> rfl
@[simp] theorem State.level_sgc (s : State) (k : Condition) (b : Bool) : (s.level k b).sgc = s.sgc := by
  unfold State.level
  split <;> simp
@[simp] theorem State.level_jdp (s : State) (k : Condition) (b : Bool) : (s.level k b).jdp = s.jdp := by
  unfold State.level
  split <;> simp
@[simp] theorem State.level_lanes (s : State) (k : Condition) (b : Bool) : (s.level k b).lanes = s.lanes := by
  unfold State.level
  split <;> simp
@[simp] theorem State.laneEvent_ccu_conditions (s : State) (n : Nat) :
    (s.laneEvent n).ccu.conditions = s.ccu.conditions := rfl
@[simp] theorem State.lectureEvent_ccu_conditions (s : State) (n : Nat) :
    (s.lectureEvent n).ccu.conditions = s.ccu.conditions := rfl
@[simp] theorem State.laneEvent_sgc (s : State) (n : Nat) : (s.laneEvent n).sgc = s.sgc := rfl
@[simp] theorem State.laneEvent_jdp (s : State) (n : Nat) : (s.laneEvent n).jdp = s.jdp := rfl
@[simp] theorem State.laneEvent_lanes (s : State) (n : Nat) : (s.laneEvent n).lanes = s.lanes := rfl
@[simp] theorem State.lectureEvent_sgc (s : State) (n : Nat) : (s.lectureEvent n).sgc = s.sgc := rfl
@[simp] theorem State.lectureEvent_jdp (s : State) (n : Nat) : (s.lectureEvent n).jdp = s.jdp := rfl
@[simp] theorem State.lectureEvent_lanes (s : State) (n : Nat) : (s.lectureEvent n).lanes = s.lanes := rfl

@[simp] theorem State.programPage_above (s : State) (g page : Nat) (bs : List Byte) :
    (s.programPage g page bs).above = s.above := rfl
@[simp] theorem State.eraseBytes_above (s : State) (g : Nat) : (s.eraseBytes g).above = s.above := rfl

/-! ### Store -/

@[simp] theorem State.storeEvent_above (s : State) :
    (State.storeEvent s).above = s.above := rfl

@[simp] theorem State.storeEvent_sgc (s : State) :
    (State.storeEvent s).sgc = s.sgc :=
  State.sgc_of_above (State.storeEvent_above _)

@[simp] theorem State.storeEvent_jdp (s : State) :
    (State.storeEvent s).jdp = s.jdp :=
  State.jdp_of_above (State.storeEvent_above _)

@[simp] theorem State.storeEvent_lanes (s : State) :
    (State.storeEvent s).lanes = s.lanes :=
  State.lanes_of_above (State.storeEvent_above _)

@[simp] theorem State.storeEvent_laneFailed (s : State) :
    (State.storeEvent s).ccu.conditions.laneFailed = s.ccu.conditions.laneFailed :=
  State.laneFailed_of_above (State.storeEvent_above _)

@[simp] theorem State.storeEvent_jobFailed (s : State) :
    (State.storeEvent s).ccu.conditions.jobFailed = s.ccu.conditions.jobFailed :=
  State.jobFailed_of_above (State.storeEvent_above _)

@[simp] theorem State.evalLevels_above (s : State) :
    (State.evalLevels s).above = s.above := by
  unfold State.evalLevels
  try dsimp only
  (repeat' split) <;> try simp [*, above_mk]

@[simp] theorem State.evalLevels_sgc (s : State) :
    (State.evalLevels s).sgc = s.sgc :=
  State.sgc_of_above (State.evalLevels_above _)

@[simp] theorem State.evalLevels_jdp (s : State) :
    (State.evalLevels s).jdp = s.jdp :=
  State.jdp_of_above (State.evalLevels_above _)

@[simp] theorem State.evalLevels_lanes (s : State) :
    (State.evalLevels s).lanes = s.lanes :=
  State.lanes_of_above (State.evalLevels_above _)

@[simp] theorem State.evalLevels_laneFailed (s : State) :
    (State.evalLevels s).ccu.conditions.laneFailed = s.ccu.conditions.laneFailed :=
  State.laneFailed_of_above (State.evalLevels_above _)

@[simp] theorem State.evalLevels_jobFailed (s : State) :
    (State.evalLevels s).ccu.conditions.jobFailed = s.ccu.conditions.jobFailed :=
  State.jobFailed_of_above (State.evalLevels_above _)

@[simp] theorem State.badlistFull_above (s : State) :
    (State.badlistFull s).above = s.above := by
  unfold State.badlistFull
  try dsimp only
  (repeat' split) <;> try simp [*, above_mk]

@[simp] theorem State.badlistFull_sgc (s : State) :
    (State.badlistFull s).sgc = s.sgc :=
  State.sgc_of_above (State.badlistFull_above _)

@[simp] theorem State.badlistFull_jdp (s : State) :
    (State.badlistFull s).jdp = s.jdp :=
  State.jdp_of_above (State.badlistFull_above _)

@[simp] theorem State.badlistFull_lanes (s : State) :
    (State.badlistFull s).lanes = s.lanes :=
  State.lanes_of_above (State.badlistFull_above _)

@[simp] theorem State.badlistFull_laneFailed (s : State) :
    (State.badlistFull s).ccu.conditions.laneFailed = s.ccu.conditions.laneFailed :=
  State.laneFailed_of_above (State.badlistFull_above _)

@[simp] theorem State.badlistFull_jobFailed (s : State) :
    (State.badlistFull s).ccu.conditions.jobFailed = s.ccu.conditions.jobFailed :=
  State.jobFailed_of_above (State.badlistFull_above _)

@[simp] theorem State.startProgram_above (s : State) (b : Nat) (x : Bank) (p : ProgramReq) :
    (State.startProgram s b x p).above = s.above := by
  unfold State.startProgram
  try dsimp only
  (repeat' split) <;> try simp [*, above_mk]

@[simp] theorem State.startProgram_sgc (s : State) (b : Nat) (x : Bank) (p : ProgramReq) :
    (State.startProgram s b x p).sgc = s.sgc :=
  State.sgc_of_above (State.startProgram_above _ _ _ _)

@[simp] theorem State.startProgram_jdp (s : State) (b : Nat) (x : Bank) (p : ProgramReq) :
    (State.startProgram s b x p).jdp = s.jdp :=
  State.jdp_of_above (State.startProgram_above _ _ _ _)

@[simp] theorem State.startProgram_lanes (s : State) (b : Nat) (x : Bank) (p : ProgramReq) :
    (State.startProgram s b x p).lanes = s.lanes :=
  State.lanes_of_above (State.startProgram_above _ _ _ _)

@[simp] theorem State.startProgram_laneFailed (s : State) (b : Nat) (x : Bank) (p : ProgramReq) :
    (State.startProgram s b x p).ccu.conditions.laneFailed = s.ccu.conditions.laneFailed :=
  State.laneFailed_of_above (State.startProgram_above _ _ _ _)

@[simp] theorem State.startProgram_jobFailed (s : State) (b : Nat) (x : Bank) (p : ProgramReq) :
    (State.startProgram s b x p).ccu.conditions.jobFailed = s.ccu.conditions.jobFailed :=
  State.jobFailed_of_above (State.startProgram_above _ _ _ _)

@[simp] theorem State.grantCopy_above (s : State) (b : Nat) (x : Bank) (l : List CopyReq) :
    (State.grantCopy s b x l).1.above = s.above := by
  induction l generalizing s with
  | nil => simp [State.grantCopy]
  | cons c t ih =>
    cases c with
    | read r => simp [State.grantCopy]
    | program p => simp [State.grantCopy]
    | append g =>
      simp only [State.grantCopy]
      split <;> simp [ih, above_mk]

@[simp] theorem State.grantCopy_sgc (s : State) (b : Nat) (x : Bank) (l : List CopyReq) :
    (State.grantCopy s b x l).1.sgc = s.sgc :=
  State.sgc_of_above (State.grantCopy_above _ _ _ _)

@[simp] theorem State.grantCopy_jdp (s : State) (b : Nat) (x : Bank) (l : List CopyReq) :
    (State.grantCopy s b x l).1.jdp = s.jdp :=
  State.jdp_of_above (State.grantCopy_above _ _ _ _)

@[simp] theorem State.grantCopy_lanes (s : State) (b : Nat) (x : Bank) (l : List CopyReq) :
    (State.grantCopy s b x l).1.lanes = s.lanes :=
  State.lanes_of_above (State.grantCopy_above _ _ _ _)

@[simp] theorem State.grantCopy_laneFailed (s : State) (b : Nat) (x : Bank) (l : List CopyReq) :
    (State.grantCopy s b x l).1.ccu.conditions.laneFailed = s.ccu.conditions.laneFailed :=
  State.laneFailed_of_above (State.grantCopy_above _ _ _ _)

@[simp] theorem State.grantCopy_jobFailed (s : State) (b : Nat) (x : Bank) (l : List CopyReq) :
    (State.grantCopy s b x l).1.ccu.conditions.jobFailed = s.ccu.conditions.jobFailed :=
  State.jobFailed_of_above (State.grantCopy_above _ _ _ _)

@[simp] theorem State.grantErase_above (s : State) (b : Nat) :
    (State.grantErase s b).above = s.above := by
  unfold State.grantErase
  try dsimp only
  (repeat' split) <;> try simp [*, above_mk]

@[simp] theorem State.grantErase_sgc (s : State) (b : Nat) :
    (State.grantErase s b).sgc = s.sgc :=
  State.sgc_of_above (State.grantErase_above _ _)

@[simp] theorem State.grantErase_jdp (s : State) (b : Nat) :
    (State.grantErase s b).jdp = s.jdp :=
  State.jdp_of_above (State.grantErase_above _ _)

@[simp] theorem State.grantErase_lanes (s : State) (b : Nat) :
    (State.grantErase s b).lanes = s.lanes :=
  State.lanes_of_above (State.grantErase_above _ _)

@[simp] theorem State.grantErase_laneFailed (s : State) (b : Nat) :
    (State.grantErase s b).ccu.conditions.laneFailed = s.ccu.conditions.laneFailed :=
  State.laneFailed_of_above (State.grantErase_above _ _)

@[simp] theorem State.grantErase_jobFailed (s : State) (b : Nat) :
    (State.grantErase s b).ccu.conditions.jobFailed = s.ccu.conditions.jobFailed :=
  State.jobFailed_of_above (State.grantErase_above _ _)

@[simp] theorem State.arbitrate_above (s : State) (b : Nat) :
    (State.arbitrate s b).above = s.above := by
  unfold State.arbitrate
  try dsimp only
  (repeat' split) <;> try simp [*, above_mk]

@[simp] theorem State.arbitrate_sgc (s : State) (b : Nat) :
    (State.arbitrate s b).sgc = s.sgc :=
  State.sgc_of_above (State.arbitrate_above _ _)

@[simp] theorem State.arbitrate_jdp (s : State) (b : Nat) :
    (State.arbitrate s b).jdp = s.jdp :=
  State.jdp_of_above (State.arbitrate_above _ _)

@[simp] theorem State.arbitrate_lanes (s : State) (b : Nat) :
    (State.arbitrate s b).lanes = s.lanes :=
  State.lanes_of_above (State.arbitrate_above _ _)

@[simp] theorem State.arbitrate_laneFailed (s : State) (b : Nat) :
    (State.arbitrate s b).ccu.conditions.laneFailed = s.ccu.conditions.laneFailed :=
  State.laneFailed_of_above (State.arbitrate_above _ _)

@[simp] theorem State.arbitrate_jobFailed (s : State) (b : Nat) :
    (State.arbitrate s b).ccu.conditions.jobFailed = s.ccu.conditions.jobFailed :=
  State.jobFailed_of_above (State.arbitrate_above _ _)

@[simp] theorem State.afterJoin_above (s : State) (b : Nat) :
    (State.afterJoin s b).above = s.above := by
  unfold State.afterJoin
  try dsimp only
  (repeat' split) <;> try simp [*, above_mk]

@[simp] theorem State.afterJoin_sgc (s : State) (b : Nat) :
    (State.afterJoin s b).sgc = s.sgc :=
  State.sgc_of_above (State.afterJoin_above _ _)

@[simp] theorem State.afterJoin_jdp (s : State) (b : Nat) :
    (State.afterJoin s b).jdp = s.jdp :=
  State.jdp_of_above (State.afterJoin_above _ _)

@[simp] theorem State.afterJoin_lanes (s : State) (b : Nat) :
    (State.afterJoin s b).lanes = s.lanes :=
  State.lanes_of_above (State.afterJoin_above _ _)

@[simp] theorem State.afterJoin_laneFailed (s : State) (b : Nat) :
    (State.afterJoin s b).ccu.conditions.laneFailed = s.ccu.conditions.laneFailed :=
  State.laneFailed_of_above (State.afterJoin_above _ _)

@[simp] theorem State.afterJoin_jobFailed (s : State) (b : Nat) :
    (State.afterJoin s b).ccu.conditions.jobFailed = s.ccu.conditions.jobFailed :=
  State.jobFailed_of_above (State.afterJoin_above _ _)

@[simp] theorem State.joinCopy_above (s : State) (b : Nat) (r : CopyReq) :
    (State.joinCopy s b r).above = s.above := by
  unfold State.joinCopy
  try dsimp only
  (repeat' split) <;> try simp [*, above_mk]

@[simp] theorem State.joinCopy_sgc (s : State) (b : Nat) (r : CopyReq) :
    (State.joinCopy s b r).sgc = s.sgc :=
  State.sgc_of_above (State.joinCopy_above _ _ _)

@[simp] theorem State.joinCopy_jdp (s : State) (b : Nat) (r : CopyReq) :
    (State.joinCopy s b r).jdp = s.jdp :=
  State.jdp_of_above (State.joinCopy_above _ _ _)

@[simp] theorem State.joinCopy_lanes (s : State) (b : Nat) (r : CopyReq) :
    (State.joinCopy s b r).lanes = s.lanes :=
  State.lanes_of_above (State.joinCopy_above _ _ _)

@[simp] theorem State.joinCopy_laneFailed (s : State) (b : Nat) (r : CopyReq) :
    (State.joinCopy s b r).ccu.conditions.laneFailed = s.ccu.conditions.laneFailed :=
  State.laneFailed_of_above (State.joinCopy_above _ _ _)

@[simp] theorem State.joinCopy_jobFailed (s : State) (b : Nat) (r : CopyReq) :
    (State.joinCopy s b r).ccu.conditions.jobFailed = s.ccu.conditions.jobFailed :=
  State.jobFailed_of_above (State.joinCopy_above _ _ _)

@[simp] theorem State.joinDeliveryRead_above (s : State) (r : ReadReq) :
    (State.joinDeliveryRead s r).above = s.above := by
  unfold State.joinDeliveryRead
  try dsimp only
  (repeat' split) <;> try simp [*, above_mk]

@[simp] theorem State.joinDeliveryRead_sgc (s : State) (r : ReadReq) :
    (State.joinDeliveryRead s r).sgc = s.sgc :=
  State.sgc_of_above (State.joinDeliveryRead_above _ _)

@[simp] theorem State.joinDeliveryRead_jdp (s : State) (r : ReadReq) :
    (State.joinDeliveryRead s r).jdp = s.jdp :=
  State.jdp_of_above (State.joinDeliveryRead_above _ _)

@[simp] theorem State.joinDeliveryRead_lanes (s : State) (r : ReadReq) :
    (State.joinDeliveryRead s r).lanes = s.lanes :=
  State.lanes_of_above (State.joinDeliveryRead_above _ _)

@[simp] theorem State.joinDeliveryRead_laneFailed (s : State) (r : ReadReq) :
    (State.joinDeliveryRead s r).ccu.conditions.laneFailed = s.ccu.conditions.laneFailed :=
  State.laneFailed_of_above (State.joinDeliveryRead_above _ _)

@[simp] theorem State.joinDeliveryRead_jobFailed (s : State) (r : ReadReq) :
    (State.joinDeliveryRead s r).ccu.conditions.jobFailed = s.ccu.conditions.jobFailed :=
  State.jobFailed_of_above (State.joinDeliveryRead_above _ _)

@[simp] theorem State.joinLaneRead_above (s : State) (r : ReadReq) :
    (State.joinLaneRead s r).above = s.above := by
  unfold State.joinLaneRead
  try dsimp only
  (repeat' split) <;> try simp [*, above_mk]

@[simp] theorem State.joinLaneRead_sgc (s : State) (r : ReadReq) :
    (State.joinLaneRead s r).sgc = s.sgc :=
  State.sgc_of_above (State.joinLaneRead_above _ _)

@[simp] theorem State.joinLaneRead_jdp (s : State) (r : ReadReq) :
    (State.joinLaneRead s r).jdp = s.jdp :=
  State.jdp_of_above (State.joinLaneRead_above _ _)

@[simp] theorem State.joinLaneRead_lanes (s : State) (r : ReadReq) :
    (State.joinLaneRead s r).lanes = s.lanes :=
  State.lanes_of_above (State.joinLaneRead_above _ _)

@[simp] theorem State.joinLaneRead_laneFailed (s : State) (r : ReadReq) :
    (State.joinLaneRead s r).ccu.conditions.laneFailed = s.ccu.conditions.laneFailed :=
  State.laneFailed_of_above (State.joinLaneRead_above _ _)

@[simp] theorem State.joinLaneRead_jobFailed (s : State) (r : ReadReq) :
    (State.joinLaneRead s r).ccu.conditions.jobFailed = s.ccu.conditions.jobFailed :=
  State.jobFailed_of_above (State.joinLaneRead_above _ _)

@[simp] theorem State.mapBanks_above (s : State) (f : Bank → Bank) :
    (State.mapBanks s f).above = s.above := rfl

@[simp] theorem State.mapBanks_sgc (s : State) (f : Bank → Bank) :
    (State.mapBanks s f).sgc = s.sgc :=
  State.sgc_of_above (State.mapBanks_above _ _)

@[simp] theorem State.mapBanks_jdp (s : State) (f : Bank → Bank) :
    (State.mapBanks s f).jdp = s.jdp :=
  State.jdp_of_above (State.mapBanks_above _ _)

@[simp] theorem State.mapBanks_lanes (s : State) (f : Bank → Bank) :
    (State.mapBanks s f).lanes = s.lanes :=
  State.lanes_of_above (State.mapBanks_above _ _)

@[simp] theorem State.mapBanks_laneFailed (s : State) (f : Bank → Bank) :
    (State.mapBanks s f).ccu.conditions.laneFailed = s.ccu.conditions.laneFailed :=
  State.laneFailed_of_above (State.mapBanks_above _ _)

@[simp] theorem State.mapBanks_jobFailed (s : State) (f : Bank → Bank) :
    (State.mapBanks s f).ccu.conditions.jobFailed = s.ccu.conditions.jobFailed :=
  State.jobFailed_of_above (State.mapBanks_above _ _)

@[simp] theorem State.withdrawReads_above (s : State) (who : Reader → Bool) :
    (State.withdrawReads s who).above = s.above := by
  unfold State.withdrawReads
  try dsimp only
  (repeat' split) <;> try simp [*, above_mk]

@[simp] theorem State.withdrawReads_sgc (s : State) (who : Reader → Bool) :
    (State.withdrawReads s who).sgc = s.sgc :=
  State.sgc_of_above (State.withdrawReads_above _ _)

@[simp] theorem State.withdrawReads_jdp (s : State) (who : Reader → Bool) :
    (State.withdrawReads s who).jdp = s.jdp :=
  State.jdp_of_above (State.withdrawReads_above _ _)

@[simp] theorem State.withdrawReads_lanes (s : State) (who : Reader → Bool) :
    (State.withdrawReads s who).lanes = s.lanes :=
  State.lanes_of_above (State.withdrawReads_above _ _)

@[simp] theorem State.withdrawReads_laneFailed (s : State) (who : Reader → Bool) :
    (State.withdrawReads s who).ccu.conditions.laneFailed = s.ccu.conditions.laneFailed :=
  State.laneFailed_of_above (State.withdrawReads_above _ _)

@[simp] theorem State.withdrawReads_jobFailed (s : State) (who : Reader → Bool) :
    (State.withdrawReads s who).ccu.conditions.jobFailed = s.ccu.conditions.jobFailed :=
  State.jobFailed_of_above (State.withdrawReads_above _ _)

@[simp] theorem State.retireBlock_above (s : State) (g : Nat) :
    (State.retireBlock s g).above = s.above := by
  unfold State.retireBlock
  try dsimp only
  (repeat' split) <;> try simp [*, above_mk]

@[simp] theorem State.retireBlock_sgc (s : State) (g : Nat) :
    (State.retireBlock s g).sgc = s.sgc :=
  State.sgc_of_above (State.retireBlock_above _ _)

@[simp] theorem State.retireBlock_jdp (s : State) (g : Nat) :
    (State.retireBlock s g).jdp = s.jdp :=
  State.jdp_of_above (State.retireBlock_above _ _)

@[simp] theorem State.retireBlock_lanes (s : State) (g : Nat) :
    (State.retireBlock s g).lanes = s.lanes :=
  State.lanes_of_above (State.retireBlock_above _ _)

@[simp] theorem State.retireBlock_laneFailed (s : State) (g : Nat) :
    (State.retireBlock s g).ccu.conditions.laneFailed = s.ccu.conditions.laneFailed :=
  State.laneFailed_of_above (State.retireBlock_above _ _)

@[simp] theorem State.retireBlock_jobFailed (s : State) (g : Nat) :
    (State.retireBlock s g).ccu.conditions.jobFailed = s.ccu.conditions.jobFailed :=
  State.jobFailed_of_above (State.retireBlock_above _ _)

@[simp] theorem State.badBlock_above (s : State) (g : Nat) :
    (State.badBlock s g).above = s.above := by
  unfold State.badBlock
  try dsimp only
  (repeat' split) <;> try simp [*, above_mk]

@[simp] theorem State.badBlock_sgc (s : State) (g : Nat) :
    (State.badBlock s g).sgc = s.sgc :=
  State.sgc_of_above (State.badBlock_above _ _)

@[simp] theorem State.badBlock_jdp (s : State) (g : Nat) :
    (State.badBlock s g).jdp = s.jdp :=
  State.jdp_of_above (State.badBlock_above _ _)

@[simp] theorem State.badBlock_lanes (s : State) (g : Nat) :
    (State.badBlock s g).lanes = s.lanes :=
  State.lanes_of_above (State.badBlock_above _ _)

@[simp] theorem State.badBlock_laneFailed (s : State) (g : Nat) :
    (State.badBlock s g).ccu.conditions.laneFailed = s.ccu.conditions.laneFailed :=
  State.laneFailed_of_above (State.badBlock_above _ _)

@[simp] theorem State.badBlock_jobFailed (s : State) (g : Nat) :
    (State.badBlock s g).ccu.conditions.jobFailed = s.ccu.conditions.jobFailed :=
  State.jobFailed_of_above (State.badBlock_above _ _)

@[simp] theorem State.takeBlock_above (s : State) (g : Nat) :
    (State.takeBlock s g).above = s.above := by
  unfold State.takeBlock
  try dsimp only
  (repeat' split) <;> try simp [*, above_mk]

@[simp] theorem State.takeBlock_sgc (s : State) (g : Nat) :
    (State.takeBlock s g).sgc = s.sgc :=
  State.sgc_of_above (State.takeBlock_above _ _)

@[simp] theorem State.takeBlock_jdp (s : State) (g : Nat) :
    (State.takeBlock s g).jdp = s.jdp :=
  State.jdp_of_above (State.takeBlock_above _ _)

@[simp] theorem State.takeBlock_lanes (s : State) (g : Nat) :
    (State.takeBlock s g).lanes = s.lanes :=
  State.lanes_of_above (State.takeBlock_above _ _)

@[simp] theorem State.takeBlock_laneFailed (s : State) (g : Nat) :
    (State.takeBlock s g).ccu.conditions.laneFailed = s.ccu.conditions.laneFailed :=
  State.laneFailed_of_above (State.takeBlock_above _ _)

@[simp] theorem State.takeBlock_jobFailed (s : State) (g : Nat) :
    (State.takeBlock s g).ccu.conditions.jobFailed = s.ccu.conditions.jobFailed :=
  State.jobFailed_of_above (State.takeBlock_above _ _)

@[simp] theorem State.giveBuffer_above (s : State) (o : BufOwner) (g page : Nat) :
    (State.giveBuffer s o g page).above = s.above := by
  unfold State.giveBuffer
  try dsimp only
  (repeat' split) <;> try simp [*, above_mk]

@[simp] theorem State.giveBuffer_sgc (s : State) (o : BufOwner) (g page : Nat) :
    (State.giveBuffer s o g page).sgc = s.sgc :=
  State.sgc_of_above (State.giveBuffer_above _ _ _ _)

@[simp] theorem State.giveBuffer_jdp (s : State) (o : BufOwner) (g page : Nat) :
    (State.giveBuffer s o g page).jdp = s.jdp :=
  State.jdp_of_above (State.giveBuffer_above _ _ _ _)

@[simp] theorem State.giveBuffer_lanes (s : State) (o : BufOwner) (g page : Nat) :
    (State.giveBuffer s o g page).lanes = s.lanes :=
  State.lanes_of_above (State.giveBuffer_above _ _ _ _)

@[simp] theorem State.giveBuffer_laneFailed (s : State) (o : BufOwner) (g page : Nat) :
    (State.giveBuffer s o g page).ccu.conditions.laneFailed = s.ccu.conditions.laneFailed :=
  State.laneFailed_of_above (State.giveBuffer_above _ _ _ _)

@[simp] theorem State.giveBuffer_jobFailed (s : State) (o : BufOwner) (g page : Nat) :
    (State.giveBuffer s o g page).ccu.conditions.jobFailed = s.ccu.conditions.jobFailed :=
  State.jobFailed_of_above (State.giveBuffer_above _ _ _ _)

@[simp] theorem State.offer_above (s : State) (i : Nat) :
    (State.offer s i).above = s.above := by
  unfold State.offer
  try dsimp only
  (repeat' split) <;> try simp [*, above_mk]

@[simp] theorem State.offer_sgc (s : State) (i : Nat) :
    (State.offer s i).sgc = s.sgc :=
  State.sgc_of_above (State.offer_above _ _)

@[simp] theorem State.offer_jdp (s : State) (i : Nat) :
    (State.offer s i).jdp = s.jdp :=
  State.jdp_of_above (State.offer_above _ _)

@[simp] theorem State.offer_lanes (s : State) (i : Nat) :
    (State.offer s i).lanes = s.lanes :=
  State.lanes_of_above (State.offer_above _ _)

@[simp] theorem State.offer_laneFailed (s : State) (i : Nat) :
    (State.offer s i).ccu.conditions.laneFailed = s.ccu.conditions.laneFailed :=
  State.laneFailed_of_above (State.offer_above _ _)

@[simp] theorem State.offer_jobFailed (s : State) (i : Nat) :
    (State.offer s i).ccu.conditions.jobFailed = s.ccu.conditions.jobFailed :=
  State.jobFailed_of_above (State.offer_above _ _)

@[simp] theorem State.discardBuf_above (s : State) (i : Nat) :
    (State.discardBuf s i).above = s.above := by
  unfold State.discardBuf
  try dsimp only
  (repeat' split) <;> try simp [*, above_mk]

@[simp] theorem State.discardBuf_sgc (s : State) (i : Nat) :
    (State.discardBuf s i).sgc = s.sgc :=
  State.sgc_of_above (State.discardBuf_above _ _)

@[simp] theorem State.discardBuf_jdp (s : State) (i : Nat) :
    (State.discardBuf s i).jdp = s.jdp :=
  State.jdp_of_above (State.discardBuf_above _ _)

@[simp] theorem State.discardBuf_lanes (s : State) (i : Nat) :
    (State.discardBuf s i).lanes = s.lanes :=
  State.lanes_of_above (State.discardBuf_above _ _)

@[simp] theorem State.discardBuf_laneFailed (s : State) (i : Nat) :
    (State.discardBuf s i).ccu.conditions.laneFailed = s.ccu.conditions.laneFailed :=
  State.laneFailed_of_above (State.discardBuf_above _ _)

@[simp] theorem State.discardBuf_jobFailed (s : State) (i : Nat) :
    (State.discardBuf s i).ccu.conditions.jobFailed = s.ccu.conditions.jobFailed :=
  State.jobFailed_of_above (State.discardBuf_above _ _)

@[simp] theorem State.discardWhere_above (s : State) (p : Buf → Bool) :
    (State.discardWhere s p).above = s.above := by
  unfold State.discardWhere
  try dsimp only
  (repeat' split) <;> try simp [*, above_mk]
  all_goals try refine (foldl_keeps (fun q : State => q.above) _ (fun q e => ?_) _ _).trans ?_
  all_goals try dsimp only
  all_goals (repeat' split) <;> try simp [*, above_mk]
  all_goals try refine (foldl_keeps (fun q : State => q.above) _ (fun q e => ?_) _ _).trans ?_
  all_goals (repeat' split) <;> try simp [*, above_mk]

@[simp] theorem State.discardWhere_sgc (s : State) (p : Buf → Bool) :
    (State.discardWhere s p).sgc = s.sgc :=
  State.sgc_of_above (State.discardWhere_above _ _)

@[simp] theorem State.discardWhere_jdp (s : State) (p : Buf → Bool) :
    (State.discardWhere s p).jdp = s.jdp :=
  State.jdp_of_above (State.discardWhere_above _ _)

@[simp] theorem State.discardWhere_lanes (s : State) (p : Buf → Bool) :
    (State.discardWhere s p).lanes = s.lanes :=
  State.lanes_of_above (State.discardWhere_above _ _)

@[simp] theorem State.discardWhere_laneFailed (s : State) (p : Buf → Bool) :
    (State.discardWhere s p).ccu.conditions.laneFailed = s.ccu.conditions.laneFailed :=
  State.laneFailed_of_above (State.discardWhere_above _ _)

@[simp] theorem State.discardWhere_jobFailed (s : State) (p : Buf → Bool) :
    (State.discardWhere s p).ccu.conditions.jobFailed = s.ccu.conditions.jobFailed :=
  State.jobFailed_of_above (State.discardWhere_above _ _)

@[simp] theorem State.discardUncommitted_above (s : State) (n : Nat) :
    (State.discardUncommitted s n).above = s.above := by
  unfold State.discardUncommitted
  try dsimp only
  (repeat' split) <;> try simp [*, above_mk]
  all_goals try refine (foldl_keeps (fun q : State => q.above) _ (fun q e => ?_) _ _).trans ?_
  all_goals try dsimp only
  all_goals (repeat' split) <;> try simp [*, above_mk]
  all_goals try refine (foldl_keeps (fun q : State => q.above) _ (fun q e => ?_) _ _).trans ?_
  all_goals (repeat' split) <;> try simp [*, above_mk]

@[simp] theorem State.discardUncommitted_sgc (s : State) (n : Nat) :
    (State.discardUncommitted s n).sgc = s.sgc :=
  State.sgc_of_above (State.discardUncommitted_above _ _)

@[simp] theorem State.discardUncommitted_jdp (s : State) (n : Nat) :
    (State.discardUncommitted s n).jdp = s.jdp :=
  State.jdp_of_above (State.discardUncommitted_above _ _)

@[simp] theorem State.discardUncommitted_lanes (s : State) (n : Nat) :
    (State.discardUncommitted s n).lanes = s.lanes :=
  State.lanes_of_above (State.discardUncommitted_above _ _)

@[simp] theorem State.discardUncommitted_laneFailed (s : State) (n : Nat) :
    (State.discardUncommitted s n).ccu.conditions.laneFailed = s.ccu.conditions.laneFailed :=
  State.laneFailed_of_above (State.discardUncommitted_above _ _)

@[simp] theorem State.discardUncommitted_jobFailed (s : State) (n : Nat) :
    (State.discardUncommitted s n).ccu.conditions.jobFailed = s.ccu.conditions.jobFailed :=
  State.jobFailed_of_above (State.discardUncommitted_above _ _)

@[simp] theorem State.losePages_above (s : State) (g : Nat) (pages : List Nat) :
    (State.losePages s g pages).above = s.above := by
  unfold State.losePages
  try dsimp only
  (repeat' split) <;> try simp [*, above_mk]

@[simp] theorem State.losePages_sgc (s : State) (g : Nat) (pages : List Nat) :
    (State.losePages s g pages).sgc = s.sgc :=
  State.sgc_of_above (State.losePages_above _ _ _)

@[simp] theorem State.losePages_jdp (s : State) (g : Nat) (pages : List Nat) :
    (State.losePages s g pages).jdp = s.jdp :=
  State.jdp_of_above (State.losePages_above _ _ _)

@[simp] theorem State.losePages_lanes (s : State) (g : Nat) (pages : List Nat) :
    (State.losePages s g pages).lanes = s.lanes :=
  State.lanes_of_above (State.losePages_above _ _ _)

@[simp] theorem State.losePages_laneFailed (s : State) (g : Nat) (pages : List Nat) :
    (State.losePages s g pages).ccu.conditions.laneFailed = s.ccu.conditions.laneFailed :=
  State.laneFailed_of_above (State.losePages_above _ _ _)

@[simp] theorem State.losePages_jobFailed (s : State) (g : Nat) (pages : List Nat) :
    (State.losePages s g pages).ccu.conditions.jobFailed = s.ccu.conditions.jobFailed :=
  State.jobFailed_of_above (State.losePages_above _ _ _)

@[simp] theorem State.protectTest_above (s : State) (g : Nat) :
    (State.protectTest s g).above = s.above := by
  unfold State.protectTest
  try dsimp only
  (repeat' split) <;> try simp [*, above_mk]

@[simp] theorem State.protectTest_sgc (s : State) (g : Nat) :
    (State.protectTest s g).sgc = s.sgc :=
  State.sgc_of_above (State.protectTest_above _ _)

@[simp] theorem State.protectTest_jdp (s : State) (g : Nat) :
    (State.protectTest s g).jdp = s.jdp :=
  State.jdp_of_above (State.protectTest_above _ _)

@[simp] theorem State.protectTest_lanes (s : State) (g : Nat) :
    (State.protectTest s g).lanes = s.lanes :=
  State.lanes_of_above (State.protectTest_above _ _)

@[simp] theorem State.protectTest_laneFailed (s : State) (g : Nat) :
    (State.protectTest s g).ccu.conditions.laneFailed = s.ccu.conditions.laneFailed :=
  State.laneFailed_of_above (State.protectTest_above _ _)

@[simp] theorem State.protectTest_jobFailed (s : State) (g : Nat) :
    (State.protectTest s g).ccu.conditions.jobFailed = s.ccu.conditions.jobFailed :=
  State.jobFailed_of_above (State.protectTest_above _ _)

@[simp] theorem State.addClaim_above (s : State) (c : Claim) :
    (State.addClaim s c).above = s.above := rfl

@[simp] theorem State.withdrawClaim_above (s : State) (who : Claimant) :
    (State.withdrawClaim s who).above = s.above := rfl

@[simp] theorem State.setReloc_above (s : State) (x : Relocation) :
    (State.setReloc s x).above = s.above := rfl

@[simp] theorem State.setReloc_sgc (s : State) (x : Relocation) :
    (State.setReloc s x).sgc = s.sgc :=
  State.sgc_of_above (State.setReloc_above _ _)

@[simp] theorem State.setReloc_jdp (s : State) (x : Relocation) :
    (State.setReloc s x).jdp = s.jdp :=
  State.jdp_of_above (State.setReloc_above _ _)

@[simp] theorem State.setReloc_lanes (s : State) (x : Relocation) :
    (State.setReloc s x).lanes = s.lanes :=
  State.lanes_of_above (State.setReloc_above _ _)

@[simp] theorem State.setReloc_laneFailed (s : State) (x : Relocation) :
    (State.setReloc s x).ccu.conditions.laneFailed = s.ccu.conditions.laneFailed :=
  State.laneFailed_of_above (State.setReloc_above _ _)

@[simp] theorem State.setReloc_jobFailed (s : State) (x : Relocation) :
    (State.setReloc s x).ccu.conditions.jobFailed = s.ccu.conditions.jobFailed :=
  State.jobFailed_of_above (State.setReloc_above _ _)

@[simp] theorem State.dropReloc_above (s : State) (failed : Nat) :
    (State.dropReloc s failed).above = s.above := rfl

@[simp] theorem State.dropReloc_sgc (s : State) (failed : Nat) :
    (State.dropReloc s failed).sgc = s.sgc :=
  State.sgc_of_above (State.dropReloc_above _ _)

@[simp] theorem State.dropReloc_jdp (s : State) (failed : Nat) :
    (State.dropReloc s failed).jdp = s.jdp :=
  State.jdp_of_above (State.dropReloc_above _ _)

@[simp] theorem State.dropReloc_lanes (s : State) (failed : Nat) :
    (State.dropReloc s failed).lanes = s.lanes :=
  State.lanes_of_above (State.dropReloc_above _ _)

@[simp] theorem State.dropReloc_laneFailed (s : State) (failed : Nat) :
    (State.dropReloc s failed).ccu.conditions.laneFailed = s.ccu.conditions.laneFailed :=
  State.laneFailed_of_above (State.dropReloc_above _ _)

@[simp] theorem State.dropReloc_jobFailed (s : State) (failed : Nat) :
    (State.dropReloc s failed).ccu.conditions.jobFailed = s.ccu.conditions.jobFailed :=
  State.jobFailed_of_above (State.dropReloc_above _ _)

@[simp] theorem State.copyOn_above (s : State) (o : Owner) (most : Nat) :
    (State.copyOn s o most).above = s.above := by
  unfold State.copyOn
  try dsimp only
  (repeat' split) <;> try simp [*, above_mk]
  all_goals try refine (foldl_keeps (fun q : State => q.above) _ (fun q e => ?_) _ _).trans ?_
  all_goals try dsimp only
  all_goals (repeat' split) <;> try simp [*, above_mk]
  all_goals try refine (foldl_keeps (fun q : State => q.above) _ (fun q e => ?_) _ _).trans ?_
  all_goals (repeat' split) <;> try simp [*, above_mk]

@[simp] theorem State.copyOn_sgc (s : State) (o : Owner) (most : Nat) :
    (State.copyOn s o most).sgc = s.sgc :=
  State.sgc_of_above (State.copyOn_above _ _ _)

@[simp] theorem State.copyOn_jdp (s : State) (o : Owner) (most : Nat) :
    (State.copyOn s o most).jdp = s.jdp :=
  State.jdp_of_above (State.copyOn_above _ _ _)

@[simp] theorem State.copyOn_lanes (s : State) (o : Owner) (most : Nat) :
    (State.copyOn s o most).lanes = s.lanes :=
  State.lanes_of_above (State.copyOn_above _ _ _)

@[simp] theorem State.copyOn_laneFailed (s : State) (o : Owner) (most : Nat) :
    (State.copyOn s o most).ccu.conditions.laneFailed = s.ccu.conditions.laneFailed :=
  State.laneFailed_of_above (State.copyOn_above _ _ _)

@[simp] theorem State.copyOn_jobFailed (s : State) (o : Owner) (most : Nat) :
    (State.copyOn s o most).ccu.conditions.jobFailed = s.ccu.conditions.jobFailed :=
  State.jobFailed_of_above (State.copyOn_above _ _ _)

@[simp] theorem State.takeTarget_above (s : State) (r : Relocation) (g : Nat) :
    (State.takeTarget s r g).above = s.above := by
  unfold State.takeTarget
  try dsimp only
  (repeat' split) <;> try simp [*, above_mk]

@[simp] theorem State.takeTarget_sgc (s : State) (r : Relocation) (g : Nat) :
    (State.takeTarget s r g).sgc = s.sgc :=
  State.sgc_of_above (State.takeTarget_above _ _ _)

@[simp] theorem State.takeTarget_jdp (s : State) (r : Relocation) (g : Nat) :
    (State.takeTarget s r g).jdp = s.jdp :=
  State.jdp_of_above (State.takeTarget_above _ _ _)

@[simp] theorem State.takeTarget_lanes (s : State) (r : Relocation) (g : Nat) :
    (State.takeTarget s r g).lanes = s.lanes :=
  State.lanes_of_above (State.takeTarget_above _ _ _)

@[simp] theorem State.takeTarget_laneFailed (s : State) (r : Relocation) (g : Nat) :
    (State.takeTarget s r g).ccu.conditions.laneFailed = s.ccu.conditions.laneFailed :=
  State.laneFailed_of_above (State.takeTarget_above _ _ _)

@[simp] theorem State.takeTarget_jobFailed (s : State) (r : Relocation) (g : Nat) :
    (State.takeTarget s r g).ccu.conditions.jobFailed = s.ccu.conditions.jobFailed :=
  State.jobFailed_of_above (State.takeTarget_above _ _ _)

@[simp] theorem State.askTarget_above (s : State) (r : Relocation) :
    (State.askTarget s r).above = s.above := by
  unfold State.askTarget
  try dsimp only
  (repeat' split) <;> try simp [*, above_mk]

@[simp] theorem State.askTarget_sgc (s : State) (r : Relocation) :
    (State.askTarget s r).sgc = s.sgc :=
  State.sgc_of_above (State.askTarget_above _ _)

@[simp] theorem State.askTarget_jdp (s : State) (r : Relocation) :
    (State.askTarget s r).jdp = s.jdp :=
  State.jdp_of_above (State.askTarget_above _ _)

@[simp] theorem State.askTarget_lanes (s : State) (r : Relocation) :
    (State.askTarget s r).lanes = s.lanes :=
  State.lanes_of_above (State.askTarget_above _ _)

@[simp] theorem State.askTarget_laneFailed (s : State) (r : Relocation) :
    (State.askTarget s r).ccu.conditions.laneFailed = s.ccu.conditions.laneFailed :=
  State.laneFailed_of_above (State.askTarget_above _ _)

@[simp] theorem State.askTarget_jobFailed (s : State) (r : Relocation) :
    (State.askTarget s r).ccu.conditions.jobFailed = s.ccu.conditions.jobFailed :=
  State.jobFailed_of_above (State.askTarget_above _ _)

@[simp] theorem State.nextReloc_above (s : State) (o : Owner) :
    (State.nextReloc s o).above = s.above := by
  unfold State.nextReloc
  try dsimp only
  (repeat' split) <;> try simp [*, above_mk]

@[simp] theorem State.nextReloc_sgc (s : State) (o : Owner) :
    (State.nextReloc s o).sgc = s.sgc :=
  State.sgc_of_above (State.nextReloc_above _ _)

@[simp] theorem State.nextReloc_jdp (s : State) (o : Owner) :
    (State.nextReloc s o).jdp = s.jdp :=
  State.jdp_of_above (State.nextReloc_above _ _)

@[simp] theorem State.nextReloc_lanes (s : State) (o : Owner) :
    (State.nextReloc s o).lanes = s.lanes :=
  State.lanes_of_above (State.nextReloc_above _ _)

@[simp] theorem State.nextReloc_laneFailed (s : State) (o : Owner) :
    (State.nextReloc s o).ccu.conditions.laneFailed = s.ccu.conditions.laneFailed :=
  State.laneFailed_of_above (State.nextReloc_above _ _)

@[simp] theorem State.nextReloc_jobFailed (s : State) (o : Owner) :
    (State.nextReloc s o).ccu.conditions.jobFailed = s.ccu.conditions.jobFailed :=
  State.jobFailed_of_above (State.nextReloc_above _ _)

@[simp] theorem State.startReloc_above (s : State) (o : Owner) (g page i : Nat) :
    (State.startReloc s o g page i).above = s.above := by
  unfold State.startReloc
  try dsimp only
  (repeat' split) <;> try simp [*, above_mk]
  all_goals try refine (foldl_keeps (fun q : State => q.above) _ (fun q e => ?_) _ _).trans ?_
  all_goals try dsimp only
  all_goals (repeat' split) <;> try simp [*, above_mk]
  all_goals try refine (foldl_keeps (fun q : State => q.above) _ (fun q e => ?_) _ _).trans ?_
  all_goals (repeat' split) <;> try simp [*, above_mk]

@[simp] theorem State.startReloc_sgc (s : State) (o : Owner) (g page i : Nat) :
    (State.startReloc s o g page i).sgc = s.sgc :=
  State.sgc_of_above (State.startReloc_above _ _ _ _ _)

@[simp] theorem State.startReloc_jdp (s : State) (o : Owner) (g page i : Nat) :
    (State.startReloc s o g page i).jdp = s.jdp :=
  State.jdp_of_above (State.startReloc_above _ _ _ _ _)

@[simp] theorem State.startReloc_lanes (s : State) (o : Owner) (g page i : Nat) :
    (State.startReloc s o g page i).lanes = s.lanes :=
  State.lanes_of_above (State.startReloc_above _ _ _ _ _)

@[simp] theorem State.startReloc_laneFailed (s : State) (o : Owner) (g page i : Nat) :
    (State.startReloc s o g page i).ccu.conditions.laneFailed = s.ccu.conditions.laneFailed :=
  State.laneFailed_of_above (State.startReloc_above _ _ _ _ _)

@[simp] theorem State.startReloc_jobFailed (s : State) (o : Owner) (g page i : Nat) :
    (State.startReloc s o g page i).ccu.conditions.jobFailed = s.ccu.conditions.jobFailed :=
  State.jobFailed_of_above (State.startReloc_above _ _ _ _ _)

@[simp] theorem State.replaceBlock_above (s : State) (o : Owner) (failed target : Nat) :
    (State.replaceBlock s o failed target).above = s.above := by
  unfold State.replaceBlock
  try dsimp only
  (repeat' split) <;> try simp [*, above_mk]

@[simp] theorem State.replaceBlock_sgc (s : State) (o : Owner) (failed target : Nat) :
    (State.replaceBlock s o failed target).sgc = s.sgc :=
  State.sgc_of_above (State.replaceBlock_above _ _ _ _)

@[simp] theorem State.replaceBlock_jdp (s : State) (o : Owner) (failed target : Nat) :
    (State.replaceBlock s o failed target).jdp = s.jdp :=
  State.jdp_of_above (State.replaceBlock_above _ _ _ _)

@[simp] theorem State.replaceBlock_lanes (s : State) (o : Owner) (failed target : Nat) :
    (State.replaceBlock s o failed target).lanes = s.lanes :=
  State.lanes_of_above (State.replaceBlock_above _ _ _ _)

@[simp] theorem State.replaceBlock_laneFailed (s : State) (o : Owner) (failed target : Nat) :
    (State.replaceBlock s o failed target).ccu.conditions.laneFailed = s.ccu.conditions.laneFailed :=
  State.laneFailed_of_above (State.replaceBlock_above _ _ _ _)

@[simp] theorem State.replaceBlock_jobFailed (s : State) (o : Owner) (failed target : Nat) :
    (State.replaceBlock s o failed target).ccu.conditions.jobFailed = s.ccu.conditions.jobFailed :=
  State.jobFailed_of_above (State.replaceBlock_above _ _ _ _)

@[simp] theorem State.moveReads_above (s : State) (failed target : Nat) :
    (State.moveReads s failed target).above = s.above := by
  unfold State.moveReads
  try dsimp only
  (repeat' split) <;> try simp [*, above_mk]
  all_goals try refine (foldl_keeps (fun q : State => q.above) _ (fun q e => ?_) _ _).trans ?_
  all_goals try dsimp only
  all_goals (repeat' split) <;> try simp [*, above_mk]
  all_goals try refine (foldl_keeps (fun q : State => q.above) _ (fun q e => ?_) _ _).trans ?_
  all_goals (repeat' split) <;> try simp [*, above_mk]

@[simp] theorem State.moveReads_sgc (s : State) (failed target : Nat) :
    (State.moveReads s failed target).sgc = s.sgc :=
  State.sgc_of_above (State.moveReads_above _ _ _)

@[simp] theorem State.moveReads_jdp (s : State) (failed target : Nat) :
    (State.moveReads s failed target).jdp = s.jdp :=
  State.jdp_of_above (State.moveReads_above _ _ _)

@[simp] theorem State.moveReads_lanes (s : State) (failed target : Nat) :
    (State.moveReads s failed target).lanes = s.lanes :=
  State.lanes_of_above (State.moveReads_above _ _ _)

@[simp] theorem State.moveReads_laneFailed (s : State) (failed target : Nat) :
    (State.moveReads s failed target).ccu.conditions.laneFailed = s.ccu.conditions.laneFailed :=
  State.laneFailed_of_above (State.moveReads_above _ _ _)

@[simp] theorem State.moveReads_jobFailed (s : State) (failed target : Nat) :
    (State.moveReads s failed target).ccu.conditions.jobFailed = s.ccu.conditions.jobFailed :=
  State.jobFailed_of_above (State.moveReads_above _ _ _)

@[simp] theorem State.switchReloc_above (s : State) (r : Relocation) (t i : Nat) :
    (State.switchReloc s r t i).above = s.above := by
  unfold State.switchReloc
  try dsimp only
  (repeat' split) <;> try simp [*, above_mk]
  all_goals try refine (foldl_keeps (fun q : State => q.above) _ (fun q e => ?_) _ _).trans ?_
  all_goals try dsimp only
  all_goals (repeat' split) <;> try simp [*, above_mk]
  all_goals try refine (foldl_keeps (fun q : State => q.above) _ (fun q e => ?_) _ _).trans ?_
  all_goals (repeat' split) <;> try simp [*, above_mk]

@[simp] theorem State.switchReloc_sgc (s : State) (r : Relocation) (t i : Nat) :
    (State.switchReloc s r t i).sgc = s.sgc :=
  State.sgc_of_above (State.switchReloc_above _ _ _ _)

@[simp] theorem State.switchReloc_jdp (s : State) (r : Relocation) (t i : Nat) :
    (State.switchReloc s r t i).jdp = s.jdp :=
  State.jdp_of_above (State.switchReloc_above _ _ _ _)

@[simp] theorem State.switchReloc_lanes (s : State) (r : Relocation) (t i : Nat) :
    (State.switchReloc s r t i).lanes = s.lanes :=
  State.lanes_of_above (State.switchReloc_above _ _ _ _)

@[simp] theorem State.switchReloc_laneFailed (s : State) (r : Relocation) (t i : Nat) :
    (State.switchReloc s r t i).ccu.conditions.laneFailed = s.ccu.conditions.laneFailed :=
  State.laneFailed_of_above (State.switchReloc_above _ _ _ _)

@[simp] theorem State.switchReloc_jobFailed (s : State) (r : Relocation) (t i : Nat) :
    (State.switchReloc s r t i).ccu.conditions.jobFailed = s.ccu.conditions.jobFailed :=
  State.jobFailed_of_above (State.switchReloc_above _ _ _ _)

@[simp] theorem State.retryReloc_above (s : State) (r : Relocation) (t i : Nat) :
    (State.retryReloc s r t i).above = s.above := by
  unfold State.retryReloc
  try dsimp only
  (repeat' split) <;> try simp [*, above_mk]

@[simp] theorem State.retryReloc_sgc (s : State) (r : Relocation) (t i : Nat) :
    (State.retryReloc s r t i).sgc = s.sgc :=
  State.sgc_of_above (State.retryReloc_above _ _ _ _)

@[simp] theorem State.retryReloc_jdp (s : State) (r : Relocation) (t i : Nat) :
    (State.retryReloc s r t i).jdp = s.jdp :=
  State.jdp_of_above (State.retryReloc_above _ _ _ _)

@[simp] theorem State.retryReloc_lanes (s : State) (r : Relocation) (t i : Nat) :
    (State.retryReloc s r t i).lanes = s.lanes :=
  State.lanes_of_above (State.retryReloc_above _ _ _ _)

@[simp] theorem State.retryReloc_laneFailed (s : State) (r : Relocation) (t i : Nat) :
    (State.retryReloc s r t i).ccu.conditions.laneFailed = s.ccu.conditions.laneFailed :=
  State.laneFailed_of_above (State.retryReloc_above _ _ _ _)

@[simp] theorem State.retryReloc_jobFailed (s : State) (r : Relocation) (t i : Nat) :
    (State.retryReloc s r t i).ccu.conditions.jobFailed = s.ccu.conditions.jobFailed :=
  State.jobFailed_of_above (State.retryReloc_above _ _ _ _)

@[simp] theorem State.abandonReloc_above (s : State) (r : Relocation) :
    (State.abandonReloc s r).above = s.above := by
  unfold State.abandonReloc
  try dsimp only
  (repeat' split) <;> try simp [*, above_mk]

@[simp] theorem State.abandonReloc_sgc (s : State) (r : Relocation) :
    (State.abandonReloc s r).sgc = s.sgc :=
  State.sgc_of_above (State.abandonReloc_above _ _)

@[simp] theorem State.abandonReloc_jdp (s : State) (r : Relocation) :
    (State.abandonReloc s r).jdp = s.jdp :=
  State.jdp_of_above (State.abandonReloc_above _ _)

@[simp] theorem State.abandonReloc_lanes (s : State) (r : Relocation) :
    (State.abandonReloc s r).lanes = s.lanes :=
  State.lanes_of_above (State.abandonReloc_above _ _)

@[simp] theorem State.abandonReloc_laneFailed (s : State) (r : Relocation) :
    (State.abandonReloc s r).ccu.conditions.laneFailed = s.ccu.conditions.laneFailed :=
  State.laneFailed_of_above (State.abandonReloc_above _ _)

@[simp] theorem State.abandonReloc_jobFailed (s : State) (r : Relocation) :
    (State.abandonReloc s r).ccu.conditions.jobFailed = s.ccu.conditions.jobFailed :=
  State.jobFailed_of_above (State.abandonReloc_above _ _)

@[simp] theorem State.giveUpBlocks_above (s : State) (o : Owner) (blocks : List Nat) :
    (State.giveUpBlocks s o blocks).above = s.above := by
  unfold State.giveUpBlocks
  try dsimp only
  (repeat' split) <;> try simp [*, above_mk]
  all_goals try refine (foldl_keeps (fun q : State => q.above) _ (fun q e => ?_) _ _).trans ?_
  all_goals try dsimp only
  all_goals (repeat' split) <;> try simp [*, above_mk]
  all_goals try refine (foldl_keeps (fun q : State => q.above) _ (fun q e => ?_) _ _).trans ?_
  all_goals (repeat' split) <;> try simp [*, above_mk]

@[simp] theorem State.giveUpBlocks_sgc (s : State) (o : Owner) (blocks : List Nat) :
    (State.giveUpBlocks s o blocks).sgc = s.sgc :=
  State.sgc_of_above (State.giveUpBlocks_above _ _ _)

@[simp] theorem State.giveUpBlocks_jdp (s : State) (o : Owner) (blocks : List Nat) :
    (State.giveUpBlocks s o blocks).jdp = s.jdp :=
  State.jdp_of_above (State.giveUpBlocks_above _ _ _)

@[simp] theorem State.giveUpBlocks_lanes (s : State) (o : Owner) (blocks : List Nat) :
    (State.giveUpBlocks s o blocks).lanes = s.lanes :=
  State.lanes_of_above (State.giveUpBlocks_above _ _ _)

@[simp] theorem State.giveUpBlocks_laneFailed (s : State) (o : Owner) (blocks : List Nat) :
    (State.giveUpBlocks s o blocks).ccu.conditions.laneFailed = s.ccu.conditions.laneFailed :=
  State.laneFailed_of_above (State.giveUpBlocks_above _ _ _)

@[simp] theorem State.giveUpBlocks_jobFailed (s : State) (o : Owner) (blocks : List Nat) :
    (State.giveUpBlocks s o blocks).ccu.conditions.jobFailed = s.ccu.conditions.jobFailed :=
  State.jobFailed_of_above (State.giveUpBlocks_above _ _ _)

@[simp] theorem State.retireHead_above (s : State) (slot : Nat) (r : Role) (x : Run) (g : Nat) (rest : List Nat) :
    (State.retireHead s slot r x g rest).above = s.above := by
  unfold State.retireHead
  try dsimp only
  (repeat' split) <;> try simp [*, above_mk]
  all_goals try refine (foldl_keeps (fun q : State => q.above) _ (fun q e => ?_) _ _).trans ?_
  all_goals try dsimp only
  all_goals (repeat' split) <;> try simp [*, above_mk]
  all_goals try refine (foldl_keeps (fun q : State => q.above) _ (fun q e => ?_) _ _).trans ?_
  all_goals (repeat' split) <;> try simp [*, above_mk]

@[simp] theorem State.retireHead_sgc (s : State) (slot : Nat) (r : Role) (x : Run) (g : Nat) (rest : List Nat) :
    (State.retireHead s slot r x g rest).sgc = s.sgc :=
  State.sgc_of_above (State.retireHead_above _ _ _ _ _ _)

@[simp] theorem State.retireHead_jdp (s : State) (slot : Nat) (r : Role) (x : Run) (g : Nat) (rest : List Nat) :
    (State.retireHead s slot r x g rest).jdp = s.jdp :=
  State.jdp_of_above (State.retireHead_above _ _ _ _ _ _)

@[simp] theorem State.retireHead_lanes (s : State) (slot : Nat) (r : Role) (x : Run) (g : Nat) (rest : List Nat) :
    (State.retireHead s slot r x g rest).lanes = s.lanes :=
  State.lanes_of_above (State.retireHead_above _ _ _ _ _ _)

@[simp] theorem State.retireHead_laneFailed (s : State) (slot : Nat) (r : Role) (x : Run) (g : Nat) (rest : List Nat) :
    (State.retireHead s slot r x g rest).ccu.conditions.laneFailed = s.ccu.conditions.laneFailed :=
  State.laneFailed_of_above (State.retireHead_above _ _ _ _ _ _)

@[simp] theorem State.retireHead_jobFailed (s : State) (slot : Nat) (r : Role) (x : Run) (g : Nat) (rest : List Nat) :
    (State.retireHead s slot r x g rest).ccu.conditions.jobFailed = s.ccu.conditions.jobFailed :=
  State.jobFailed_of_above (State.retireHead_above _ _ _ _ _ _)

@[simp] theorem State.retireHeads_above (s : State) (slot : Nat) (r : Role) (n : Nat) :
    (State.retireHeads s slot r n).above = s.above := by
  induction n generalizing s with
  | zero => rfl
  | succ n ih =>
    unfold State.retireHeads
    (repeat' split) <;> simp [ih, above_mk]

@[simp] theorem State.retireHeads_sgc (s : State) (slot : Nat) (r : Role) (n : Nat) :
    (State.retireHeads s slot r n).sgc = s.sgc :=
  State.sgc_of_above (State.retireHeads_above _ _ _ _)

@[simp] theorem State.retireHeads_jdp (s : State) (slot : Nat) (r : Role) (n : Nat) :
    (State.retireHeads s slot r n).jdp = s.jdp :=
  State.jdp_of_above (State.retireHeads_above _ _ _ _)

@[simp] theorem State.retireHeads_lanes (s : State) (slot : Nat) (r : Role) (n : Nat) :
    (State.retireHeads s slot r n).lanes = s.lanes :=
  State.lanes_of_above (State.retireHeads_above _ _ _ _)

@[simp] theorem State.retireHeads_laneFailed (s : State) (slot : Nat) (r : Role) (n : Nat) :
    (State.retireHeads s slot r n).ccu.conditions.laneFailed = s.ccu.conditions.laneFailed :=
  State.laneFailed_of_above (State.retireHeads_above _ _ _ _)

@[simp] theorem State.retireHeads_jobFailed (s : State) (slot : Nat) (r : Role) (n : Nat) :
    (State.retireHeads s slot r n).ccu.conditions.jobFailed = s.ccu.conditions.jobFailed :=
  State.jobFailed_of_above (State.retireHeads_above _ _ _ _)

@[simp] theorem State.retireTest_above (s : State) (slot : Nat) (r : Role) :
    (State.retireTest s slot r).above = s.above := by
  unfold State.retireTest
  try dsimp only
  (repeat' split) <;> try simp [*, above_mk]

@[simp] theorem State.retireTest_sgc (s : State) (slot : Nat) (r : Role) :
    (State.retireTest s slot r).sgc = s.sgc :=
  State.sgc_of_above (State.retireTest_above _ _ _)

@[simp] theorem State.retireTest_jdp (s : State) (slot : Nat) (r : Role) :
    (State.retireTest s slot r).jdp = s.jdp :=
  State.jdp_of_above (State.retireTest_above _ _ _)

@[simp] theorem State.retireTest_lanes (s : State) (slot : Nat) (r : Role) :
    (State.retireTest s slot r).lanes = s.lanes :=
  State.lanes_of_above (State.retireTest_above _ _ _)

@[simp] theorem State.retireTest_laneFailed (s : State) (slot : Nat) (r : Role) :
    (State.retireTest s slot r).ccu.conditions.laneFailed = s.ccu.conditions.laneFailed :=
  State.laneFailed_of_above (State.retireTest_above _ _ _)

@[simp] theorem State.retireTest_jobFailed (s : State) (slot : Nat) (r : Role) :
    (State.retireTest s slot r).ccu.conditions.jobFailed = s.ccu.conditions.jobFailed :=
  State.jobFailed_of_above (State.retireTest_above _ _ _)

@[simp] theorem State.releaseRun_above (s : State) (slot : Nat) (r : Role) :
    (State.releaseRun s slot r).above = s.above := by
  unfold State.releaseRun
  try dsimp only
  (repeat' split) <;> try simp [*, above_mk]

@[simp] theorem State.releaseRun_sgc (s : State) (slot : Nat) (r : Role) :
    (State.releaseRun s slot r).sgc = s.sgc :=
  State.sgc_of_above (State.releaseRun_above _ _ _)

@[simp] theorem State.releaseRun_jdp (s : State) (slot : Nat) (r : Role) :
    (State.releaseRun s slot r).jdp = s.jdp :=
  State.jdp_of_above (State.releaseRun_above _ _ _)

@[simp] theorem State.releaseRun_lanes (s : State) (slot : Nat) (r : Role) :
    (State.releaseRun s slot r).lanes = s.lanes :=
  State.lanes_of_above (State.releaseRun_above _ _ _)

@[simp] theorem State.releaseRun_laneFailed (s : State) (slot : Nat) (r : Role) :
    (State.releaseRun s slot r).ccu.conditions.laneFailed = s.ccu.conditions.laneFailed :=
  State.laneFailed_of_above (State.releaseRun_above _ _ _)

@[simp] theorem State.releaseRun_jobFailed (s : State) (slot : Nat) (r : Role) :
    (State.releaseRun s slot r).ccu.conditions.jobFailed = s.ccu.conditions.jobFailed :=
  State.jobFailed_of_above (State.releaseRun_above _ _ _)

@[simp] theorem State.takeExtent_above (s : State) (n slot segment rendition : Nat) (st : ExtentState) :
    (State.takeExtent s n slot segment rendition st).above = s.above := rfl

@[simp] theorem State.takeExtent_sgc (s : State) (n slot segment rendition : Nat) (st : ExtentState) :
    (State.takeExtent s n slot segment rendition st).sgc = s.sgc :=
  State.sgc_of_above (State.takeExtent_above _ _ _ _ _ _)

@[simp] theorem State.takeExtent_jdp (s : State) (n slot segment rendition : Nat) (st : ExtentState) :
    (State.takeExtent s n slot segment rendition st).jdp = s.jdp :=
  State.jdp_of_above (State.takeExtent_above _ _ _ _ _ _)

@[simp] theorem State.takeExtent_lanes (s : State) (n slot segment rendition : Nat) (st : ExtentState) :
    (State.takeExtent s n slot segment rendition st).lanes = s.lanes :=
  State.lanes_of_above (State.takeExtent_above _ _ _ _ _ _)

@[simp] theorem State.takeExtent_laneFailed (s : State) (n slot segment rendition : Nat) (st : ExtentState) :
    (State.takeExtent s n slot segment rendition st).ccu.conditions.laneFailed = s.ccu.conditions.laneFailed :=
  State.laneFailed_of_above (State.takeExtent_above _ _ _ _ _ _)

@[simp] theorem State.takeExtent_jobFailed (s : State) (n slot segment rendition : Nat) (st : ExtentState) :
    (State.takeExtent s n slot segment rendition st).ccu.conditions.jobFailed = s.ccu.conditions.jobFailed :=
  State.jobFailed_of_above (State.takeExtent_above _ _ _ _ _ _)

@[simp] theorem State.freeExtentRecord_above (s : State) (n : Nat) (x : Extent) :
    (State.freeExtentRecord s n x).above = s.above := by
  unfold State.freeExtentRecord
  try dsimp only
  (repeat' split) <;> try simp [*, above_mk]

@[simp] theorem State.freeExtentRecord_sgc (s : State) (n : Nat) (x : Extent) :
    (State.freeExtentRecord s n x).sgc = s.sgc :=
  State.sgc_of_above (State.freeExtentRecord_above _ _ _)

@[simp] theorem State.freeExtentRecord_jdp (s : State) (n : Nat) (x : Extent) :
    (State.freeExtentRecord s n x).jdp = s.jdp :=
  State.jdp_of_above (State.freeExtentRecord_above _ _ _)

@[simp] theorem State.freeExtentRecord_lanes (s : State) (n : Nat) (x : Extent) :
    (State.freeExtentRecord s n x).lanes = s.lanes :=
  State.lanes_of_above (State.freeExtentRecord_above _ _ _)

@[simp] theorem State.freeExtentRecord_laneFailed (s : State) (n : Nat) (x : Extent) :
    (State.freeExtentRecord s n x).ccu.conditions.laneFailed = s.ccu.conditions.laneFailed :=
  State.laneFailed_of_above (State.freeExtentRecord_above _ _ _)

@[simp] theorem State.freeExtentRecord_jobFailed (s : State) (n : Nat) (x : Extent) :
    (State.freeExtentRecord s n x).ccu.conditions.jobFailed = s.ccu.conditions.jobFailed :=
  State.jobFailed_of_above (State.freeExtentRecord_above _ _ _)

@[simp] theorem State.giveUpExtent_above (s : State) (n slot segment rendition : Nat) :
    (State.giveUpExtent s n slot segment rendition).above = s.above := by
  unfold State.giveUpExtent
  try dsimp only
  (repeat' split) <;> try simp [*, above_mk]

@[simp] theorem State.giveUpExtent_sgc (s : State) (n slot segment rendition : Nat) :
    (State.giveUpExtent s n slot segment rendition).sgc = s.sgc :=
  State.sgc_of_above (State.giveUpExtent_above _ _ _ _ _)

@[simp] theorem State.giveUpExtent_jdp (s : State) (n slot segment rendition : Nat) :
    (State.giveUpExtent s n slot segment rendition).jdp = s.jdp :=
  State.jdp_of_above (State.giveUpExtent_above _ _ _ _ _)

@[simp] theorem State.giveUpExtent_lanes (s : State) (n slot segment rendition : Nat) :
    (State.giveUpExtent s n slot segment rendition).lanes = s.lanes :=
  State.lanes_of_above (State.giveUpExtent_above _ _ _ _ _)

@[simp] theorem State.giveUpExtent_laneFailed (s : State) (n slot segment rendition : Nat) :
    (State.giveUpExtent s n slot segment rendition).ccu.conditions.laneFailed = s.ccu.conditions.laneFailed :=
  State.laneFailed_of_above (State.giveUpExtent_above _ _ _ _ _)

@[simp] theorem State.giveUpExtent_jobFailed (s : State) (n slot segment rendition : Nat) :
    (State.giveUpExtent s n slot segment rendition).ccu.conditions.jobFailed = s.ccu.conditions.jobFailed :=
  State.jobFailed_of_above (State.giveUpExtent_above _ _ _ _ _)

@[simp] theorem State.releaseExtent_above (s : State) (n slot segment rendition : Nat) :
    (State.releaseExtent s n slot segment rendition).above = s.above := by
  unfold State.releaseExtent
  try dsimp only
  (repeat' split) <;> try simp [*, above_mk]

@[simp] theorem State.releaseExtent_sgc (s : State) (n slot segment rendition : Nat) :
    (State.releaseExtent s n slot segment rendition).sgc = s.sgc :=
  State.sgc_of_above (State.releaseExtent_above _ _ _ _ _)

@[simp] theorem State.releaseExtent_jdp (s : State) (n slot segment rendition : Nat) :
    (State.releaseExtent s n slot segment rendition).jdp = s.jdp :=
  State.jdp_of_above (State.releaseExtent_above _ _ _ _ _)

@[simp] theorem State.releaseExtent_lanes (s : State) (n slot segment rendition : Nat) :
    (State.releaseExtent s n slot segment rendition).lanes = s.lanes :=
  State.lanes_of_above (State.releaseExtent_above _ _ _ _ _)

@[simp] theorem State.releaseExtent_laneFailed (s : State) (n slot segment rendition : Nat) :
    (State.releaseExtent s n slot segment rendition).ccu.conditions.laneFailed = s.ccu.conditions.laneFailed :=
  State.laneFailed_of_above (State.releaseExtent_above _ _ _ _ _)

@[simp] theorem State.releaseExtent_jobFailed (s : State) (n slot segment rendition : Nat) :
    (State.releaseExtent s n slot segment rendition).ccu.conditions.jobFailed = s.ccu.conditions.jobFailed :=
  State.jobFailed_of_above (State.releaseExtent_above _ _ _ _ _)

@[simp] theorem State.protectExtent_above (s : State) (n slot segment rendition : Nat) :
    (State.protectExtent s n slot segment rendition).above = s.above := by
  unfold State.protectExtent
  try dsimp only
  (repeat' split) <;> try simp [*, above_mk]
  all_goals try refine (foldl_keeps (fun q : State => q.above) _ (fun q e => ?_) _ _).trans ?_
  all_goals try dsimp only
  all_goals (repeat' split) <;> try simp [*, above_mk]
  all_goals try refine (foldl_keeps (fun q : State => q.above) _ (fun q e => ?_) _ _).trans ?_
  all_goals (repeat' split) <;> try simp [*, above_mk]

@[simp] theorem State.protectExtent_sgc (s : State) (n slot segment rendition : Nat) :
    (State.protectExtent s n slot segment rendition).sgc = s.sgc :=
  State.sgc_of_above (State.protectExtent_above _ _ _ _ _)

@[simp] theorem State.protectExtent_jdp (s : State) (n slot segment rendition : Nat) :
    (State.protectExtent s n slot segment rendition).jdp = s.jdp :=
  State.jdp_of_above (State.protectExtent_above _ _ _ _ _)

@[simp] theorem State.protectExtent_lanes (s : State) (n slot segment rendition : Nat) :
    (State.protectExtent s n slot segment rendition).lanes = s.lanes :=
  State.lanes_of_above (State.protectExtent_above _ _ _ _ _)

@[simp] theorem State.protectExtent_laneFailed (s : State) (n slot segment rendition : Nat) :
    (State.protectExtent s n slot segment rendition).ccu.conditions.laneFailed = s.ccu.conditions.laneFailed :=
  State.laneFailed_of_above (State.protectExtent_above _ _ _ _ _)

@[simp] theorem State.protectExtent_jobFailed (s : State) (n slot segment rendition : Nat) :
    (State.protectExtent s n slot segment rendition).ccu.conditions.jobFailed = s.ccu.conditions.jobFailed :=
  State.jobFailed_of_above (State.protectExtent_above _ _ _ _ _)

@[simp] theorem State.padBuffer_above (s : State) (i : Nat) :
    (State.padBuffer s i).above = s.above := by
  unfold State.padBuffer
  try dsimp only
  (repeat' split) <;> try simp [*, above_mk]

@[simp] theorem State.padBuffer_sgc (s : State) (i : Nat) :
    (State.padBuffer s i).sgc = s.sgc :=
  State.sgc_of_above (State.padBuffer_above _ _)

@[simp] theorem State.padBuffer_jdp (s : State) (i : Nat) :
    (State.padBuffer s i).jdp = s.jdp :=
  State.jdp_of_above (State.padBuffer_above _ _)

@[simp] theorem State.padBuffer_lanes (s : State) (i : Nat) :
    (State.padBuffer s i).lanes = s.lanes :=
  State.lanes_of_above (State.padBuffer_above _ _)

@[simp] theorem State.padBuffer_laneFailed (s : State) (i : Nat) :
    (State.padBuffer s i).ccu.conditions.laneFailed = s.ccu.conditions.laneFailed :=
  State.laneFailed_of_above (State.padBuffer_above _ _)

@[simp] theorem State.padBuffer_jobFailed (s : State) (i : Nat) :
    (State.padBuffer s i).ccu.conditions.jobFailed = s.ccu.conditions.jobFailed :=
  State.jobFailed_of_above (State.padBuffer_above _ _)

@[simp] theorem State.sealTail_above (s : State) (o : Owner) (blocks : List Nat) :
    (State.sealTail s o blocks).above = s.above := by
  unfold State.sealTail
  try dsimp only
  (repeat' split) <;> try simp [*, above_mk]

@[simp] theorem State.sealTail_sgc (s : State) (o : Owner) (blocks : List Nat) :
    (State.sealTail s o blocks).sgc = s.sgc :=
  State.sgc_of_above (State.sealTail_above _ _ _)

@[simp] theorem State.sealTail_jdp (s : State) (o : Owner) (blocks : List Nat) :
    (State.sealTail s o blocks).jdp = s.jdp :=
  State.jdp_of_above (State.sealTail_above _ _ _)

@[simp] theorem State.sealTail_lanes (s : State) (o : Owner) (blocks : List Nat) :
    (State.sealTail s o blocks).lanes = s.lanes :=
  State.lanes_of_above (State.sealTail_above _ _ _)

@[simp] theorem State.sealTail_laneFailed (s : State) (o : Owner) (blocks : List Nat) :
    (State.sealTail s o blocks).ccu.conditions.laneFailed = s.ccu.conditions.laneFailed :=
  State.laneFailed_of_above (State.sealTail_above _ _ _)

@[simp] theorem State.sealTail_jobFailed (s : State) (o : Owner) (blocks : List Nat) :
    (State.sealTail s o blocks).ccu.conditions.jobFailed = s.ccu.conditions.jobFailed :=
  State.jobFailed_of_above (State.sealTail_above _ _ _)

@[simp] theorem State.closeExtent_above (s : State) (n slot segment rendition : Nat) :
    (State.closeExtent s n slot segment rendition).above = s.above := by
  unfold State.closeExtent
  try dsimp only
  (repeat' split) <;> try simp [*, above_mk]

@[simp] theorem State.closeExtent_sgc (s : State) (n slot segment rendition : Nat) :
    (State.closeExtent s n slot segment rendition).sgc = s.sgc :=
  State.sgc_of_above (State.closeExtent_above _ _ _ _ _)

@[simp] theorem State.closeExtent_jdp (s : State) (n slot segment rendition : Nat) :
    (State.closeExtent s n slot segment rendition).jdp = s.jdp :=
  State.jdp_of_above (State.closeExtent_above _ _ _ _ _)

@[simp] theorem State.closeExtent_lanes (s : State) (n slot segment rendition : Nat) :
    (State.closeExtent s n slot segment rendition).lanes = s.lanes :=
  State.lanes_of_above (State.closeExtent_above _ _ _ _ _)

@[simp] theorem State.closeExtent_laneFailed (s : State) (n slot segment rendition : Nat) :
    (State.closeExtent s n slot segment rendition).ccu.conditions.laneFailed = s.ccu.conditions.laneFailed :=
  State.laneFailed_of_above (State.closeExtent_above _ _ _ _ _)

@[simp] theorem State.closeExtent_jobFailed (s : State) (n slot segment rendition : Nat) :
    (State.closeExtent s n slot segment rendition).ccu.conditions.jobFailed = s.ccu.conditions.jobFailed :=
  State.jobFailed_of_above (State.closeExtent_above _ _ _ _ _)

@[simp] theorem State.commitExtent_above (s : State) (n : Nat) (x : Extent) (length : Nat) :
    (State.commitExtent s n x length).above = s.above := by
  unfold State.commitExtent
  try dsimp only
  (repeat' split) <;> try simp [*, above_mk]
  all_goals try refine (foldl_keeps (fun q : State => q.above) _ (fun q e => ?_) _ _).trans ?_
  all_goals try dsimp only
  all_goals (repeat' split) <;> try simp [*, above_mk]
  all_goals try refine (foldl_keeps (fun q : State => q.above) _ (fun q e => ?_) _ _).trans ?_
  all_goals (repeat' split) <;> try simp [*, above_mk]

@[simp] theorem State.commitExtent_sgc (s : State) (n : Nat) (x : Extent) (length : Nat) :
    (State.commitExtent s n x length).sgc = s.sgc :=
  State.sgc_of_above (State.commitExtent_above _ _ _ _)

@[simp] theorem State.commitExtent_jdp (s : State) (n : Nat) (x : Extent) (length : Nat) :
    (State.commitExtent s n x length).jdp = s.jdp :=
  State.jdp_of_above (State.commitExtent_above _ _ _ _)

@[simp] theorem State.commitExtent_lanes (s : State) (n : Nat) (x : Extent) (length : Nat) :
    (State.commitExtent s n x length).lanes = s.lanes :=
  State.lanes_of_above (State.commitExtent_above _ _ _ _)

@[simp] theorem State.commitExtent_laneFailed (s : State) (n : Nat) (x : Extent) (length : Nat) :
    (State.commitExtent s n x length).ccu.conditions.laneFailed = s.ccu.conditions.laneFailed :=
  State.laneFailed_of_above (State.commitExtent_above _ _ _ _)

@[simp] theorem State.commitExtent_jobFailed (s : State) (n : Nat) (x : Extent) (length : Nat) :
    (State.commitExtent s n x length).ccu.conditions.jobFailed = s.ccu.conditions.jobFailed :=
  State.jobFailed_of_above (State.commitExtent_above _ _ _ _)

@[simp] theorem State.appendRunBlock_above (s : State) (slot : Nat) (r : Role) (x : Run) (g : Nat) :
    (State.appendRunBlock s slot r x g).above = s.above := by
  unfold State.appendRunBlock
  try dsimp only
  (repeat' split) <;> try simp [*, above_mk]

@[simp] theorem State.appendRunBlock_sgc (s : State) (slot : Nat) (r : Role) (x : Run) (g : Nat) :
    (State.appendRunBlock s slot r x g).sgc = s.sgc :=
  State.sgc_of_above (State.appendRunBlock_above _ _ _ _ _)

@[simp] theorem State.appendRunBlock_jdp (s : State) (slot : Nat) (r : Role) (x : Run) (g : Nat) :
    (State.appendRunBlock s slot r x g).jdp = s.jdp :=
  State.jdp_of_above (State.appendRunBlock_above _ _ _ _ _)

@[simp] theorem State.appendRunBlock_lanes (s : State) (slot : Nat) (r : Role) (x : Run) (g : Nat) :
    (State.appendRunBlock s slot r x g).lanes = s.lanes :=
  State.lanes_of_above (State.appendRunBlock_above _ _ _ _ _)

@[simp] theorem State.appendRunBlock_laneFailed (s : State) (slot : Nat) (r : Role) (x : Run) (g : Nat) :
    (State.appendRunBlock s slot r x g).ccu.conditions.laneFailed = s.ccu.conditions.laneFailed :=
  State.laneFailed_of_above (State.appendRunBlock_above _ _ _ _ _)

@[simp] theorem State.appendRunBlock_jobFailed (s : State) (slot : Nat) (r : Role) (x : Run) (g : Nat) :
    (State.appendRunBlock s slot r x g).ccu.conditions.jobFailed = s.ccu.conditions.jobFailed :=
  State.jobFailed_of_above (State.appendRunBlock_above _ _ _ _ _)

@[simp] theorem State.appendExtentBlock_above (s : State) (n : Nat) (x : Extent) (g : Nat) :
    (State.appendExtentBlock s n x g).above = s.above := by
  unfold State.appendExtentBlock
  try dsimp only
  (repeat' split) <;> try simp [*, above_mk]

@[simp] theorem State.appendExtentBlock_sgc (s : State) (n : Nat) (x : Extent) (g : Nat) :
    (State.appendExtentBlock s n x g).sgc = s.sgc :=
  State.sgc_of_above (State.appendExtentBlock_above _ _ _ _)

@[simp] theorem State.appendExtentBlock_jdp (s : State) (n : Nat) (x : Extent) (g : Nat) :
    (State.appendExtentBlock s n x g).jdp = s.jdp :=
  State.jdp_of_above (State.appendExtentBlock_above _ _ _ _)

@[simp] theorem State.appendExtentBlock_lanes (s : State) (n : Nat) (x : Extent) (g : Nat) :
    (State.appendExtentBlock s n x g).lanes = s.lanes :=
  State.lanes_of_above (State.appendExtentBlock_above _ _ _ _)

@[simp] theorem State.appendExtentBlock_laneFailed (s : State) (n : Nat) (x : Extent) (g : Nat) :
    (State.appendExtentBlock s n x g).ccu.conditions.laneFailed = s.ccu.conditions.laneFailed :=
  State.laneFailed_of_above (State.appendExtentBlock_above _ _ _ _)

@[simp] theorem State.appendExtentBlock_jobFailed (s : State) (n : Nat) (x : Extent) (g : Nat) :
    (State.appendExtentBlock s n x g).ccu.conditions.jobFailed = s.ccu.conditions.jobFailed :=
  State.jobFailed_of_above (State.appendExtentBlock_above _ _ _ _)

@[simp] theorem State.pageCopied_above (s : State) (o : Owner) (page : Nat) :
    (State.pageCopied s o page).above = s.above := by
  unfold State.pageCopied
  try dsimp only
  (repeat' split) <;> try simp [*, above_mk]

@[simp] theorem State.pageCopied_sgc (s : State) (o : Owner) (page : Nat) :
    (State.pageCopied s o page).sgc = s.sgc :=
  State.sgc_of_above (State.pageCopied_above _ _ _)

@[simp] theorem State.pageCopied_jdp (s : State) (o : Owner) (page : Nat) :
    (State.pageCopied s o page).jdp = s.jdp :=
  State.jdp_of_above (State.pageCopied_above _ _ _)

@[simp] theorem State.pageCopied_lanes (s : State) (o : Owner) (page : Nat) :
    (State.pageCopied s o page).lanes = s.lanes :=
  State.lanes_of_above (State.pageCopied_above _ _ _)

@[simp] theorem State.pageCopied_laneFailed (s : State) (o : Owner) (page : Nat) :
    (State.pageCopied s o page).ccu.conditions.laneFailed = s.ccu.conditions.laneFailed :=
  State.laneFailed_of_above (State.pageCopied_above _ _ _)

@[simp] theorem State.pageCopied_jobFailed (s : State) (o : Owner) (page : Nat) :
    (State.pageCopied s o page).ccu.conditions.jobFailed = s.ccu.conditions.jobFailed :=
  State.jobFailed_of_above (State.pageCopied_above _ _ _)

@[simp] theorem State.programDone_above (s : State) (p : ProgramReq) (buf : Buf) :
    (State.programDone s p buf).above = s.above := by
  unfold State.programDone
  try dsimp only
  (repeat' split) <;> try simp [*, above_mk]

@[simp] theorem State.programDone_sgc (s : State) (p : ProgramReq) (buf : Buf) :
    (State.programDone s p buf).sgc = s.sgc :=
  State.sgc_of_above (State.programDone_above _ _ _)

@[simp] theorem State.programDone_jdp (s : State) (p : ProgramReq) (buf : Buf) :
    (State.programDone s p buf).jdp = s.jdp :=
  State.jdp_of_above (State.programDone_above _ _ _)

@[simp] theorem State.programDone_lanes (s : State) (p : ProgramReq) (buf : Buf) :
    (State.programDone s p buf).lanes = s.lanes :=
  State.lanes_of_above (State.programDone_above _ _ _)

@[simp] theorem State.programDone_laneFailed (s : State) (p : ProgramReq) (buf : Buf) :
    (State.programDone s p buf).ccu.conditions.laneFailed = s.ccu.conditions.laneFailed :=
  State.laneFailed_of_above (State.programDone_above _ _ _)

@[simp] theorem State.programDone_jobFailed (s : State) (p : ProgramReq) (buf : Buf) :
    (State.programDone s p buf).ccu.conditions.jobFailed = s.ccu.conditions.jobFailed :=
  State.jobFailed_of_above (State.programDone_above _ _ _)

@[simp] theorem State.programFailed_above (s : State) (p : ProgramReq) (buf : Buf) :
    (State.programFailed s p buf).above = s.above := by
  unfold State.programFailed
  try dsimp only
  (repeat' split) <;> try simp [*, above_mk]

@[simp] theorem State.programFailed_sgc (s : State) (p : ProgramReq) (buf : Buf) :
    (State.programFailed s p buf).sgc = s.sgc :=
  State.sgc_of_above (State.programFailed_above _ _ _)

@[simp] theorem State.programFailed_jdp (s : State) (p : ProgramReq) (buf : Buf) :
    (State.programFailed s p buf).jdp = s.jdp :=
  State.jdp_of_above (State.programFailed_above _ _ _)

@[simp] theorem State.programFailed_lanes (s : State) (p : ProgramReq) (buf : Buf) :
    (State.programFailed s p buf).lanes = s.lanes :=
  State.lanes_of_above (State.programFailed_above _ _ _)

@[simp] theorem State.programFailed_laneFailed (s : State) (p : ProgramReq) (buf : Buf) :
    (State.programFailed s p buf).ccu.conditions.laneFailed = s.ccu.conditions.laneFailed :=
  State.laneFailed_of_above (State.programFailed_above _ _ _)

@[simp] theorem State.programFailed_jobFailed (s : State) (p : ProgramReq) (buf : Buf) :
    (State.programFailed s p buf).ccu.conditions.jobFailed = s.ccu.conditions.jobFailed :=
  State.jobFailed_of_above (State.programFailed_above _ _ _)

@[simp] theorem State.endProgram_above (s : State) (b : Nat) (p : ProgramReq) (success : Bool) :
    (State.endProgram s b p success).above = s.above := by
  unfold State.endProgram
  try dsimp only
  (repeat' split) <;> try simp [*, above_mk]

@[simp] theorem State.endProgram_sgc (s : State) (b : Nat) (p : ProgramReq) (success : Bool) :
    (State.endProgram s b p success).sgc = s.sgc :=
  State.sgc_of_above (State.endProgram_above _ _ _ _)

@[simp] theorem State.endProgram_jdp (s : State) (b : Nat) (p : ProgramReq) (success : Bool) :
    (State.endProgram s b p success).jdp = s.jdp :=
  State.jdp_of_above (State.endProgram_above _ _ _ _)

@[simp] theorem State.endProgram_lanes (s : State) (b : Nat) (p : ProgramReq) (success : Bool) :
    (State.endProgram s b p success).lanes = s.lanes :=
  State.lanes_of_above (State.endProgram_above _ _ _ _)

@[simp] theorem State.endProgram_laneFailed (s : State) (b : Nat) (p : ProgramReq) (success : Bool) :
    (State.endProgram s b p success).ccu.conditions.laneFailed = s.ccu.conditions.laneFailed :=
  State.laneFailed_of_above (State.endProgram_above _ _ _ _)

@[simp] theorem State.endProgram_jobFailed (s : State) (b : Nat) (p : ProgramReq) (success : Bool) :
    (State.endProgram s b p success).ccu.conditions.jobFailed = s.ccu.conditions.jobFailed :=
  State.jobFailed_of_above (State.endProgram_above _ _ _ _)

@[simp] theorem State.writePlace_above (s : State) (k : Nat) (bs : List Byte) :
    (State.writePlace s k bs).above = s.above := rfl

@[simp] theorem State.endAppend_above (s : State) (b g k : Nat) (success : Bool) (left : List Byte) :
    (State.endAppend s b g k success left).above = s.above := by
  unfold State.endAppend
  try dsimp only
  (repeat' split) <;> try simp [*, above_mk]

@[simp] theorem State.endAppend_sgc (s : State) (b g k : Nat) (success : Bool) (left : List Byte) :
    (State.endAppend s b g k success left).sgc = s.sgc :=
  State.sgc_of_above (State.endAppend_above _ _ _ _ _ _)

@[simp] theorem State.endAppend_jdp (s : State) (b g k : Nat) (success : Bool) (left : List Byte) :
    (State.endAppend s b g k success left).jdp = s.jdp :=
  State.jdp_of_above (State.endAppend_above _ _ _ _ _ _)

@[simp] theorem State.endAppend_lanes (s : State) (b g k : Nat) (success : Bool) (left : List Byte) :
    (State.endAppend s b g k success left).lanes = s.lanes :=
  State.lanes_of_above (State.endAppend_above _ _ _ _ _ _)

@[simp] theorem State.endAppend_laneFailed (s : State) (b g k : Nat) (success : Bool) (left : List Byte) :
    (State.endAppend s b g k success left).ccu.conditions.laneFailed = s.ccu.conditions.laneFailed :=
  State.laneFailed_of_above (State.endAppend_above _ _ _ _ _ _)

@[simp] theorem State.endAppend_jobFailed (s : State) (b g k : Nat) (success : Bool) (left : List Byte) :
    (State.endAppend s b g k success left).ccu.conditions.jobFailed = s.ccu.conditions.jobFailed :=
  State.jobFailed_of_above (State.endAppend_above _ _ _ _ _ _)

@[simp] theorem State.scrubCount_above (s : State) (scrub : Bool) :
    (State.scrubCount s scrub).above = s.above := by
  unfold State.scrubCount
  try dsimp only
  (repeat' split) <;> try simp [*, above_mk]

@[simp] theorem State.scrubCount_sgc (s : State) (scrub : Bool) :
    (State.scrubCount s scrub).sgc = s.sgc :=
  State.sgc_of_above (State.scrubCount_above _ _)

@[simp] theorem State.scrubCount_jdp (s : State) (scrub : Bool) :
    (State.scrubCount s scrub).jdp = s.jdp :=
  State.jdp_of_above (State.scrubCount_above _ _)

@[simp] theorem State.scrubCount_lanes (s : State) (scrub : Bool) :
    (State.scrubCount s scrub).lanes = s.lanes :=
  State.lanes_of_above (State.scrubCount_above _ _)

@[simp] theorem State.scrubCount_laneFailed (s : State) (scrub : Bool) :
    (State.scrubCount s scrub).ccu.conditions.laneFailed = s.ccu.conditions.laneFailed :=
  State.laneFailed_of_above (State.scrubCount_above _ _)

@[simp] theorem State.scrubCount_jobFailed (s : State) (scrub : Bool) :
    (State.scrubCount s scrub).ccu.conditions.jobFailed = s.ccu.conditions.jobFailed :=
  State.jobFailed_of_above (State.scrubCount_above _ _)

@[simp] theorem State.endErase_above (s : State) (b : Nat) (e : Erase) (success : Bool) :
    (State.endErase s b e success).above = s.above := by
  unfold State.endErase
  try dsimp only
  (repeat' split) <;> try simp [*, above_mk]

@[simp] theorem State.endErase_sgc (s : State) (b : Nat) (e : Erase) (success : Bool) :
    (State.endErase s b e success).sgc = s.sgc :=
  State.sgc_of_above (State.endErase_above _ _ _ _)

@[simp] theorem State.endErase_jdp (s : State) (b : Nat) (e : Erase) (success : Bool) :
    (State.endErase s b e success).jdp = s.jdp :=
  State.jdp_of_above (State.endErase_above _ _ _ _)

@[simp] theorem State.endErase_lanes (s : State) (b : Nat) (e : Erase) (success : Bool) :
    (State.endErase s b e success).lanes = s.lanes :=
  State.lanes_of_above (State.endErase_above _ _ _ _)

@[simp] theorem State.endErase_laneFailed (s : State) (b : Nat) (e : Erase) (success : Bool) :
    (State.endErase s b e success).ccu.conditions.laneFailed = s.ccu.conditions.laneFailed :=
  State.laneFailed_of_above (State.endErase_above _ _ _ _)

@[simp] theorem State.endErase_jobFailed (s : State) (b : Nat) (e : Erase) (success : Bool) :
    (State.endErase s b e success).ccu.conditions.jobFailed = s.ccu.conditions.jobFailed :=
  State.jobFailed_of_above (State.endErase_above _ _ _ _)

@[simp] theorem State.relocRead_above (s : State) (o : Owner) (r : ReadReq) (errors : List Nat) :
    (State.relocRead s o r errors).above = s.above := by
  unfold State.relocRead
  try dsimp only
  (repeat' split) <;> try simp [*, above_mk]
  all_goals try refine (foldl_keeps (fun q : State => q.above) _ (fun q e => ?_) _ _).trans ?_
  all_goals try dsimp only
  all_goals (repeat' split) <;> try simp [*, above_mk]
  all_goals try refine (foldl_keeps (fun q : State => q.above) _ (fun q e => ?_) _ _).trans ?_
  all_goals (repeat' split) <;> try simp [*, above_mk]

@[simp] theorem State.relocRead_sgc (s : State) (o : Owner) (r : ReadReq) (errors : List Nat) :
    (State.relocRead s o r errors).sgc = s.sgc :=
  State.sgc_of_above (State.relocRead_above _ _ _ _)

@[simp] theorem State.relocRead_jdp (s : State) (o : Owner) (r : ReadReq) (errors : List Nat) :
    (State.relocRead s o r errors).jdp = s.jdp :=
  State.jdp_of_above (State.relocRead_above _ _ _ _)

@[simp] theorem State.relocRead_lanes (s : State) (o : Owner) (r : ReadReq) (errors : List Nat) :
    (State.relocRead s o r errors).lanes = s.lanes :=
  State.lanes_of_above (State.relocRead_above _ _ _ _)

@[simp] theorem State.relocRead_laneFailed (s : State) (o : Owner) (r : ReadReq) (errors : List Nat) :
    (State.relocRead s o r errors).ccu.conditions.laneFailed = s.ccu.conditions.laneFailed :=
  State.laneFailed_of_above (State.relocRead_above _ _ _ _)

@[simp] theorem State.relocRead_jobFailed (s : State) (o : Owner) (r : ReadReq) (errors : List Nat) :
    (State.relocRead s o r errors).ccu.conditions.jobFailed = s.ccu.conditions.jobFailed :=
  State.jobFailed_of_above (State.relocRead_above _ _ _ _)

/-! ### Runs -/

@[simp] theorem State.runBlock_above (s : State) (slot : Nat) (r : Role) (x : Run) (pos : Nat) :
    (State.runBlock s slot r x pos).1.above = s.above := by
  unfold State.runBlock
  try dsimp only
  (repeat' split) <;> try simp [*, above_mk]

@[simp] theorem State.runBlock_sgc (s : State) (slot : Nat) (r : Role) (x : Run) (pos : Nat) :
    (State.runBlock s slot r x pos).1.sgc = s.sgc :=
  State.sgc_of_above (State.runBlock_above _ _ _ _ _)

@[simp] theorem State.runBlock_jdp (s : State) (slot : Nat) (r : Role) (x : Run) (pos : Nat) :
    (State.runBlock s slot r x pos).1.jdp = s.jdp :=
  State.jdp_of_above (State.runBlock_above _ _ _ _ _)

@[simp] theorem State.runBlock_lanes (s : State) (slot : Nat) (r : Role) (x : Run) (pos : Nat) :
    (State.runBlock s slot r x pos).1.lanes = s.lanes :=
  State.lanes_of_above (State.runBlock_above _ _ _ _ _)

@[simp] theorem State.runBlock_laneFailed (s : State) (slot : Nat) (r : Role) (x : Run) (pos : Nat) :
    (State.runBlock s slot r x pos).1.ccu.conditions.laneFailed = s.ccu.conditions.laneFailed :=
  State.laneFailed_of_above (State.runBlock_above _ _ _ _ _)

@[simp] theorem State.runBlock_jobFailed (s : State) (slot : Nat) (r : Role) (x : Run) (pos : Nat) :
    (State.runBlock s slot r x pos).1.ccu.conditions.jobFailed = s.ccu.conditions.jobFailed :=
  State.jobFailed_of_above (State.runBlock_above _ _ _ _ _)

@[simp] theorem State.runBuffer_above (s : State) (slot : Nat) (r : Role) (pos : Nat) :
    (State.runBuffer s slot r pos).1.above = s.above := by
  unfold State.runBuffer
  try dsimp only
  (repeat' split) <;> try simp [*, above_mk]

@[simp] theorem State.runBuffer_sgc (s : State) (slot : Nat) (r : Role) (pos : Nat) :
    (State.runBuffer s slot r pos).1.sgc = s.sgc :=
  State.sgc_of_above (State.runBuffer_above _ _ _ _)

@[simp] theorem State.runBuffer_jdp (s : State) (slot : Nat) (r : Role) (pos : Nat) :
    (State.runBuffer s slot r pos).1.jdp = s.jdp :=
  State.jdp_of_above (State.runBuffer_above _ _ _ _)

@[simp] theorem State.runBuffer_lanes (s : State) (slot : Nat) (r : Role) (pos : Nat) :
    (State.runBuffer s slot r pos).1.lanes = s.lanes :=
  State.lanes_of_above (State.runBuffer_above _ _ _ _)

@[simp] theorem State.runBuffer_laneFailed (s : State) (slot : Nat) (r : Role) (pos : Nat) :
    (State.runBuffer s slot r pos).1.ccu.conditions.laneFailed = s.ccu.conditions.laneFailed :=
  State.laneFailed_of_above (State.runBuffer_above _ _ _ _)

@[simp] theorem State.runBuffer_jobFailed (s : State) (slot : Nat) (r : Role) (pos : Nat) :
    (State.runBuffer s slot r pos).1.ccu.conditions.jobFailed = s.ccu.conditions.jobFailed :=
  State.jobFailed_of_above (State.runBuffer_above _ _ _ _)

@[simp] theorem State.runReady_above (s : State) (slot : Nat) (r : Role) (pos : Nat) :
    (State.runReady s slot r pos).1.above = s.above := by
  unfold State.runReady
  try dsimp only
  (repeat' split) <;> try simp [*, above_mk]

@[simp] theorem State.runReady_sgc (s : State) (slot : Nat) (r : Role) (pos : Nat) :
    (State.runReady s slot r pos).1.sgc = s.sgc :=
  State.sgc_of_above (State.runReady_above _ _ _ _)

@[simp] theorem State.runReady_jdp (s : State) (slot : Nat) (r : Role) (pos : Nat) :
    (State.runReady s slot r pos).1.jdp = s.jdp :=
  State.jdp_of_above (State.runReady_above _ _ _ _)

@[simp] theorem State.runReady_lanes (s : State) (slot : Nat) (r : Role) (pos : Nat) :
    (State.runReady s slot r pos).1.lanes = s.lanes :=
  State.lanes_of_above (State.runReady_above _ _ _ _)

@[simp] theorem State.runReady_laneFailed (s : State) (slot : Nat) (r : Role) (pos : Nat) :
    (State.runReady s slot r pos).1.ccu.conditions.laneFailed = s.ccu.conditions.laneFailed :=
  State.laneFailed_of_above (State.runReady_above _ _ _ _)

@[simp] theorem State.runReady_jobFailed (s : State) (slot : Nat) (r : Role) (pos : Nat) :
    (State.runReady s slot r pos).1.ccu.conditions.jobFailed = s.ccu.conditions.jobFailed :=
  State.jobFailed_of_above (State.runReady_above _ _ _ _)

@[simp] theorem State.putRun_above (s : State) (slot : Nat) (r : Role) (bs : List Byte) :
    (State.putRun s slot r bs).above = s.above := by
  unfold State.putRun
  try dsimp only
  (repeat' split) <;> try simp [*, above_mk]

@[simp] theorem State.putRun_sgc (s : State) (slot : Nat) (r : Role) (bs : List Byte) :
    (State.putRun s slot r bs).sgc = s.sgc :=
  State.sgc_of_above (State.putRun_above _ _ _ _)

@[simp] theorem State.putRun_jdp (s : State) (slot : Nat) (r : Role) (bs : List Byte) :
    (State.putRun s slot r bs).jdp = s.jdp :=
  State.jdp_of_above (State.putRun_above _ _ _ _)

@[simp] theorem State.putRun_lanes (s : State) (slot : Nat) (r : Role) (bs : List Byte) :
    (State.putRun s slot r bs).lanes = s.lanes :=
  State.lanes_of_above (State.putRun_above _ _ _ _)

@[simp] theorem State.putRun_laneFailed (s : State) (slot : Nat) (r : Role) (bs : List Byte) :
    (State.putRun s slot r bs).ccu.conditions.laneFailed = s.ccu.conditions.laneFailed :=
  State.laneFailed_of_above (State.putRun_above _ _ _ _)

@[simp] theorem State.putRun_jobFailed (s : State) (slot : Nat) (r : Role) (bs : List Byte) :
    (State.putRun s slot r bs).ccu.conditions.jobFailed = s.ccu.conditions.jobFailed :=
  State.jobFailed_of_above (State.putRun_above _ _ _ _)

@[simp] theorem State.writeRun_above (slot : Nat) (r : Role) (n : Nat) (bs : List Byte) (s : State) :
    (State.writeRun slot r n bs s).1.above = s.above := by
  induction n generalizing s bs with
  | zero => rfl
  | succ n ih =>
    unfold State.writeRun
    split
    · rfl
    · dsimp only
      split <;> simp [ih, above_mk]

@[simp] theorem State.writeRun_sgc (slot : Nat) (r : Role) (n : Nat) (bs : List Byte) (s : State) :
    (State.writeRun slot r n bs s).1.sgc = s.sgc :=
  State.sgc_of_above (State.writeRun_above _ _ _ _ _)

@[simp] theorem State.writeRun_jdp (slot : Nat) (r : Role) (n : Nat) (bs : List Byte) (s : State) :
    (State.writeRun slot r n bs s).1.jdp = s.jdp :=
  State.jdp_of_above (State.writeRun_above _ _ _ _ _)

@[simp] theorem State.writeRun_lanes (slot : Nat) (r : Role) (n : Nat) (bs : List Byte) (s : State) :
    (State.writeRun slot r n bs s).1.lanes = s.lanes :=
  State.lanes_of_above (State.writeRun_above _ _ _ _ _)

@[simp] theorem State.writeRun_laneFailed (slot : Nat) (r : Role) (n : Nat) (bs : List Byte) (s : State) :
    (State.writeRun slot r n bs s).1.ccu.conditions.laneFailed = s.ccu.conditions.laneFailed :=
  State.laneFailed_of_above (State.writeRun_above _ _ _ _ _)

@[simp] theorem State.writeRun_jobFailed (slot : Nat) (r : Role) (n : Nat) (bs : List Byte) (s : State) :
    (State.writeRun slot r n bs s).1.ccu.conditions.jobFailed = s.ccu.conditions.jobFailed :=
  State.jobFailed_of_above (State.writeRun_above _ _ _ _ _)

@[simp] theorem State.writeBytes_above (s : State) (slot : Nat) (r : Role) (bs : List Byte) :
    (State.writeBytes s slot r bs).1.above = s.above := by
  unfold State.writeBytes
  try dsimp only
  (repeat' split) <;> try simp [*, above_mk]

@[simp] theorem State.writeBytes_sgc (s : State) (slot : Nat) (r : Role) (bs : List Byte) :
    (State.writeBytes s slot r bs).1.sgc = s.sgc :=
  State.sgc_of_above (State.writeBytes_above _ _ _ _)

@[simp] theorem State.writeBytes_jdp (s : State) (slot : Nat) (r : Role) (bs : List Byte) :
    (State.writeBytes s slot r bs).1.jdp = s.jdp :=
  State.jdp_of_above (State.writeBytes_above _ _ _ _)

@[simp] theorem State.writeBytes_lanes (s : State) (slot : Nat) (r : Role) (bs : List Byte) :
    (State.writeBytes s slot r bs).1.lanes = s.lanes :=
  State.lanes_of_above (State.writeBytes_above _ _ _ _)

@[simp] theorem State.writeBytes_laneFailed (s : State) (slot : Nat) (r : Role) (bs : List Byte) :
    (State.writeBytes s slot r bs).1.ccu.conditions.laneFailed = s.ccu.conditions.laneFailed :=
  State.laneFailed_of_above (State.writeBytes_above _ _ _ _)

@[simp] theorem State.writeBytes_jobFailed (s : State) (slot : Nat) (r : Role) (bs : List Byte) :
    (State.writeBytes s slot r bs).1.ccu.conditions.jobFailed = s.ccu.conditions.jobFailed :=
  State.jobFailed_of_above (State.writeBytes_above _ _ _ _)

@[simp] theorem State.startOverrun_above (s : State) (slot : Nat) (r : Role) :
    (State.startOverrun s slot r).above = s.above := by
  unfold State.startOverrun
  try dsimp only
  (repeat' split) <;> try simp [*, above_mk]

@[simp] theorem State.startOverrun_sgc (s : State) (slot : Nat) (r : Role) :
    (State.startOverrun s slot r).sgc = s.sgc :=
  State.sgc_of_above (State.startOverrun_above _ _ _)

@[simp] theorem State.startOverrun_jdp (s : State) (slot : Nat) (r : Role) :
    (State.startOverrun s slot r).jdp = s.jdp :=
  State.jdp_of_above (State.startOverrun_above _ _ _)

@[simp] theorem State.startOverrun_lanes (s : State) (slot : Nat) (r : Role) :
    (State.startOverrun s slot r).lanes = s.lanes :=
  State.lanes_of_above (State.startOverrun_above _ _ _)

@[simp] theorem State.startOverrun_laneFailed (s : State) (slot : Nat) (r : Role) :
    (State.startOverrun s slot r).ccu.conditions.laneFailed = s.ccu.conditions.laneFailed :=
  State.laneFailed_of_above (State.startOverrun_above _ _ _)

@[simp] theorem State.startOverrun_jobFailed (s : State) (slot : Nat) (r : Role) :
    (State.startOverrun s slot r).ccu.conditions.jobFailed = s.ccu.conditions.jobFailed :=
  State.jobFailed_of_above (State.startOverrun_above _ _ _)

@[simp] theorem State.noticeUnit_above (s : State) (slot : Nat) (r : Role) (stamp : Stamp) (key good : Bool) (start : Nat) :
    (State.noticeUnit s slot r stamp key good start).above = s.above := by
  unfold State.noticeUnit
  try dsimp only
  (repeat' split) <;> try simp [*, above_mk]

@[simp] theorem State.noticeUnit_sgc (s : State) (slot : Nat) (r : Role) (stamp : Stamp) (key good : Bool) (start : Nat) :
    (State.noticeUnit s slot r stamp key good start).sgc = s.sgc :=
  State.sgc_of_above (State.noticeUnit_above _ _ _ _ _ _ _)

@[simp] theorem State.noticeUnit_jdp (s : State) (slot : Nat) (r : Role) (stamp : Stamp) (key good : Bool) (start : Nat) :
    (State.noticeUnit s slot r stamp key good start).jdp = s.jdp :=
  State.jdp_of_above (State.noticeUnit_above _ _ _ _ _ _ _)

@[simp] theorem State.noticeUnit_lanes (s : State) (slot : Nat) (r : Role) (stamp : Stamp) (key good : Bool) (start : Nat) :
    (State.noticeUnit s slot r stamp key good start).lanes = s.lanes :=
  State.lanes_of_above (State.noticeUnit_above _ _ _ _ _ _ _)

@[simp] theorem State.noticeUnit_laneFailed (s : State) (slot : Nat) (r : Role) (stamp : Stamp) (key good : Bool) (start : Nat) :
    (State.noticeUnit s slot r stamp key good start).ccu.conditions.laneFailed = s.ccu.conditions.laneFailed :=
  State.laneFailed_of_above (State.noticeUnit_above _ _ _ _ _ _ _)

@[simp] theorem State.noticeUnit_jobFailed (s : State) (slot : Nat) (r : Role) (stamp : Stamp) (key good : Bool) (start : Nat) :
    (State.noticeUnit s slot r stamp key good start).ccu.conditions.jobFailed = s.ccu.conditions.jobFailed :=
  State.jobFailed_of_above (State.noticeUnit_above _ _ _ _ _ _ _)

@[simp] theorem State.completeUnit_above (s : State) (slot : Nat) (r : Role) (u : BrokenUnit) :
    (State.completeUnit s slot r u).1.above = s.above := by
  unfold State.completeUnit
  try dsimp only
  (repeat' split) <;> try simp [*, above_mk]

@[simp] theorem State.completeUnit_sgc (s : State) (slot : Nat) (r : Role) (u : BrokenUnit) :
    (State.completeUnit s slot r u).1.sgc = s.sgc :=
  State.sgc_of_above (State.completeUnit_above _ _ _ _)

@[simp] theorem State.completeUnit_jdp (s : State) (slot : Nat) (r : Role) (u : BrokenUnit) :
    (State.completeUnit s slot r u).1.jdp = s.jdp :=
  State.jdp_of_above (State.completeUnit_above _ _ _ _)

@[simp] theorem State.completeUnit_lanes (s : State) (slot : Nat) (r : Role) (u : BrokenUnit) :
    (State.completeUnit s slot r u).1.lanes = s.lanes :=
  State.lanes_of_above (State.completeUnit_above _ _ _ _)

@[simp] theorem State.completeUnit_laneFailed (s : State) (slot : Nat) (r : Role) (u : BrokenUnit) :
    (State.completeUnit s slot r u).1.ccu.conditions.laneFailed = s.ccu.conditions.laneFailed :=
  State.laneFailed_of_above (State.completeUnit_above _ _ _ _)

@[simp] theorem State.completeUnit_jobFailed (s : State) (slot : Nat) (r : Role) (u : BrokenUnit) :
    (State.completeUnit s slot r u).1.ccu.conditions.jobFailed = s.ccu.conditions.jobFailed :=
  State.jobFailed_of_above (State.completeUnit_above _ _ _ _)

@[simp] theorem State.holdBroken_above (s : State) (slot : Nat) (r : Role) (u : BrokenUnit) :
    (State.holdBroken s slot r u).above = s.above := by
  unfold State.holdBroken
  try dsimp only
  (repeat' split) <;> try simp [*, above_mk]

@[simp] theorem State.holdBroken_sgc (s : State) (slot : Nat) (r : Role) (u : BrokenUnit) :
    (State.holdBroken s slot r u).sgc = s.sgc :=
  State.sgc_of_above (State.holdBroken_above _ _ _ _)

@[simp] theorem State.holdBroken_jdp (s : State) (slot : Nat) (r : Role) (u : BrokenUnit) :
    (State.holdBroken s slot r u).jdp = s.jdp :=
  State.jdp_of_above (State.holdBroken_above _ _ _ _)

@[simp] theorem State.holdBroken_lanes (s : State) (slot : Nat) (r : Role) (u : BrokenUnit) :
    (State.holdBroken s slot r u).lanes = s.lanes :=
  State.lanes_of_above (State.holdBroken_above _ _ _ _)

@[simp] theorem State.holdBroken_laneFailed (s : State) (slot : Nat) (r : Role) (u : BrokenUnit) :
    (State.holdBroken s slot r u).ccu.conditions.laneFailed = s.ccu.conditions.laneFailed :=
  State.laneFailed_of_above (State.holdBroken_above _ _ _ _)

@[simp] theorem State.holdBroken_jobFailed (s : State) (slot : Nat) (r : Role) (u : BrokenUnit) :
    (State.holdBroken s slot r u).ccu.conditions.jobFailed = s.ccu.conditions.jobFailed :=
  State.jobFailed_of_above (State.holdBroken_above _ _ _ _)

@[simp] theorem State.refusedInUnit_above (s : State) (slot : Nat) (r : Role) (good : Bool) :
    (State.refusedInUnit s slot r good).above = s.above := by
  unfold State.refusedInUnit
  try dsimp only
  (repeat' split) <;> try simp [*, above_mk]

@[simp] theorem State.refusedInUnit_sgc (s : State) (slot : Nat) (r : Role) (good : Bool) :
    (State.refusedInUnit s slot r good).sgc = s.sgc :=
  State.sgc_of_above (State.refusedInUnit_above _ _ _ _)

@[simp] theorem State.refusedInUnit_jdp (s : State) (slot : Nat) (r : Role) (good : Bool) :
    (State.refusedInUnit s slot r good).jdp = s.jdp :=
  State.jdp_of_above (State.refusedInUnit_above _ _ _ _)

@[simp] theorem State.refusedInUnit_lanes (s : State) (slot : Nat) (r : Role) (good : Bool) :
    (State.refusedInUnit s slot r good).lanes = s.lanes :=
  State.lanes_of_above (State.refusedInUnit_above _ _ _ _)

@[simp] theorem State.refusedInUnit_laneFailed (s : State) (slot : Nat) (r : Role) (good : Bool) :
    (State.refusedInUnit s slot r good).ccu.conditions.laneFailed = s.ccu.conditions.laneFailed :=
  State.laneFailed_of_above (State.refusedInUnit_above _ _ _ _)

@[simp] theorem State.refusedInUnit_jobFailed (s : State) (slot : Nat) (r : Role) (good : Bool) :
    (State.refusedInUnit s slot r good).ccu.conditions.jobFailed = s.ccu.conditions.jobFailed :=
  State.jobFailed_of_above (State.refusedInUnit_above _ _ _ _)

@[simp] theorem State.finishUnit_above (s : State) (slot : Nat) (r : Role) :
    (State.finishUnit s slot r).above = s.above := by
  unfold State.finishUnit
  try dsimp only
  (repeat' split) <;> try simp [*, above_mk]

@[simp] theorem State.finishUnit_sgc (s : State) (slot : Nat) (r : Role) :
    (State.finishUnit s slot r).sgc = s.sgc :=
  State.sgc_of_above (State.finishUnit_above _ _ _)

@[simp] theorem State.finishUnit_jdp (s : State) (slot : Nat) (r : Role) :
    (State.finishUnit s slot r).jdp = s.jdp :=
  State.jdp_of_above (State.finishUnit_above _ _ _)

@[simp] theorem State.finishUnit_lanes (s : State) (slot : Nat) (r : Role) :
    (State.finishUnit s slot r).lanes = s.lanes :=
  State.lanes_of_above (State.finishUnit_above _ _ _)

@[simp] theorem State.finishUnit_laneFailed (s : State) (slot : Nat) (r : Role) :
    (State.finishUnit s slot r).ccu.conditions.laneFailed = s.ccu.conditions.laneFailed :=
  State.laneFailed_of_above (State.finishUnit_above _ _ _)

@[simp] theorem State.finishUnit_jobFailed (s : State) (slot : Nat) (r : Role) :
    (State.finishUnit s slot r).ccu.conditions.jobFailed = s.ccu.conditions.jobFailed :=
  State.jobFailed_of_above (State.finishUnit_above _ _ _)

@[simp] theorem State.breakUnit_above (s : State) (slot : Nat) (r : Role) :
    (State.breakUnit s slot r).above = s.above := by
  unfold State.breakUnit
  try dsimp only
  (repeat' split) <;> try simp [*, above_mk]

@[simp] theorem State.breakUnit_sgc (s : State) (slot : Nat) (r : Role) :
    (State.breakUnit s slot r).sgc = s.sgc :=
  State.sgc_of_above (State.breakUnit_above _ _ _)

@[simp] theorem State.breakUnit_jdp (s : State) (slot : Nat) (r : Role) :
    (State.breakUnit s slot r).jdp = s.jdp :=
  State.jdp_of_above (State.breakUnit_above _ _ _)

@[simp] theorem State.breakUnit_lanes (s : State) (slot : Nat) (r : Role) :
    (State.breakUnit s slot r).lanes = s.lanes :=
  State.lanes_of_above (State.breakUnit_above _ _ _)

@[simp] theorem State.breakUnit_laneFailed (s : State) (slot : Nat) (r : Role) :
    (State.breakUnit s slot r).ccu.conditions.laneFailed = s.ccu.conditions.laneFailed :=
  State.laneFailed_of_above (State.breakUnit_above _ _ _)

@[simp] theorem State.breakUnit_jobFailed (s : State) (slot : Nat) (r : Role) :
    (State.breakUnit s slot r).ccu.conditions.jobFailed = s.ccu.conditions.jobFailed :=
  State.jobFailed_of_above (State.breakUnit_above _ _ _)

@[simp] theorem State.skipUnit_above (s : State) (slot : Nat) (r : Role) (h : List Byte) :
    (State.skipUnit s slot r h).above = s.above := by
  unfold State.skipUnit
  try dsimp only
  (repeat' split) <;> try simp [*, above_mk]

@[simp] theorem State.skipUnit_sgc (s : State) (slot : Nat) (r : Role) (h : List Byte) :
    (State.skipUnit s slot r h).sgc = s.sgc :=
  State.sgc_of_above (State.skipUnit_above _ _ _ _)

@[simp] theorem State.skipUnit_jdp (s : State) (slot : Nat) (r : Role) (h : List Byte) :
    (State.skipUnit s slot r h).jdp = s.jdp :=
  State.jdp_of_above (State.skipUnit_above _ _ _ _)

@[simp] theorem State.skipUnit_lanes (s : State) (slot : Nat) (r : Role) (h : List Byte) :
    (State.skipUnit s slot r h).lanes = s.lanes :=
  State.lanes_of_above (State.skipUnit_above _ _ _ _)

@[simp] theorem State.skipUnit_laneFailed (s : State) (slot : Nat) (r : Role) (h : List Byte) :
    (State.skipUnit s slot r h).ccu.conditions.laneFailed = s.ccu.conditions.laneFailed :=
  State.laneFailed_of_above (State.skipUnit_above _ _ _ _)

@[simp] theorem State.skipUnit_jobFailed (s : State) (slot : Nat) (r : Role) (h : List Byte) :
    (State.skipUnit s slot r h).ccu.conditions.jobFailed = s.ccu.conditions.jobFailed :=
  State.jobFailed_of_above (State.skipUnit_above _ _ _ _)

@[simp] theorem State.appendUnit_above (s : State) (slot : Nat) (r : Role) (h : List Byte) :
    (State.appendUnit s slot r h).above = s.above := by
  unfold State.appendUnit
  try dsimp only
  (repeat' split) <;> try simp [*, above_mk]

@[simp] theorem State.appendUnit_sgc (s : State) (slot : Nat) (r : Role) (h : List Byte) :
    (State.appendUnit s slot r h).sgc = s.sgc :=
  State.sgc_of_above (State.appendUnit_above _ _ _ _)

@[simp] theorem State.appendUnit_jdp (s : State) (slot : Nat) (r : Role) (h : List Byte) :
    (State.appendUnit s slot r h).jdp = s.jdp :=
  State.jdp_of_above (State.appendUnit_above _ _ _ _)

@[simp] theorem State.appendUnit_lanes (s : State) (slot : Nat) (r : Role) (h : List Byte) :
    (State.appendUnit s slot r h).lanes = s.lanes :=
  State.lanes_of_above (State.appendUnit_above _ _ _ _)

@[simp] theorem State.appendUnit_laneFailed (s : State) (slot : Nat) (r : Role) (h : List Byte) :
    (State.appendUnit s slot r h).ccu.conditions.laneFailed = s.ccu.conditions.laneFailed :=
  State.laneFailed_of_above (State.appendUnit_above _ _ _ _)

@[simp] theorem State.appendUnit_jobFailed (s : State) (slot : Nat) (r : Role) (h : List Byte) :
    (State.appendUnit s slot r h).ccu.conditions.jobFailed = s.ccu.conditions.jobFailed :=
  State.jobFailed_of_above (State.appendUnit_above _ _ _ _)

@[simp] theorem State.unitFate_above (s : State) (slot : Nat) (r : Role) (h : List Byte) :
    (State.unitFate s slot r h).above = s.above := by
  unfold State.unitFate
  try dsimp only
  (repeat' split) <;> try simp [*, above_mk]

@[simp] theorem State.unitFate_sgc (s : State) (slot : Nat) (r : Role) (h : List Byte) :
    (State.unitFate s slot r h).sgc = s.sgc :=
  State.sgc_of_above (State.unitFate_above _ _ _ _)

@[simp] theorem State.unitFate_jdp (s : State) (slot : Nat) (r : Role) (h : List Byte) :
    (State.unitFate s slot r h).jdp = s.jdp :=
  State.jdp_of_above (State.unitFate_above _ _ _ _)

@[simp] theorem State.unitFate_lanes (s : State) (slot : Nat) (r : Role) (h : List Byte) :
    (State.unitFate s slot r h).lanes = s.lanes :=
  State.lanes_of_above (State.unitFate_above _ _ _ _)

@[simp] theorem State.unitFate_laneFailed (s : State) (slot : Nat) (r : Role) (h : List Byte) :
    (State.unitFate s slot r h).ccu.conditions.laneFailed = s.ccu.conditions.laneFailed :=
  State.laneFailed_of_above (State.unitFate_above _ _ _ _)

@[simp] theorem State.unitFate_jobFailed (s : State) (slot : Nat) (r : Role) (h : List Byte) :
    (State.unitFate s slot r h).ccu.conditions.jobFailed = s.ccu.conditions.jobFailed :=
  State.jobFailed_of_above (State.unitFate_above _ _ _ _)

@[simp] theorem State.testHeader_above (s : State) (slot : Nat) (r : Role) (h : List Byte) :
    (State.testHeader s slot r h).above = s.above := by
  unfold State.testHeader
  try dsimp only
  (repeat' split) <;> try simp [*, above_mk]

@[simp] theorem State.testHeader_sgc (s : State) (slot : Nat) (r : Role) (h : List Byte) :
    (State.testHeader s slot r h).sgc = s.sgc :=
  State.sgc_of_above (State.testHeader_above _ _ _ _)

@[simp] theorem State.testHeader_jdp (s : State) (slot : Nat) (r : Role) (h : List Byte) :
    (State.testHeader s slot r h).jdp = s.jdp :=
  State.jdp_of_above (State.testHeader_above _ _ _ _)

@[simp] theorem State.testHeader_lanes (s : State) (slot : Nat) (r : Role) (h : List Byte) :
    (State.testHeader s slot r h).lanes = s.lanes :=
  State.lanes_of_above (State.testHeader_above _ _ _ _)

@[simp] theorem State.testHeader_laneFailed (s : State) (slot : Nat) (r : Role) (h : List Byte) :
    (State.testHeader s slot r h).ccu.conditions.laneFailed = s.ccu.conditions.laneFailed :=
  State.laneFailed_of_above (State.testHeader_above _ _ _ _)

@[simp] theorem State.testHeader_jobFailed (s : State) (slot : Nat) (r : Role) (h : List Byte) :
    (State.testHeader s slot r h).ccu.conditions.jobFailed = s.ccu.conditions.jobFailed :=
  State.jobFailed_of_above (State.testHeader_above _ _ _ _)

@[simp] theorem State.bodyByte_above (s : State) (slot : Nat) (r : Role) (x : IntakeRec) (b : Byte) :
    (State.bodyByte s slot r x b).above = s.above := by
  unfold State.bodyByte
  try dsimp only
  (repeat' split) <;> try simp [*, above_mk]

@[simp] theorem State.bodyByte_sgc (s : State) (slot : Nat) (r : Role) (x : IntakeRec) (b : Byte) :
    (State.bodyByte s slot r x b).sgc = s.sgc :=
  State.sgc_of_above (State.bodyByte_above _ _ _ _ _)

@[simp] theorem State.bodyByte_jdp (s : State) (slot : Nat) (r : Role) (x : IntakeRec) (b : Byte) :
    (State.bodyByte s slot r x b).jdp = s.jdp :=
  State.jdp_of_above (State.bodyByte_above _ _ _ _ _)

@[simp] theorem State.bodyByte_lanes (s : State) (slot : Nat) (r : Role) (x : IntakeRec) (b : Byte) :
    (State.bodyByte s slot r x b).lanes = s.lanes :=
  State.lanes_of_above (State.bodyByte_above _ _ _ _ _)

@[simp] theorem State.bodyByte_laneFailed (s : State) (slot : Nat) (r : Role) (x : IntakeRec) (b : Byte) :
    (State.bodyByte s slot r x b).ccu.conditions.laneFailed = s.ccu.conditions.laneFailed :=
  State.laneFailed_of_above (State.bodyByte_above _ _ _ _ _)

@[simp] theorem State.bodyByte_jobFailed (s : State) (slot : Nat) (r : Role) (x : IntakeRec) (b : Byte) :
    (State.bodyByte s slot r x b).ccu.conditions.jobFailed = s.ccu.conditions.jobFailed :=
  State.jobFailed_of_above (State.bodyByte_above _ _ _ _ _)

@[simp] theorem State.takeByte_above (slot : Nat) (r : Role) (s : State) (b : Byte) :
    (State.takeByte slot r s b).above = s.above := by
  unfold State.takeByte
  try dsimp only
  (repeat' split) <;> try simp [*, above_mk]

@[simp] theorem State.takeByte_sgc (slot : Nat) (r : Role) (s : State) (b : Byte) :
    (State.takeByte slot r s b).sgc = s.sgc :=
  State.sgc_of_above (State.takeByte_above _ _ _ _)

@[simp] theorem State.takeByte_jdp (slot : Nat) (r : Role) (s : State) (b : Byte) :
    (State.takeByte slot r s b).jdp = s.jdp :=
  State.jdp_of_above (State.takeByte_above _ _ _ _)

@[simp] theorem State.takeByte_lanes (slot : Nat) (r : Role) (s : State) (b : Byte) :
    (State.takeByte slot r s b).lanes = s.lanes :=
  State.lanes_of_above (State.takeByte_above _ _ _ _)

@[simp] theorem State.takeByte_laneFailed (slot : Nat) (r : Role) (s : State) (b : Byte) :
    (State.takeByte slot r s b).ccu.conditions.laneFailed = s.ccu.conditions.laneFailed :=
  State.laneFailed_of_above (State.takeByte_above _ _ _ _)

@[simp] theorem State.takeByte_jobFailed (slot : Nat) (r : Role) (s : State) (b : Byte) :
    (State.takeByte slot r s b).ccu.conditions.jobFailed = s.ccu.conditions.jobFailed :=
  State.jobFailed_of_above (State.takeByte_above _ _ _ _)

@[simp] theorem State.takeCell_above (s : State) (entry : ForwardEntry) (bytes : List Byte) :
    (State.takeCell s entry bytes).above = s.above := by
  unfold State.takeCell
  try dsimp only
  (repeat' split) <;> try simp [*, above_mk]
  all_goals try refine (foldl_keeps (fun q : State => q.above) _ (fun q e => ?_) _ _).trans ?_
  all_goals try dsimp only
  all_goals (repeat' split) <;> try simp [*, above_mk]
  all_goals try refine (foldl_keeps (fun q : State => q.above) _ (fun q e => ?_) _ _).trans ?_
  all_goals (repeat' split) <;> try simp [*, above_mk]

@[simp] theorem State.takeCell_sgc (s : State) (entry : ForwardEntry) (bytes : List Byte) :
    (State.takeCell s entry bytes).sgc = s.sgc :=
  State.sgc_of_above (State.takeCell_above _ _ _)

@[simp] theorem State.takeCell_jdp (s : State) (entry : ForwardEntry) (bytes : List Byte) :
    (State.takeCell s entry bytes).jdp = s.jdp :=
  State.jdp_of_above (State.takeCell_above _ _ _)

@[simp] theorem State.takeCell_lanes (s : State) (entry : ForwardEntry) (bytes : List Byte) :
    (State.takeCell s entry bytes).lanes = s.lanes :=
  State.lanes_of_above (State.takeCell_above _ _ _)

@[simp] theorem State.takeCell_laneFailed (s : State) (entry : ForwardEntry) (bytes : List Byte) :
    (State.takeCell s entry bytes).ccu.conditions.laneFailed = s.ccu.conditions.laneFailed :=
  State.laneFailed_of_above (State.takeCell_above _ _ _)

@[simp] theorem State.takeCell_jobFailed (s : State) (entry : ForwardEntry) (bytes : List Byte) :
    (State.takeCell s entry bytes).ccu.conditions.jobFailed = s.ccu.conditions.jobFailed :=
  State.jobFailed_of_above (State.takeCell_above _ _ _)

@[simp] theorem State.lossRecord_above (s : State) (slot : Nat) (r : Role) :
    (State.lossRecord s slot r).above = s.above := by
  unfold State.lossRecord
  try dsimp only
  (repeat' split) <;> try simp [*, above_mk]

@[simp] theorem State.lossRecord_sgc (s : State) (slot : Nat) (r : Role) :
    (State.lossRecord s slot r).sgc = s.sgc :=
  State.sgc_of_above (State.lossRecord_above _ _ _)

@[simp] theorem State.lossRecord_jdp (s : State) (slot : Nat) (r : Role) :
    (State.lossRecord s slot r).jdp = s.jdp :=
  State.jdp_of_above (State.lossRecord_above _ _ _)

@[simp] theorem State.lossRecord_lanes (s : State) (slot : Nat) (r : Role) :
    (State.lossRecord s slot r).lanes = s.lanes :=
  State.lanes_of_above (State.lossRecord_above _ _ _)

@[simp] theorem State.lossRecord_laneFailed (s : State) (slot : Nat) (r : Role) :
    (State.lossRecord s slot r).ccu.conditions.laneFailed = s.ccu.conditions.laneFailed :=
  State.laneFailed_of_above (State.lossRecord_above _ _ _)

@[simp] theorem State.lossRecord_jobFailed (s : State) (slot : Nat) (r : Role) :
    (State.lossRecord s slot r).ccu.conditions.jobFailed = s.ccu.conditions.jobFailed :=
  State.jobFailed_of_above (State.lossRecord_above _ _ _)

@[simp] theorem State.intakeLoss_above (s : State) :
    (State.intakeLoss s).above = s.above := by
  unfold State.intakeLoss
  try dsimp only
  (repeat' split) <;> try simp [*, above_mk]
  all_goals try refine (foldl_keeps (fun q : State => q.above) _ (fun q e => ?_) _ _).trans ?_
  all_goals try dsimp only
  all_goals (repeat' split) <;> try simp [*, above_mk]
  all_goals try refine (foldl_keeps (fun q : State => q.above) _ (fun q e => ?_) _ _).trans ?_
  all_goals (repeat' split) <;> try simp [*, above_mk]

@[simp] theorem State.intakeLoss_sgc (s : State) :
    (State.intakeLoss s).sgc = s.sgc :=
  State.sgc_of_above (State.intakeLoss_above _)

@[simp] theorem State.intakeLoss_jdp (s : State) :
    (State.intakeLoss s).jdp = s.jdp :=
  State.jdp_of_above (State.intakeLoss_above _)

@[simp] theorem State.intakeLoss_lanes (s : State) :
    (State.intakeLoss s).lanes = s.lanes :=
  State.lanes_of_above (State.intakeLoss_above _)

@[simp] theorem State.intakeLoss_laneFailed (s : State) :
    (State.intakeLoss s).ccu.conditions.laneFailed = s.ccu.conditions.laneFailed :=
  State.laneFailed_of_above (State.intakeLoss_above _)

@[simp] theorem State.intakeLoss_jobFailed (s : State) :
    (State.intakeLoss s).ccu.conditions.jobFailed = s.ccu.conditions.jobFailed :=
  State.jobFailed_of_above (State.intakeLoss_above _)

@[simp] theorem State.closeRunTail_above (s : State) (slot : Nat) (r : Role) :
    (State.closeRunTail s slot r).above = s.above := by
  unfold State.closeRunTail
  try dsimp only
  (repeat' split) <;> try simp [*, above_mk]

@[simp] theorem State.closeRunTail_sgc (s : State) (slot : Nat) (r : Role) :
    (State.closeRunTail s slot r).sgc = s.sgc :=
  State.sgc_of_above (State.closeRunTail_above _ _ _)

@[simp] theorem State.closeRunTail_jdp (s : State) (slot : Nat) (r : Role) :
    (State.closeRunTail s slot r).jdp = s.jdp :=
  State.jdp_of_above (State.closeRunTail_above _ _ _)

@[simp] theorem State.closeRunTail_lanes (s : State) (slot : Nat) (r : Role) :
    (State.closeRunTail s slot r).lanes = s.lanes :=
  State.lanes_of_above (State.closeRunTail_above _ _ _)

@[simp] theorem State.closeRunTail_laneFailed (s : State) (slot : Nat) (r : Role) :
    (State.closeRunTail s slot r).ccu.conditions.laneFailed = s.ccu.conditions.laneFailed :=
  State.laneFailed_of_above (State.closeRunTail_above _ _ _)

@[simp] theorem State.closeRunTail_jobFailed (s : State) (slot : Nat) (r : Role) :
    (State.closeRunTail s slot r).ccu.conditions.jobFailed = s.ccu.conditions.jobFailed :=
  State.jobFailed_of_above (State.closeRunTail_above _ _ _)

@[simp] theorem State.closeRole_above (s : State) (slot : Nat) (r : Role) :
    (State.closeRole s slot r).above = s.above := by
  unfold State.closeRole
  try dsimp only
  (repeat' split) <;> try simp [*, above_mk]

@[simp] theorem State.closeRole_sgc (s : State) (slot : Nat) (r : Role) :
    (State.closeRole s slot r).sgc = s.sgc :=
  State.sgc_of_above (State.closeRole_above _ _ _)

@[simp] theorem State.closeRole_jdp (s : State) (slot : Nat) (r : Role) :
    (State.closeRole s slot r).jdp = s.jdp :=
  State.jdp_of_above (State.closeRole_above _ _ _)

@[simp] theorem State.closeRole_lanes (s : State) (slot : Nat) (r : Role) :
    (State.closeRole s slot r).lanes = s.lanes :=
  State.lanes_of_above (State.closeRole_above _ _ _)

@[simp] theorem State.closeRole_laneFailed (s : State) (slot : Nat) (r : Role) :
    (State.closeRole s slot r).ccu.conditions.laneFailed = s.ccu.conditions.laneFailed :=
  State.laneFailed_of_above (State.closeRole_above _ _ _)

@[simp] theorem State.closeRole_jobFailed (s : State) (slot : Nat) (r : Role) :
    (State.closeRole s slot r).ccu.conditions.jobFailed = s.ccu.conditions.jobFailed :=
  State.jobFailed_of_above (State.closeRole_above _ _ _)

@[simp] theorem State.dropRole_above (s : State) (slot : Nat) (r : Role) :
    (State.dropRole s slot r).above = s.above := by
  unfold State.dropRole
  try dsimp only
  (repeat' split) <;> try simp [*, above_mk]

@[simp] theorem State.dropRole_sgc (s : State) (slot : Nat) (r : Role) :
    (State.dropRole s slot r).sgc = s.sgc :=
  State.sgc_of_above (State.dropRole_above _ _ _)

@[simp] theorem State.dropRole_jdp (s : State) (slot : Nat) (r : Role) :
    (State.dropRole s slot r).jdp = s.jdp :=
  State.jdp_of_above (State.dropRole_above _ _ _)

@[simp] theorem State.dropRole_lanes (s : State) (slot : Nat) (r : Role) :
    (State.dropRole s slot r).lanes = s.lanes :=
  State.lanes_of_above (State.dropRole_above _ _ _)

@[simp] theorem State.dropRole_laneFailed (s : State) (slot : Nat) (r : Role) :
    (State.dropRole s slot r).ccu.conditions.laneFailed = s.ccu.conditions.laneFailed :=
  State.laneFailed_of_above (State.dropRole_above _ _ _)

@[simp] theorem State.dropRole_jobFailed (s : State) (slot : Nat) (r : Role) :
    (State.dropRole s slot r).ccu.conditions.jobFailed = s.ccu.conditions.jobFailed :=
  State.jobFailed_of_above (State.dropRole_above _ _ _)

@[simp] theorem State.overrunGranted_above (s : State) (slot : Nat) (r : Role) :
    (State.overrunGranted s slot r).above = s.above := by
  unfold State.overrunGranted
  try dsimp only
  (repeat' split) <;> try simp [*, above_mk]

@[simp] theorem State.overrunGranted_sgc (s : State) (slot : Nat) (r : Role) :
    (State.overrunGranted s slot r).sgc = s.sgc :=
  State.sgc_of_above (State.overrunGranted_above _ _ _)

@[simp] theorem State.overrunGranted_jdp (s : State) (slot : Nat) (r : Role) :
    (State.overrunGranted s slot r).jdp = s.jdp :=
  State.jdp_of_above (State.overrunGranted_above _ _ _)

@[simp] theorem State.overrunGranted_lanes (s : State) (slot : Nat) (r : Role) :
    (State.overrunGranted s slot r).lanes = s.lanes :=
  State.lanes_of_above (State.overrunGranted_above _ _ _)

@[simp] theorem State.overrunGranted_laneFailed (s : State) (slot : Nat) (r : Role) :
    (State.overrunGranted s slot r).ccu.conditions.laneFailed = s.ccu.conditions.laneFailed :=
  State.laneFailed_of_above (State.overrunGranted_above _ _ _)

@[simp] theorem State.overrunGranted_jobFailed (s : State) (slot : Nat) (r : Role) :
    (State.overrunGranted s slot r).ccu.conditions.jobFailed = s.ccu.conditions.jobFailed :=
  State.jobFailed_of_above (State.overrunGranted_above _ _ _)

/-! ### Claims -/

@[simp] theorem State.laneFill_sgc (s : State) (n : Nat) :
    (State.laneFill s n).sgc = s.sgc := by
  unfold State.laneFill
  try dsimp only
  (repeat' split) <;> try simp [*, above_mk]

@[simp] theorem State.laneFill_jdp (s : State) (n : Nat) :
    (State.laneFill s n).jdp = s.jdp := by
  unfold State.laneFill
  try dsimp only
  (repeat' split) <;> try simp [*, above_mk]

@[simp] theorem State.laneFill_laneFailed (s : State) (n : Nat) :
    (State.laneFill s n).ccu.conditions.laneFailed = s.ccu.conditions.laneFailed := by
  unfold State.laneFill
  try dsimp only
  (repeat' split) <;> try simp [*, above_mk]

@[simp] theorem State.laneFill_jobFailed (s : State) (n : Nat) :
    (State.laneFill s n).ccu.conditions.jobFailed = s.ccu.conditions.jobFailed := by
  unfold State.laneFill
  try dsimp only
  (repeat' split) <;> try simp [*, above_mk]

@[simp] theorem State.laneTakeBuffer_sgc (s : State) (n e : Nat) (x : Extent) :
    (State.laneTakeBuffer s n e x).sgc = s.sgc := by
  unfold State.laneTakeBuffer
  try dsimp only
  (repeat' split) <;> try simp [*, above_mk]

@[simp] theorem State.laneTakeBuffer_jdp (s : State) (n e : Nat) (x : Extent) :
    (State.laneTakeBuffer s n e x).jdp = s.jdp := by
  unfold State.laneTakeBuffer
  try dsimp only
  (repeat' split) <;> try simp [*, above_mk]

@[simp] theorem State.laneTakeBuffer_laneFailed (s : State) (n e : Nat) (x : Extent) :
    (State.laneTakeBuffer s n e x).ccu.conditions.laneFailed = s.ccu.conditions.laneFailed := by
  unfold State.laneTakeBuffer
  try dsimp only
  (repeat' split) <;> try simp [*, above_mk]

@[simp] theorem State.laneTakeBuffer_jobFailed (s : State) (n e : Nat) (x : Extent) :
    (State.laneTakeBuffer s n e x).ccu.conditions.jobFailed = s.ccu.conditions.jobFailed := by
  unfold State.laneTakeBuffer
  try dsimp only
  (repeat' split) <;> try simp [*, above_mk]

@[simp] theorem State.unhold_sgc (s : State) (n : Nat) :
    (State.unhold s n).sgc = s.sgc := by
  unfold State.unhold
  try dsimp only
  (repeat' split) <;> try simp [*, above_mk]

@[simp] theorem State.unhold_jdp (s : State) (n : Nat) :
    (State.unhold s n).jdp = s.jdp := by
  unfold State.unhold
  try dsimp only
  (repeat' split) <;> try simp [*, above_mk]

@[simp] theorem State.unhold_laneFailed (s : State) (n : Nat) :
    (State.unhold s n).ccu.conditions.laneFailed = s.ccu.conditions.laneFailed := by
  unfold State.unhold
  try dsimp only
  (repeat' split) <;> try simp [*, above_mk]

@[simp] theorem State.unhold_jobFailed (s : State) (n : Nat) :
    (State.unhold s n).ccu.conditions.jobFailed = s.ccu.conditions.jobFailed := by
  unfold State.unhold
  try dsimp only
  (repeat' split) <;> try simp [*, above_mk]

@[simp] theorem State.hold_sgc (s : State) (n : Nat) (kind : ClaimKind) :
    (State.hold s n kind).sgc = s.sgc := by
  unfold State.hold
  try dsimp only
  (repeat' split) <;> try simp [*, above_mk]

@[simp] theorem State.hold_jdp (s : State) (n : Nat) (kind : ClaimKind) :
    (State.hold s n kind).jdp = s.jdp := by
  unfold State.hold
  try dsimp only
  (repeat' split) <;> try simp [*, above_mk]

@[simp] theorem State.hold_laneFailed (s : State) (n : Nat) (kind : ClaimKind) :
    (State.hold s n kind).ccu.conditions.laneFailed = s.ccu.conditions.laneFailed := by
  unfold State.hold
  try dsimp only
  (repeat' split) <;> try simp [*, above_mk]

@[simp] theorem State.hold_jobFailed (s : State) (n : Nat) (kind : ClaimKind) :
    (State.hold s n kind).ccu.conditions.jobFailed = s.ccu.conditions.jobFailed := by
  unfold State.hold
  try dsimp only
  (repeat' split) <;> try simp [*, above_mk]

@[simp] theorem State.giveRun_sgc (s : State) (slot : Nat) (r : Role) (kind : ClaimKind) :
    (State.giveRun s slot r kind).sgc = s.sgc := by
  unfold State.giveRun
  try dsimp only
  (repeat' split) <;> try simp [*, above_mk]

@[simp] theorem State.giveRun_jdp (s : State) (slot : Nat) (r : Role) (kind : ClaimKind) :
    (State.giveRun s slot r kind).jdp = s.jdp := by
  unfold State.giveRun
  try dsimp only
  (repeat' split) <;> try simp [*, above_mk]

@[simp] theorem State.giveRun_laneFailed (s : State) (slot : Nat) (r : Role) (kind : ClaimKind) :
    (State.giveRun s slot r kind).ccu.conditions.laneFailed = s.ccu.conditions.laneFailed := by
  unfold State.giveRun
  try dsimp only
  (repeat' split) <;> try simp [*, above_mk]

@[simp] theorem State.giveRun_jobFailed (s : State) (slot : Nat) (r : Role) (kind : ClaimKind) :
    (State.giveRun s slot r kind).ccu.conditions.jobFailed = s.ccu.conditions.jobFailed := by
  unfold State.giveRun
  try dsimp only
  (repeat' split) <;> try simp [*, above_mk]

@[simp] theorem State.giveLane_sgc (s : State) (n : Nat) (kind : ClaimKind) :
    (State.giveLane s n kind).sgc = s.sgc := by
  unfold State.giveLane
  try dsimp only
  (repeat' split) <;> try simp [*, above_mk]

@[simp] theorem State.giveLane_jdp (s : State) (n : Nat) (kind : ClaimKind) :
    (State.giveLane s n kind).jdp = s.jdp := by
  unfold State.giveLane
  try dsimp only
  (repeat' split) <;> try simp [*, above_mk]

@[simp] theorem State.giveLane_laneFailed (s : State) (n : Nat) (kind : ClaimKind) :
    (State.giveLane s n kind).ccu.conditions.laneFailed = s.ccu.conditions.laneFailed := by
  unfold State.giveLane
  try dsimp only
  (repeat' split) <;> try simp [*, above_mk]

@[simp] theorem State.giveLane_jobFailed (s : State) (n : Nat) (kind : ClaimKind) :
    (State.giveLane s n kind).ccu.conditions.jobFailed = s.ccu.conditions.jobFailed := by
  unfold State.giveLane
  try dsimp only
  (repeat' split) <;> try simp [*, above_mk]

@[simp] theorem State.grant_sgc (s : State) (c : Claim) :
    (State.grant s c).sgc = s.sgc := by
  unfold State.grant
  try dsimp only
  (repeat' split) <;> try simp [*, above_mk]

@[simp] theorem State.grant_jdp (s : State) (c : Claim) :
    (State.grant s c).jdp = s.jdp := by
  unfold State.grant
  try dsimp only
  (repeat' split) <;> try simp [*, above_mk]

@[simp] theorem State.grant_laneFailed (s : State) (c : Claim) :
    (State.grant s c).ccu.conditions.laneFailed = s.ccu.conditions.laneFailed := by
  unfold State.grant
  try dsimp only
  (repeat' split) <;> try simp [*, above_mk]

@[simp] theorem State.grant_jobFailed (s : State) (c : Claim) :
    (State.grant s c).ccu.conditions.jobFailed = s.ccu.conditions.jobFailed := by
  unfold State.grant
  try dsimp only
  (repeat' split) <;> try simp [*, above_mk]

@[simp] theorem State.serveLoop_sgc (n : Nat) (s : State) :
    (State.serveLoop n s).sgc = s.sgc := by
  induction n generalizing s with
  | zero => rfl
  | succ n ih =>
    unfold State.serveLoop
    split <;> simp [ih, above_mk]

@[simp] theorem State.serveLoop_jdp (n : Nat) (s : State) :
    (State.serveLoop n s).jdp = s.jdp := by
  induction n generalizing s with
  | zero => rfl
  | succ n ih =>
    unfold State.serveLoop
    split <;> simp [ih, above_mk]

@[simp] theorem State.serveLoop_laneFailed (n : Nat) (s : State) :
    (State.serveLoop n s).ccu.conditions.laneFailed = s.ccu.conditions.laneFailed := by
  induction n generalizing s with
  | zero => rfl
  | succ n ih =>
    unfold State.serveLoop
    split <;> simp [ih, above_mk]

@[simp] theorem State.serveLoop_jobFailed (n : Nat) (s : State) :
    (State.serveLoop n s).ccu.conditions.jobFailed = s.ccu.conditions.jobFailed := by
  induction n generalizing s with
  | zero => rfl
  | succ n ih =>
    unfold State.serveLoop
    split <;> simp [ih, above_mk]

@[simp] theorem State.resumeCopies_sgc (s : State) :
    (State.resumeCopies s).sgc = s.sgc := by
  unfold State.resumeCopies
  try dsimp only
  (repeat' split) <;> try simp [*, above_mk]
  all_goals try refine (foldl_keeps (fun q : State => q.sgc) _ (fun q e => ?_) _ _).trans ?_
  all_goals try dsimp only
  all_goals (repeat' split) <;> try simp [*, above_mk]
  all_goals try refine (foldl_keeps (fun q : State => q.sgc) _ (fun q e => ?_) _ _).trans ?_
  all_goals (repeat' split) <;> try simp [*, above_mk]

@[simp] theorem State.resumeCopies_jdp (s : State) :
    (State.resumeCopies s).jdp = s.jdp := by
  unfold State.resumeCopies
  try dsimp only
  (repeat' split) <;> try simp [*, above_mk]
  all_goals try refine (foldl_keeps (fun q : State => q.jdp) _ (fun q e => ?_) _ _).trans ?_
  all_goals try dsimp only
  all_goals (repeat' split) <;> try simp [*, above_mk]
  all_goals try refine (foldl_keeps (fun q : State => q.jdp) _ (fun q e => ?_) _ _).trans ?_
  all_goals (repeat' split) <;> try simp [*, above_mk]

@[simp] theorem State.resumeCopies_laneFailed (s : State) :
    (State.resumeCopies s).ccu.conditions.laneFailed = s.ccu.conditions.laneFailed := by
  unfold State.resumeCopies
  try dsimp only
  (repeat' split) <;> try simp [*, above_mk]
  all_goals try refine (foldl_keeps (fun q : State => q.ccu.conditions.laneFailed) _ (fun q e => ?_) _ _).trans ?_
  all_goals try dsimp only
  all_goals (repeat' split) <;> try simp [*, above_mk]
  all_goals try refine (foldl_keeps (fun q : State => q.ccu.conditions.laneFailed) _ (fun q e => ?_) _ _).trans ?_
  all_goals (repeat' split) <;> try simp [*, above_mk]

@[simp] theorem State.resumeCopies_jobFailed (s : State) :
    (State.resumeCopies s).ccu.conditions.jobFailed = s.ccu.conditions.jobFailed := by
  unfold State.resumeCopies
  try dsimp only
  (repeat' split) <;> try simp [*, above_mk]
  all_goals try refine (foldl_keeps (fun q : State => q.ccu.conditions.jobFailed) _ (fun q e => ?_) _ _).trans ?_
  all_goals try dsimp only
  all_goals (repeat' split) <;> try simp [*, above_mk]
  all_goals try refine (foldl_keeps (fun q : State => q.ccu.conditions.jobFailed) _ (fun q e => ?_) _ _).trans ?_
  all_goals (repeat' split) <;> try simp [*, above_mk]

@[simp] theorem State.endOverruns_sgc (s : State) (before : List Claim) :
    (State.endOverruns s before).sgc = s.sgc := by
  unfold State.endOverruns
  try dsimp only
  (repeat' split) <;> try simp [*, above_mk]
  all_goals try refine (foldl_keeps (fun q : State => q.sgc) _ (fun q e => ?_) _ _).trans ?_
  all_goals try dsimp only
  all_goals (repeat' split) <;> try simp [*, above_mk]
  all_goals try refine (foldl_keeps (fun q : State => q.sgc) _ (fun q e => ?_) _ _).trans ?_
  all_goals (repeat' split) <;> try simp [*, above_mk]

@[simp] theorem State.endOverruns_jdp (s : State) (before : List Claim) :
    (State.endOverruns s before).jdp = s.jdp := by
  unfold State.endOverruns
  try dsimp only
  (repeat' split) <;> try simp [*, above_mk]
  all_goals try refine (foldl_keeps (fun q : State => q.jdp) _ (fun q e => ?_) _ _).trans ?_
  all_goals try dsimp only
  all_goals (repeat' split) <;> try simp [*, above_mk]
  all_goals try refine (foldl_keeps (fun q : State => q.jdp) _ (fun q e => ?_) _ _).trans ?_
  all_goals (repeat' split) <;> try simp [*, above_mk]

@[simp] theorem State.endOverruns_laneFailed (s : State) (before : List Claim) :
    (State.endOverruns s before).ccu.conditions.laneFailed = s.ccu.conditions.laneFailed := by
  unfold State.endOverruns
  try dsimp only
  (repeat' split) <;> try simp [*, above_mk]
  all_goals try refine (foldl_keeps (fun q : State => q.ccu.conditions.laneFailed) _ (fun q e => ?_) _ _).trans ?_
  all_goals try dsimp only
  all_goals (repeat' split) <;> try simp [*, above_mk]
  all_goals try refine (foldl_keeps (fun q : State => q.ccu.conditions.laneFailed) _ (fun q e => ?_) _ _).trans ?_
  all_goals (repeat' split) <;> try simp [*, above_mk]

@[simp] theorem State.endOverruns_jobFailed (s : State) (before : List Claim) :
    (State.endOverruns s before).ccu.conditions.jobFailed = s.ccu.conditions.jobFailed := by
  unfold State.endOverruns
  try dsimp only
  (repeat' split) <;> try simp [*, above_mk]
  all_goals try refine (foldl_keeps (fun q : State => q.ccu.conditions.jobFailed) _ (fun q e => ?_) _ _).trans ?_
  all_goals try dsimp only
  all_goals (repeat' split) <;> try simp [*, above_mk]
  all_goals try refine (foldl_keeps (fun q : State => q.ccu.conditions.jobFailed) _ (fun q e => ?_) _ _).trans ?_
  all_goals (repeat' split) <;> try simp [*, above_mk]

@[simp] theorem State.serveClaims_sgc (s : State) :
    (State.serveClaims s).sgc = s.sgc := by
  unfold State.serveClaims
  try dsimp only
  (repeat' split) <;> try simp [*, above_mk]

@[simp] theorem State.serveClaims_jdp (s : State) :
    (State.serveClaims s).jdp = s.jdp := by
  unfold State.serveClaims
  try dsimp only
  (repeat' split) <;> try simp [*, above_mk]

@[simp] theorem State.serveClaims_laneFailed (s : State) :
    (State.serveClaims s).ccu.conditions.laneFailed = s.ccu.conditions.laneFailed := by
  unfold State.serveClaims
  try dsimp only
  (repeat' split) <;> try simp [*, above_mk]

@[simp] theorem State.serveClaims_jobFailed (s : State) :
    (State.serveClaims s).ccu.conditions.jobFailed = s.ccu.conditions.jobFailed := by
  unfold State.serveClaims
  try dsimp only
  (repeat' split) <;> try simp [*, above_mk]

/-! ### Jobs -/

@[simp] theorem State.evalLaneFailed_sgc (s : State) :
    (State.evalLaneFailed s).sgc = s.sgc := by
  unfold State.evalLaneFailed
  try dsimp only
  (repeat' split) <;> try simp [*, above_mk]

@[simp] theorem State.createJob_sgc (s : State) (j : Job) :
    (State.createJob s j).sgc = s.sgc := by
  unfold State.createJob
  try dsimp only
  (repeat' split) <;> try simp [*, above_mk]

@[simp] theorem State.createJob_laneFailed (s : State) (j : Job) :
    (State.createJob s j).ccu.conditions.laneFailed = s.ccu.conditions.laneFailed := by
  unfold State.createJob
  try dsimp only
  (repeat' split) <;> try simp [*, above_mk]

@[simp] theorem State.unlistJob_sgc (s : State) (k : Nat) :
    (State.unlistJob s k).sgc = s.sgc := rfl

@[simp] theorem State.unlistJob_laneFailed (s : State) (k : Nat) :
    (State.unlistJob s k).ccu.conditions.laneFailed = s.ccu.conditions.laneFailed := rfl

@[simp] theorem State.freeJob_sgc (s : State) (k : Nat) :
    (State.freeJob s k).sgc = s.sgc := by
  unfold State.freeJob
  try dsimp only
  (repeat' split) <;> try simp [*, above_mk]

@[simp] theorem State.freeJob_laneFailed (s : State) (k : Nat) :
    (State.freeJob s k).ccu.conditions.laneFailed = s.ccu.conditions.laneFailed := by
  unfold State.freeJob
  try dsimp only
  (repeat' split) <;> try simp [*, above_mk]

@[simp] theorem State.returnJob_sgc (s : State) (k : Nat) (j : Job) :
    (State.returnJob s k j).sgc = s.sgc := by
  unfold State.returnJob
  try dsimp only
  (repeat' split) <;> try simp [*, above_mk]

@[simp] theorem State.returnJob_laneFailed (s : State) (k : Nat) (j : Job) :
    (State.returnJob s k j).ccu.conditions.laneFailed = s.ccu.conditions.laneFailed := by
  unfold State.returnJob
  try dsimp only
  (repeat' split) <;> try simp [*, above_mk]

@[simp] theorem State.clearYield_sgc (s : State) (n : Nat) :
    (State.clearYield s n).sgc = s.sgc := rfl

@[simp] theorem State.clearYield_laneFailed (s : State) (n : Nat) :
    (State.clearYield s n).ccu.conditions.laneFailed = s.ccu.conditions.laneFailed := rfl

@[simp] theorem State.overtake_sgc (s : State) (n : Nat) :
    (State.overtake s n).sgc = s.sgc := by
  unfold State.overtake
  try dsimp only
  (repeat' split) <;> try simp [*, above_mk]

@[simp] theorem State.overtake_laneFailed (s : State) (n : Nat) :
    (State.overtake s n).ccu.conditions.laneFailed = s.ccu.conditions.laneFailed := by
  unfold State.overtake
  try dsimp only
  (repeat' split) <;> try simp [*, above_mk]

@[simp] theorem State.laneWithout_sgc (s : State) (n : Nat) (st : LaneState) :
    (State.laneWithout s n st).sgc = s.sgc := by
  unfold State.laneWithout
  try dsimp only
  (repeat' split) <;> try simp [*, above_mk]

@[simp] theorem State.laneWithout_laneFailed (s : State) (n : Nat) (st : LaneState) :
    (State.laneWithout s n st).ccu.conditions.laneFailed = s.ccu.conditions.laneFailed := by
  unfold State.laneWithout
  try dsimp only
  (repeat' split) <;> try simp [*, above_mk]

@[simp] theorem State.failJob_sgc (s : State) (k : Nat) (j : Job) (reason : FailReason) :
    (State.failJob s k j reason).sgc = s.sgc := by
  unfold State.failJob
  try dsimp only
  (repeat' split) <;> try simp [*, above_mk]

@[simp] theorem State.failJob_laneFailed (s : State) (k : Nat) (j : Job) (reason : FailReason) :
    (State.failJob s k j reason).ccu.conditions.laneFailed = s.ccu.conditions.laneFailed := by
  unfold State.failJob
  try dsimp only
  (repeat' split) <;> try simp [*, above_mk]

@[simp] theorem State.failLaneJob_sgc (s : State) (n : Nat) (reason : FailReason) :
    (State.failLaneJob s n reason).sgc = s.sgc := by
  unfold State.failLaneJob
  try dsimp only
  (repeat' split) <;> try simp [*, above_mk]

@[simp] theorem State.failLaneJob_laneFailed (s : State) (n : Nat) (reason : FailReason) :
    (State.failLaneJob s n reason).ccu.conditions.laneFailed = s.ccu.conditions.laneFailed := by
  unfold State.failLaneJob
  try dsimp only
  (repeat' split) <;> try simp [*, above_mk]

@[simp] theorem State.returnLaneJob_sgc (s : State) (n : Nat) (st : LaneState) :
    (State.returnLaneJob s n st).sgc = s.sgc := by
  unfold State.returnLaneJob
  try dsimp only
  (repeat' split) <;> try simp [*, above_mk]

@[simp] theorem State.returnLaneJob_laneFailed (s : State) (n : Nat) (st : LaneState) :
    (State.returnLaneJob s n st).ccu.conditions.laneFailed = s.ccu.conditions.laneFailed := by
  unfold State.returnLaneJob
  try dsimp only
  (repeat' split) <;> try simp [*, above_mk]

@[simp] theorem State.finishJob_sgc (s : State) (k : Nat) (j : Job) (e : Nat) :
    (State.finishJob s k j e).sgc = s.sgc := by
  unfold State.finishJob
  try dsimp only
  (repeat' split) <;> try simp [*, above_mk]

@[simp] theorem State.finishJob_laneFailed (s : State) (k : Nat) (j : Job) (e : Nat) :
    (State.finishJob s k j e).ccu.conditions.laneFailed = s.ccu.conditions.laneFailed := by
  unfold State.finishJob
  try dsimp only
  (repeat' split) <;> try simp [*, above_mk]

@[simp] theorem State.startChunk_sgc (s : State) (n : Nat) (j : Job) (k : Nat) (positions : PerRole (Option Nat)) :
    (State.startChunk s n j k positions).sgc = s.sgc := by
  unfold State.startChunk
  try dsimp only
  (repeat' split) <;> try simp [*, above_mk]

@[simp] theorem State.startChunk_laneFailed (s : State) (n : Nat) (j : Job) (k : Nat) (positions : PerRole (Option Nat)) :
    (State.startChunk s n j k positions).ccu.conditions.laneFailed = s.ccu.conditions.laneFailed := by
  unfold State.startChunk
  try dsimp only
  (repeat' split) <;> try simp [*, above_mk]

@[simp] theorem State.startWalk_sgc (s : State) (n : Nat) (j : Job) (starts : PerRole (Option Nat)) :
    (State.startWalk s n j starts).sgc = s.sgc := by
  unfold State.startWalk
  try dsimp only
  (repeat' split) <;> try simp [*, above_mk]

@[simp] theorem State.startWalk_laneFailed (s : State) (n : Nat) (j : Job) (starts : PerRole (Option Nat)) :
    (State.startWalk s n j starts).ccu.conditions.laneFailed = s.ccu.conditions.laneFailed := by
  unfold State.startWalk
  try dsimp only
  (repeat' split) <;> try simp [*, above_mk]

@[simp] theorem State.beginJob_sgc (s : State) (n : Nat) (j : Job) :
    (State.beginJob s n j).sgc = s.sgc := by
  unfold State.beginJob
  try dsimp only
  (repeat' split) <;> try simp [*, above_mk]

@[simp] theorem State.beginJob_laneFailed (s : State) (n : Nat) (j : Job) :
    (State.beginJob s n j).ccu.conditions.laneFailed = s.ccu.conditions.laneFailed := by
  unfold State.beginJob
  try dsimp only
  (repeat' split) <;> try simp [*, above_mk]

@[simp] theorem State.waitExtent_laneFailed (s : State) (k : Nat) :
    (State.waitExtent s k).ccu.conditions.laneFailed = s.ccu.conditions.laneFailed := rfl

@[simp] theorem State.handOver_sgc (s : State) (n k : Nat) (j : Job) :
    (State.handOver s n k j).1.sgc = s.sgc := by
  unfold State.handOver
  try dsimp only
  (repeat' split) <;> try simp [*, above_mk]

@[simp] theorem State.handOver_laneFailed (s : State) (n k : Nat) (j : Job) :
    (State.handOver s n k j).1.ccu.conditions.laneFailed = s.ccu.conditions.laneFailed := by
  unfold State.handOver
  try dsimp only
  (repeat' split) <;> try simp [*, above_mk]

@[simp] theorem State.offerJob_sgc (s : State) (n k : Nat) :
    (State.offerJob s n k).1.sgc = s.sgc := by
  unfold State.offerJob
  try dsimp only
  (repeat' split) <;> try simp [*, above_mk]

@[simp] theorem State.offerJob_laneFailed (s : State) (n k : Nat) :
    (State.offerJob s n k).1.ccu.conditions.laneFailed = s.ccu.conditions.laneFailed := by
  unfold State.offerJob
  try dsimp only
  (repeat' split) <;> try simp [*, above_mk]

@[simp] theorem State.dispatchLoop_sgc (n : Nat) (s : State) :
    (State.dispatchLoop n s).sgc = s.sgc := by
  induction n generalizing s with
  | zero => rfl
  | succ n ih =>
    unfold State.dispatchLoop
    dsimp only
    (repeat' split) <;> simp [ih, above_mk]

@[simp] theorem State.dispatchLoop_laneFailed (n : Nat) (s : State) :
    (State.dispatchLoop n s).ccu.conditions.laneFailed = s.ccu.conditions.laneFailed := by
  induction n generalizing s with
  | zero => rfl
  | succ n ih =>
    unfold State.dispatchLoop
    dsimp only
    (repeat' split) <;> simp [ih, above_mk]

@[simp] theorem State.withdrawYields_sgc (n : Nat) (s : State) :
    (State.withdrawYields n s).sgc = s.sgc := by
  induction n generalizing s with
  | zero => rfl
  | succ n ih =>
    unfold State.withdrawYields
    dsimp only
    (repeat' split) <;> simp [ih, above_mk]

@[simp] theorem State.withdrawYields_laneFailed (n : Nat) (s : State) :
    (State.withdrawYields n s).ccu.conditions.laneFailed = s.ccu.conditions.laneFailed := by
  induction n generalizing s with
  | zero => rfl
  | succ n ih =>
    unfold State.withdrawYields
    dsimp only
    (repeat' split) <;> simp [ih, above_mk]

@[simp] theorem State.setYields_sgc (n : Nat) (s : State) :
    (State.setYields n s).sgc = s.sgc := by
  induction n generalizing s with
  | zero => rfl
  | succ n ih =>
    unfold State.setYields
    dsimp only
    (repeat' split) <;> simp [ih, above_mk]

@[simp] theorem State.setYields_laneFailed (n : Nat) (s : State) :
    (State.setYields n s).ccu.conditions.laneFailed = s.ccu.conditions.laneFailed := by
  induction n generalizing s with
  | zero => rfl
  | succ n ih =>
    unfold State.setYields
    dsimp only
    (repeat' split) <;> simp [ih, above_mk]

@[simp] theorem State.settle_sgc (s : State) :
    (State.settle s).sgc = s.sgc := by
  unfold State.settle
  try dsimp only
  (repeat' split) <;> try simp [*, above_mk]

@[simp] theorem State.settle_laneFailed (s : State) :
    (State.settle s).ccu.conditions.laneFailed = s.ccu.conditions.laneFailed := by
  unfold State.settle
  try dsimp only
  (repeat' split) <;> try simp [*, above_mk]

@[simp] theorem State.takeLive_sgc (n fuel : Nat) (s : State) :
    (State.takeLive n fuel s).sgc = s.sgc := by
  induction fuel generalizing s with
  | zero => simp [State.takeLive]
  | succ f ih =>
    unfold State.takeLive
    dsimp only
    (repeat' split) <;> simp [ih, above_mk]

@[simp] theorem State.takeLive_laneFailed (n fuel : Nat) (s : State) :
    (State.takeLive n fuel s).ccu.conditions.laneFailed = s.ccu.conditions.laneFailed := by
  induction fuel generalizing s with
  | zero => simp [State.takeLive]
  | succ f ih =>
    unfold State.takeLive
    dsimp only
    (repeat' split) <;> simp [ih, above_mk]

@[simp] theorem State.commitChunk_sgc (s : State) (n k : Nat) (j : Job) :
    (State.commitChunk s n k j).sgc = s.sgc := by
  unfold State.commitChunk
  try dsimp only
  (repeat' split) <;> try simp [*, above_mk]

@[simp] theorem State.commitChunk_laneFailed (s : State) (n k : Nat) (j : Job) :
    (State.commitChunk s n k j).ccu.conditions.laneFailed = s.ccu.conditions.laneFailed := by
  unfold State.commitChunk
  try dsimp only
  (repeat' split) <;> try simp [*, above_mk]

@[simp] theorem State.afterCommit_sgc (s : State) (n k : Nat) (j : Job) :
    (State.afterCommit s n k j).sgc = s.sgc := by
  unfold State.afterCommit
  try dsimp only
  (repeat' split) <;> try simp [*, above_mk]

@[simp] theorem State.afterCommit_laneFailed (s : State) (n k : Nat) (j : Job) :
    (State.afterCommit s n k j).ccu.conditions.laneFailed = s.ccu.conditions.laneFailed := by
  unfold State.afterCommit
  try dsimp only
  (repeat' split) <;> try simp [*, above_mk]

end Sys2Proof.Machine
end

