-- ==== Sys2Proof/Laws/Lanes.lean ====
section
/-! SUPPORT. Lanes and conditions under the shared operations: what a grant leaves of a lane, which lanes a dispatch
pass touches, and the conditions after a raise, a lower and a level. -/

set_option linter.unusedSimpArgs false
set_option linter.unusedTactic false
set_option linter.unnecessarySeqFocus false

namespace Sys2Proof.Machine

/-! ### Conditions -/

@[simp] theorem Conditions.get_set_same (c : Conditions) (k : Condition) (b : Bool) : (c.set k b).get k = b := by
  cases k <;> rfl

theorem Conditions.get_set_ne (c : Conditions) {k j : Condition} (b : Bool) (h : j ≠ k) : (c.set k b).get j = c.get j := by
  cases k <;> cases j <;> first | rfl | exact absurd rfl h

theorem State.queueAlarm_conditions (s : State) : s.queueAlarm.ccu.conditions = s.ccu.conditions := by
  unfold State.queueAlarm
  split <;> rfl

@[simp] theorem State.raise_condition_same (s : State) (k : Condition) : (s.raise k).condition k = true := by
  unfold State.raise
  split
  · assumption
  · rw [State.condition, State.queueAlarm_conditions]
    exact Conditions.get_set_same ..

theorem State.raise_condition_ne (s : State) {k j : Condition} (h : j ≠ k) : (s.raise k).condition j = s.condition j := by
  unfold State.raise
  split
  · rfl
  · rw [State.condition, State.queueAlarm_conditions]
    exact Conditions.get_set_ne _ _ h

@[simp] theorem State.lower_condition_same (s : State) (k : Condition) : (s.lower k).condition k = false :=
  Conditions.get_set_same ..

theorem State.lower_condition_ne (s : State) {k j : Condition} (h : j ≠ k) : (s.lower k).condition j = s.condition j :=
  Conditions.get_set_ne _ _ h

@[simp] theorem State.level_condition_same (s : State) (k : Condition) (b : Bool) : (s.level k b).condition k = b := by
  unfold State.level
  split <;> simp_all

theorem State.level_condition_ne (s : State) {k j : Condition} (b : Bool) (h : j ≠ k) :
    (s.level k b).condition j = s.condition j := by
  unfold State.level
  split
  · exact State.raise_condition_ne s h
  · exact State.lower_condition_ne s h

/-! ### Records -/

@[simp] theorem State.lane_setLane_same (s : State) (n : Nat) (x : Lane) : (s.setLane n x).lane n = x := by
  simp [State.lane]

theorem State.lane_setLane_ne (s : State) {n m : Nat} (x : Lane) (h : m ≠ n) : (s.setLane n x).lane m = s.lane m := by
  simp [State.lane, Table.atD_put_ne _ _ _ h]

theorem State.lane_of_lanes {s t : State} (h : t.lanes = s.lanes) (n : Nat) : t.lane n = s.lane n := by
  simp [State.lane, h]

@[simp] theorem State.lecture?_setLecture_same (s : State) (slot : Nat) (l : Lecture) :
    (s.setLecture slot l).lecture? slot = some l := by
  simp [State.lecture?]

theorem State.lecture?_setLecture_ne (s : State) {slot m : Nat} (l : Lecture) (h : m ≠ slot) :
    (s.setLecture slot l).lecture? m = s.lecture? m := by
  simp [State.lecture?, Table.at?_put_ne _ _ h]

theorem State.lecture?_of_sgc {s t : State} (h : t.sgc = s.sgc) (slot : Nat) : t.lecture? slot = s.lecture? slot := by
  simp [State.lecture?, h]

theorem State.job?_of_jdp {s t : State} (h : t.jdp = s.jdp) (k : Nat) : t.job? k = s.job? k := by
  simp [State.job?, h]

/-! ### What a grant leaves of a lane -/

/-- What no grant changes of a lane: everything but what it waits for, its timer and its output (R94, R129). -/
def Lane.core (l : Lane) : Lane := { l with held := .none, timer := .stopped, output := [] }

theorem Lane.state_of_core {l k : Lane} (h : l.core = k.core) : l.state = k.state := by
  have := congrArg Lane.state h
  exact this
theorem Lane.job_of_core {l k : Lane} (h : l.core = k.core) : l.job = k.job := by
  have := congrArg Lane.job h
  exact this
theorem Lane.chunk_of_core {l k : Lane} (h : l.core = k.core) : l.chunk = k.chunk := by
  have := congrArg Lane.chunk h
  exact this
theorem Lane.testChunk_of_core {l k : Lane} (h : l.core = k.core) : l.testChunk = k.testChunk := by
  have := congrArg Lane.testChunk h
  exact this
theorem Lane.testCheck_of_core {l k : Lane} (h : l.core = k.core) : l.testCheck = k.testCheck := by
  have := congrArg Lane.testCheck h
  exact this
theorem Lane.fault_of_core {l k : Lane} (h : l.core = k.core) : l.fault = k.fault := by
  have := congrArg Lane.fault h
  exact this
theorem Lane.received_of_core {l k : Lane} (h : l.core = k.core) : l.received = k.received := by
  have := congrArg Lane.received h
  exact this

/-- A running timer runs on: a grant starts a PAUSED timer and leaves every other as it is (R94). -/
def Lane.sameRun (l k : Lane) : Prop := ∀ t, k.timer = .running t → l.timer = .running t

theorem State.unhold_core (s : State) (n m : Nat) : ((s.unhold n).lane m).core = (s.lane m).core := by
  unfold State.unhold
  by_cases h : m = n
  · subst h
    simp [Lane.core]
  · simp [State.lane_setLane_ne _ _ h]

theorem State.laneFill_core (s : State) (n m : Nat) : ((s.laneFill n).lane m).core = (s.lane m).core := by
  unfold State.laneFill
  by_cases h : m = n
  · subst h
    dsimp only
    (repeat' split) <;> simp [Lane.core]
  · dsimp only
    (repeat' split) <;> simp [State.lane_setLane_ne _ _ h] <;> rfl

theorem State.laneTakeBuffer_core (s : State) (n e : Nat) (x : Extent) (m : Nat) :
    ((s.laneTakeBuffer n e x).lane m).core = (s.lane m).core := by
  unfold State.laneTakeBuffer
  rw [State.laneFill_core, State.lane_of_lanes (State.giveBuffer_lanes ..)]

theorem State.giveLane_core (s : State) (n : Nat) (k : ClaimKind) (m : Nat) :
    ((s.giveLane n k).lane m).core = (s.lane m).core := by
  unfold State.giveLane
  (repeat' split)
  · exact State.unhold_core ..
  · rw [State.laneTakeBuffer_core, State.unhold_core]
  · rfl
  · rw [State.lane_of_lanes (State.appendExtentBlock_lanes ..), State.unhold_core]

theorem State.giveRun_lanes (s : State) (slot : Nat) (r : Role) (k : ClaimKind) : (s.giveRun slot r k).lanes = s.lanes := by
  unfold State.giveRun
  (repeat' split) <;> simp

theorem State.grant_core (s : State) (c : Claim) (m : Nat) : ((s.grant c).lane m).core = (s.lane m).core := by
  have e : (s.withdrawClaim c.who).lane m = s.lane m := State.lane_of_lanes (by simp) m
  unfold State.grant
  dsimp only
  (repeat' split)
  · rw [State.lane_of_lanes (State.copyOn_lanes ..), ← e]
  · rw [← e]
  · rw [State.lane_of_lanes (State.askTarget_lanes ..), ← e]
  · rw [State.giveLane_core, ← e]
  · rw [State.lane_of_lanes (State.giveRun_lanes ..), ← e]

theorem State.serveLoop_core (n : Nat) (s : State) (m : Nat) : ((State.serveLoop n s).lane m).core = (s.lane m).core := by
  induction n generalizing s with
  | zero => rfl
  | succ n ih =>
    unfold State.serveLoop
    split
    · rfl
    · rw [ih, State.grant_core]

/-- Copies that go on touch neither the lanes nor what stands above the store (R134). -/
theorem State.resumeCopies_above (s : State) : s.resumeCopies.above = s.above :=
  foldl_keeps State.above _ (fun q r => by split <;> simp) _ _

theorem State.resumeCopies_lanes (s : State) : s.resumeCopies.lanes = s.lanes :=
  State.lanes_of_above (State.resumeCopies_above s)

/-- Overruns that end touch neither the lanes nor what stands above the store (R62). -/
theorem State.endOverruns_above (s : State) (before : List Claim) : (s.endOverruns before).above = s.above :=
  foldl_keeps State.above _ (fun q c => by split <;> simp) _ _

theorem State.endOverruns_lanes (s : State) (before : List Claim) : (s.endOverruns before).lanes = s.lanes :=
  State.lanes_of_above (State.endOverruns_above s before)

/-- Serving the waiting claims changes of a lane at most what it waits for, its timer and its output. -/
theorem State.serveClaims_core (s : State) (m : Nat) : (s.serveClaims.lane m).core = (s.lane m).core := by
  unfold State.serveClaims
  rw [State.lane_of_lanes (State.resumeCopies_lanes ..), State.lane_of_lanes (State.endOverruns_lanes ..),
    State.serveLoop_core]

@[simp] theorem State.serveClaims_lane_state (s : State) (n : Nat) : (s.serveClaims.lane n).state = (s.lane n).state :=
  Lane.state_of_core (s.serveClaims_core n)
@[simp] theorem State.serveClaims_lane_job (s : State) (n : Nat) : (s.serveClaims.lane n).job = (s.lane n).job :=
  Lane.job_of_core (s.serveClaims_core n)
@[simp] theorem State.serveClaims_lane_chunk (s : State) (n : Nat) : (s.serveClaims.lane n).chunk = (s.lane n).chunk :=
  Lane.chunk_of_core (s.serveClaims_core n)
@[simp] theorem State.serveClaims_lane_testChunk (s : State) (n : Nat) :
    (s.serveClaims.lane n).testChunk = (s.lane n).testChunk :=
  Lane.testChunk_of_core (s.serveClaims_core n)
@[simp] theorem State.serveClaims_lane_testCheck (s : State) (n : Nat) :
    (s.serveClaims.lane n).testCheck = (s.lane n).testCheck :=
  Lane.testCheck_of_core (s.serveClaims_core n)
@[simp] theorem State.serveClaims_lane_fault (s : State) (n : Nat) : (s.serveClaims.lane n).fault = (s.lane n).fault :=
  Lane.fault_of_core (s.serveClaims_core n)
@[simp] theorem State.serveClaims_lane_received (s : State) (n : Nat) :
    (s.serveClaims.lane n).received = (s.lane n).received :=
  Lane.received_of_core (s.serveClaims_core n)

/-- No copy goes on where none can (R134). -/
theorem State.resumeCopies_none {s : State} (h : ∀ r ∈ s.stc.relocations, s.canCopy r = false) : s.resumeCopies = s := by
  have e : ∀ l : List Relocation, (∀ r ∈ l, s.canCopy r = false) →
      l.foldl (fun q r => if q.canCopy r then q.copyOn r.owner 8 else q) s = s := by
    intro l
    induction l with
    | nil => intro _; rfl
    | cons a t ih =>
      intro hl
      rw [List.foldl_cons, hl a (by simp)]
      exact ih fun r hr => hl r (by simp [hr])
  exact e _ h

/-- With no claim waiting the claims are not served (R129). -/
theorem State.serveLoop_nil {s : State} (h : s.stc.claims = []) (n : Nat) : State.serveLoop n s = s := by
  have e : claimOrder [] = [] := rfl
  cases n with
  | zero => rfl
  | succ n => rw [State.serveLoop.eq_2, h, e]; rfl

/-- With no claim waiting and no copy to go on there is nothing to serve (R129, R134). -/
theorem State.serveClaims_nil {s : State} (h : s.atRest) : s.serveClaims = s := by
  unfold State.serveClaims State.endOverruns
  rw [State.serveLoop_nil h.1, h.1]
  exact State.resumeCopies_none h.2

/-! ### A lane's timer under grants -/

theorem State.unhold_running (s : State) (n m : Nat) : ((s.unhold n).lane m).sameRun (s.lane m) := by
  intro t h
  unfold State.unhold
  by_cases e : m = n
  · subst e
    simp [h]
  · rwa [State.lane_setLane_ne _ _ e]

theorem State.laneFill_timer (s : State) (n m : Nat) : ((s.laneFill n).lane m).timer = (s.lane m).timer := by
  unfold State.laneFill
  by_cases h : m = n
  · subst h
    dsimp only
    (repeat' split) <;> simp
  · dsimp only
    (repeat' split) <;> simp [State.lane_setLane_ne _ _ h] <;> rfl

theorem State.laneTakeBuffer_timer (s : State) (n e : Nat) (x : Extent) (m : Nat) :
    ((s.laneTakeBuffer n e x).lane m).timer = (s.lane m).timer := by
  unfold State.laneTakeBuffer
  rw [State.laneFill_timer, State.lane_of_lanes (State.giveBuffer_lanes ..)]

theorem State.giveLane_running (s : State) (n : Nat) (k : ClaimKind) (m : Nat) :
    ((s.giveLane n k).lane m).sameRun (s.lane m) := by
  intro t h
  unfold State.giveLane
  (repeat' split)
  · exact State.unhold_running s n m t h
  · rw [State.laneTakeBuffer_timer]
    exact State.unhold_running s n m t h
  · exact h
  · rw [State.lane_of_lanes (State.appendExtentBlock_lanes ..)]
    exact State.unhold_running s n m t h

theorem State.grant_running (s : State) (c : Claim) (m : Nat) : ((s.grant c).lane m).sameRun (s.lane m) := by
  intro t h
  have e : ∀ who, (s.withdrawClaim who).lane m = s.lane m := fun who => State.lane_of_lanes (by simp) m
  unfold State.grant
  dsimp only
  (repeat' split)
  · rwa [State.lane_of_lanes (State.copyOn_lanes ..), e]
  · rwa [e]
  · rwa [State.lane_of_lanes (State.askTarget_lanes ..), e]
  · exact State.giveLane_running _ _ _ _ t (by rwa [e])
  · rwa [State.lane_of_lanes (State.giveRun_lanes ..), e]

theorem State.serveLoop_running (n : Nat) (s : State) (m : Nat) :
    ((State.serveLoop n s).lane m).sameRun (s.lane m) := by
  induction n generalizing s with
  | zero => exact fun _ h => h
  | succ n ih =>
    unfold State.serveLoop
    split
    · exact fun _ h => h
    · exact fun t h => ih _ t (State.grant_running s _ m t h)

/-- A running timer of a lane is not touched by serving the waiting claims (R94). -/
theorem State.serveClaims_running {s : State} {m t : Nat} (h : (s.lane m).timer = .running t) :
    (s.serveClaims.lane m).timer = .running t := by
  unfold State.serveClaims
  rw [State.lane_of_lanes (State.resumeCopies_lanes ..), State.lane_of_lanes (State.endOverruns_lanes ..)]
  exact State.serveLoop_running _ s m t h

/-! ### Which lanes the JDP touches -/

theorem State.createJob_lanes (s : State) (j : Job) : (s.createJob j).lanes = s.lanes := by
  unfold State.createJob
  split <;> rfl
theorem State.freeJob_lanes (s : State) (k : Nat) : (s.freeJob k).lanes = s.lanes := rfl
theorem State.returnJob_lanes (s : State) (k : Nat) (j : Job) : (s.returnJob k j).lanes = s.lanes := by
  unfold State.returnJob
  split <;> rfl
theorem State.failJob_lanes (s : State) (k : Nat) (j : Job) (reason : FailReason) :
    (s.failJob k j reason).lanes = s.lanes := by
  unfold State.failJob
  dsimp only
  split <;> simp [State.freeJob_lanes]
theorem State.finishJob_lanes (s : State) (k : Nat) (j : Job) (e : Nat) : (s.finishJob k j e).lanes = s.lanes := by
  unfold State.finishJob
  simp [State.freeJob_lanes]
theorem State.evalLaneFailed_lanes (s : State) : s.evalLaneFailed.lanes = s.lanes := State.level_lanes ..

theorem State.overtake_ne (s : State) {n m : Nat} (h : m ≠ n) : (s.overtake n).lane m = s.lane m := by
  unfold State.overtake
  dsimp only
  rw [State.lane_setLane_ne _ _ h]
  apply State.lane_of_lanes
  split <;> simp [State.clearYield]

theorem State.laneWithout_ne (s : State) {n m : Nat} (st : LaneState) (h : m ≠ n) :
    (s.laneWithout n st).lane m = s.lane m := by
  unfold State.laneWithout
  dsimp only
  split
  · rw [State.lane_setLane_ne _ _ h]
  · rw [State.lane_of_lanes (State.laneEvent_lanes ..), State.lane_setLane_ne _ _ h]

/-- A lane that is left without a job. -/
theorem State.laneWithout_lane (s : State) (n : Nat) (st : LaneState) :
    (s.laneWithout n st).lane n = { s.lane n with
      state := st, job := none, held := .none, timer := .stopped, positions := PerRole.all none, output := [],
      reads := PerRole.all none, received := [] } := by
  unfold State.laneWithout
  dsimp only
  split
  · exact State.lane_setLane_same ..
  · rw [State.lane_of_lanes (State.laneEvent_lanes ..), State.lane_setLane_same]

theorem State.failLaneJob_ne (s : State) {n m : Nat} (reason : FailReason) (h : m ≠ n) :
    (s.failLaneJob n reason).lane m = s.lane m := by
  unfold State.failLaneJob
  split
  · rw [State.laneWithout_ne _ _ h, State.lane_of_lanes (State.failJob_lanes ..), State.overtake_ne _ h]
  · rfl

theorem State.returnLaneJob_ne (s : State) {n m : Nat} (st : LaneState) (h : m ≠ n) :
    (s.returnLaneJob n st).lane m = s.lane m := by
  unfold State.returnLaneJob
  split
  · rw [State.laneWithout_ne _ _ h, State.lane_of_lanes (State.returnJob_lanes ..), State.overtake_ne _ h]
  · rfl

theorem State.startChunk_ne (s : State) {n m : Nat} (j : Job) (k : Nat) (p : PerRole (Option Nat)) (h : m ≠ n) :
    (s.startChunk n j k p).lane m = s.lane m := State.lane_setLane_ne _ _ h

theorem State.beginJob_ne (s : State) {n m : Nat} (j : Job) (h : m ≠ n) : (s.beginJob n j).lane m = s.lane m := by
  unfold State.beginJob
  dsimp only
  split
  · exact State.startChunk_ne _ _ _ _ h
  · exact State.lane_setLane_ne _ _ h

theorem State.handOver_ne (s : State) {n m : Nat} (k : Nat) (j : Job) (h : m ≠ n) :
    (s.handOver n k j).1.lane m = s.lane m := by
  unfold State.handOver
  dsimp only
  split <;>
    simp only [State.beginJob_ne _ _ h, State.lane_setLane_ne _ _ h, State.lane_of_lanes (State.laneEvent_lanes ..)] <;>
    rfl

theorem State.offerJob_ne (s : State) {n m : Nat} (k : Nat) (h : m ≠ n) : (s.offerJob n k).1.lane m = s.lane m := by
  unfold State.offerJob
  (repeat' split)
  · rfl
  · exact State.lane_of_lanes (State.finishJob_lanes ..) m
  · exact State.handOver_ne _ _ _ h
  · rfl
  · rfl
  · exact State.lane_of_lanes (State.finishJob_lanes ..) m
  · dsimp only
    rw [State.handOver_ne _ _ _ h]
    rfl

/-- A dispatch pass touches no lane that is not IDLE (R77). -/
theorem State.dispatchLoop_lane (fuel : Nat) (s : State) (m : Nat) (h : (s.lane m).state ≠ .idle) :
    (State.dispatchLoop fuel s).lane m = s.lane m := by
  induction fuel generalizing s with
  | zero => rfl
  | succ fuel ih =>
    unfold State.dispatchLoop
    split
    · rfl
    · rename_i n hn
      have hi : (s.lane n).state = .idle := by simpa using List.find?_some hn
      have hm : m ≠ n := fun e => h (e ▸ hi)
      split
      · rfl
      · dsimp only
        split
        · exact State.offerJob_ne _ _ hm
        · rw [ih _ (by rwa [State.offerJob_ne _ _ hm]), State.offerJob_ne _ _ hm]

theorem State.withdrawYields_lanes (n : Nat) (s : State) : (State.withdrawYields n s).lanes = s.lanes := by
  induction n generalizing s with
  | zero => rfl
  | succ n ih =>
    unfold State.withdrawYields
    dsimp only
    (repeat' split) <;> simp [ih]

theorem State.setYields_lanes (n : Nat) (s : State) : (State.setYields n s).lanes = s.lanes := by
  induction n generalizing s with
  | zero => rfl
  | succ n ih =>
    unfold State.setYields
    dsimp only
    (repeat' split) <;> simp [ih]

/-- The JDP's pass and yields touch no lane that is not IDLE (R77, R81). -/
theorem State.settle_lane (s : State) (m : Nat) (h : (s.lane m).state ≠ .idle) : s.settle.lane m = s.lane m := by
  unfold State.settle
  rw [State.lane_of_lanes (State.setYields_lanes ..), State.lane_of_lanes (State.withdrawYields_lanes ..),
    State.dispatchLoop_lane _ _ _ h]

/-- With no lane IDLE a dispatch pass does nothing (R77). -/
theorem State.dispatchLoop_busy (fuel : Nat) (s : State)
    (h : laneNumbers.find? (fun n => (s.lane n).state == .idle) = none) : State.dispatchLoop fuel s = s := by
  cases fuel with
  | zero => rfl
  | succ fuel => rw [State.dispatchLoop.eq_2, h]

/-- With both job lists empty a dispatch pass does nothing (R77). -/
theorem State.dispatchLoop_empty (fuel : Nat) (s : State) (h1 : s.jdp.live = []) (h2 : s.jdp.backlog = []) :
    State.dispatchLoop fuel s = s := by
  have e : s.candidate = none := by simp [State.candidate, h1, h2]
  cases fuel with
  | zero => rfl
  | succ fuel =>
    rw [State.dispatchLoop.eq_2]
    split
    · rfl
    · rw [e]

/-- Withdrawing yields writes the yields alone. -/
theorem State.withdrawYields_eq (n : Nat) (s : State) :
    ∃ y, State.withdrawYields n s = { s with jdp := { s.jdp with yields := y } } := by
  induction n generalizing s with
  | zero => exact ⟨_, rfl⟩
  | succ n ih =>
    unfold State.withdrawYields
    dsimp only
    (repeat' split)
    · exact ⟨_, rfl⟩
    · obtain ⟨y, hy⟩ := ih { s with jdp := { s.jdp with yields := s.jdp.yields.dropLast } }
      exact ⟨y, hy⟩
    · exact ⟨_, rfl⟩

/-- Setting yields writes the yields alone. -/
theorem State.setYields_eq (n : Nat) (s : State) :
    ∃ y, State.setYields n s = { s with jdp := { s.jdp with yields := y } } := by
  induction n generalizing s with
  | zero => exact ⟨_, rfl⟩
  | succ n ih =>
    unfold State.setYields
    dsimp only
    (repeat' split)
    · exact ⟨_, rfl⟩
    · rename_i m _
      obtain ⟨y, hy⟩ := ih { s with jdp := { s.jdp with yields := s.jdp.yields ++ [m] } }
      exact ⟨y, hy⟩
    · exact ⟨_, rfl⟩

/-- Where the dispatch pass does nothing, the JDP writes the yields alone. -/
theorem State.settle_eq (s : State)
    (h : State.dispatchLoop (s.jdp.live.length + s.jdp.backlog.length + 1) s = s) :
    ∃ y, s.settle = { s with jdp := { s.jdp with yields := y } } := by
  unfold State.settle
  rw [h]
  obtain ⟨y, hy⟩ := State.withdrawYields_eq 13 s
  dsimp only
  rw [hy]
  obtain ⟨z, hz⟩ := State.setYields_eq 12 { s with jdp := { s.jdp with yields := y } }
  exact ⟨z, by rw [hz]⟩

/-! ### The end of a step that moves lanes -/

theorem State.evalLaneFailed_lane (s : State) (n : Nat) : s.evalLaneFailed.lane n = s.lane n :=
  State.lane_of_lanes (State.evalLaneFailed_lanes s) n

theorem State.evalLaneFailed_jdp (s : State) : s.evalLaneFailed.jdp = s.jdp := State.level_jdp ..

/-- What ends a step changes of a lane that is not IDLE at most what it waits for, its timer and its output. -/
theorem State.finish_core (s : State) (n : Nat) (h : (s.lane n).state ≠ .idle) :
    (s.finish.lane n).core = (s.lane n).core := by
  unfold State.finish
  rw [State.serveClaims_core, State.settle_lane _ _ (by rwa [State.evalLaneFailed_lane]), State.evalLaneFailed_lane]

theorem State.finish_state {s : State} {n : Nat} (h : (s.lane n).state ≠ .idle) :
    (s.finish.lane n).state = (s.lane n).state := Lane.state_of_core (s.finish_core n h)
theorem State.finish_job {s : State} {n : Nat} (h : (s.lane n).state ≠ .idle) :
    (s.finish.lane n).job = (s.lane n).job := Lane.job_of_core (s.finish_core n h)
theorem State.finish_fault {s : State} {n : Nat} (h : (s.lane n).state ≠ .idle) :
    (s.finish.lane n).fault = (s.lane n).fault := Lane.fault_of_core (s.finish_core n h)
theorem State.finish_testChunk {s : State} {n : Nat} (h : (s.lane n).state ≠ .idle) :
    (s.finish.lane n).testChunk = (s.lane n).testChunk := Lane.testChunk_of_core (s.finish_core n h)
theorem State.finish_running {s : State} {n t : Nat} (h : (s.lane n).state ≠ .idle)
    (ht : (s.lane n).timer = .running t) : (s.finish.lane n).timer = .running t := by
  unfold State.finish
  apply State.serveClaims_running
  rwa [State.settle_lane _ _ (by rwa [State.evalLaneFailed_lane]), State.evalLaneFailed_lane]

/-- No lane is IDLE. -/
theorem State.find_of_noIdle {s : State} (h : s.anyIdle = false) :
    laneNumbers.find? (fun n => (s.lane n).state == .idle) = none := by
  rw [List.find?_eq_none]
  simp only [State.anyIdle, List.any_eq_false] at h
  exact h

theorem State.anyIdle_evalLaneFailed (s : State) : s.evalLaneFailed.anyIdle = s.anyIdle := by
  unfold State.anyIdle
  simp only [State.evalLaneFailed_lane]

/-- With no lane IDLE the end of a step changes of the JDP the yields alone. -/
theorem State.finish_jdp_of_noIdle {s : State} (h : s.anyIdle = false) :
    ∃ y, s.finish.jdp = { s.jdp with yields := y } := by
  unfold State.finish
  rw [State.serveClaims_jdp]
  have h2 : s.evalLaneFailed.anyIdle = false := by rw [State.anyIdle_evalLaneFailed, h]
  obtain ⟨y, hy⟩ := State.settle_eq s.evalLaneFailed (State.dispatchLoop_busy _ _ (State.find_of_noIdle h2))
  refine ⟨y, ?_⟩
  rw [hy]
  dsimp only
  rw [State.evalLaneFailed_jdp]

/-- With both job lists empty the end of a step changes of the JDP the yields alone, and of each lane at most what it
waits for, its timer and its output. -/
theorem State.finish_of_empty {s : State} (h1 : s.jdp.live = []) (h2 : s.jdp.backlog = []) :
    (∃ y, s.finish.jdp = { s.jdp with yields := y }) ∧ ∀ n, (s.finish.lane n).core = (s.lane n).core := by
  obtain ⟨y, hy⟩ := State.settle_eq s.evalLaneFailed
    (State.dispatchLoop_empty _ _ (by rw [State.evalLaneFailed_jdp, h1]) (by rw [State.evalLaneFailed_jdp, h2]))
  refine ⟨⟨y, ?_⟩, fun n => ?_⟩
  · unfold State.finish
    rw [State.serveClaims_jdp, hy]
    dsimp only
    rw [State.evalLaneFailed_jdp]
  · unfold State.finish
    rw [State.serveClaims_core, hy]
    show (s.evalLaneFailed.lane n).core = _
    rw [State.evalLaneFailed_lane]

/-! ### A lane lets its job go -/

theorem State.overtake_jdp (s : State) (n : Nat) :
    (s.overtake n).jdp = { s.jdp with yields := s.jdp.yields.filter (· != n) } := by
  unfold State.overtake
  dsimp only [State.clearYield, State.setLane]
  split <;> simp

theorem State.overtake_lane (s : State) (n : Nat) :
    (s.overtake n).lane n = { s.lane n with
      held := .none, timer := .stopped, output := [], reads := PerRole.all none, received := [] } := by
  unfold State.overtake
  dsimp only
  rw [State.lane_setLane_same, State.lane_of_lanes (t := State.clearYield _ n) (s := s)]
  show _ = _
  split <;> simp [State.clearYield]

theorem State.discardUncommitted_sent (s : State) (n : Nat) : (s.discardUncommitted n).sent = s.sent := by
  unfold State.discardUncommitted
  refine foldl_keeps State.sent _ (fun q e => ?_) _ _
  split <;> rfl

theorem State.overtake_sent (s : State) (n : Nat) : (s.overtake n).sent = s.sent := by
  unfold State.overtake
  dsimp only [State.clearYield, State.setLane, State.withdrawReads, State.mapBanks, State.withdrawClaim]
  split
  · rfl
  · exact State.discardUncommitted_sent ..

theorem State.laneWithout_jdp (s : State) (n : Nat) (st : LaneState) : (s.laneWithout n st).jdp = s.jdp := by
  unfold State.laneWithout
  dsimp only
  split <;> rfl

end Sys2Proof.Machine
end

