-- ==== Sys2Proof/Laws/Events.lean ====
section
/-! SUPPORT. Pending events under the operations of the store and of the channels: whatever every queueing keeps, they
keep; events that stay keep their order (R184). -/

set_option linter.unusedSimpArgs false

namespace Sys2Proof.Machine

/-- What holds of the pending events after every queueing if it held before; a STORE object is queued with a STORE
event. -/
def keptByQueueing (P : List Event → Prop) : Prop :=
  ∀ l o k c, (o = EventObject.store → k = .store) → P l → P (putEvent l o k c)

theorem putEvent_objects (l : List Event) (o : EventObject) (k : EventKind) (c : List Byte) :
    l.map (fun e => e.object) <+: (putEvent l o k c).map (fun e => e.object) := by
  induction l with
  | nil => exact List.nil_prefix
  | cons e t ih =>
    unfold putEvent
    split
    · exact List.prefix_rfl
    · exact (List.prefix_cons_inj _).2 ih

theorem putEvent_mem (l : List Event) (o : EventObject) (k : EventKind) (c : List Byte) :
    ∃ e ∈ putEvent l o k c, e.object = o ∧ e.kind = k := by
  induction l with
  | nil => exact ⟨_, List.mem_singleton.2 rfl, rfl, rfl⟩
  | cons e t ih =>
    unfold putEvent
    split
    · exact ⟨_, List.mem_cons_self, by assumption, rfl⟩
    · obtain ⟨e, he, h⟩ := ih
      exact ⟨e, List.mem_cons_of_mem _ he, h⟩

/-- The order of the pending events (R184). -/
theorem kept_prefix (m : List EventObject) : keptByQueueing (fun l => m <+: l.map (fun e => e.object)) :=
  fun l o k c _ h => h.trans (putEvent_objects l o k c)

/-- A pending STORE event. -/
theorem kept_store : keptByQueueing (fun l => ∃ e ∈ l, e.object = .store ∧ e.kind = .store) := by
  intro l o k c hk ⟨e, he, h1, h2⟩
  induction l with
  | nil => cases he
  | cons a t ih =>
    unfold putEvent
    split
    · rename_i ha
      rcases List.mem_cons.1 he with rfl | he
      · exact ⟨_, List.mem_cons_self, h1, hk (ha ▸ h1)⟩
      · exact ⟨e, List.mem_cons_of_mem _ he, h1, h2⟩
    · rcases List.mem_cons.1 he with rfl | he
      · exact ⟨e, List.mem_cons_self, h1, h2⟩
      · obtain ⟨d, hd, h⟩ := ih he
        exact ⟨d, List.mem_cons_of_mem _ hd, h⟩

variable {P : List Event → Prop} (hP : keptByQueueing P) {s : State}
include hP

theorem State.queueEvent_kept (o : EventObject) (k : EventKind) (c : List Byte) (h : o = .store → k = .store)
    (p : P s.ccu.events) : P (s.queueEvent o k c).ccu.events := hP _ _ _ _ h p

theorem State.queueAlarm_kept (p : P s.ccu.events) : P s.queueAlarm.ccu.events := by
  unfold State.queueAlarm
  split <;> exact State.queueEvent_kept hP _ _ _ nofun p

theorem State.raise_kept (k : Condition) (p : P s.ccu.events) : P (s.raise k).ccu.events := by
  unfold State.raise
  split
  · exact p
  · exact State.queueAlarm_kept hP p

theorem State.level_kept (k : Condition) (b : Bool) (p : P s.ccu.events) : P (s.level k b).ccu.events := by
  unfold State.level
  split
  · exact State.raise_kept hP k p
  · exact p

theorem State.storeEvent_kept (p : P s.ccu.events) : P s.storeEvent.ccu.events :=
  State.queueEvent_kept hP _ _ _ (fun _ => rfl) p

theorem State.evalLevels_kept (p : P s.ccu.events) : P s.evalLevels.ccu.events := by
  have h := State.level_kept hP .storeLow (s.stc.ready && decide (s.freeBlocks < s.stc.lowMark))
    (State.level_kept hP .storeExhausted (s.stc.ready && s.freeBlocks == 0) p)
  unfold State.evalLevels
  dsimp only
  split
  · exact h
  · exact State.storeEvent_kept hP h

theorem State.badlistFull_kept (p : P s.ccu.events) : P s.badlistFull.ccu.events := by
  unfold State.badlistFull
  split
  · exact p
  · exact State.storeEvent_kept hP (State.raise_kept hP _ p)

omit hP in
theorem State.startProgram_kept (b : Nat) (x : Bank) (q : ProgramReq) (p : P s.ccu.events) :
    P (s.startProgram b x q).ccu.events := by
  unfold State.startProgram
  dsimp only
  split <;> exact p

theorem State.grantCopy_kept (b : Nat) (x : Bank) (l : List CopyReq) (p : P s.ccu.events) :
    P (s.grantCopy b x l).1.ccu.events := by
  induction l generalizing s with
  | nil => exact p
  | cons a t ih =>
    cases a with
    | read r => exact p
    | program q => exact State.startProgram_kept _ _ _ p
    | append g =>
      unfold State.grantCopy
      split
      · exact ih (State.badlistFull_kept hP p)
      · exact p

omit hP in
theorem State.grantErase_kept (b : Nat) (p : P s.ccu.events) : P (s.grantErase b).ccu.events := by
  unfold State.grantErase
  dsimp only
  (repeat' split) <;> exact p

theorem State.arbitrate_kept (b : Nat) (p : P s.ccu.events) : P (s.arbitrate b).ccu.events := by
  unfold State.arbitrate
  dsimp only
  (repeat' split)
  · exact p
  · exact State.startProgram_kept _ _ _ p
  · exact p
  · exact p
  · exact State.startProgram_kept _ _ _ p
  · exact State.grantCopy_kept hP _ _ _ p
  · exact State.grantErase_kept _ (State.grantCopy_kept hP _ _ _ p)

theorem State.afterJoin_kept (b : Nat) (p : P s.ccu.events) : P (s.afterJoin b).ccu.events := by
  unfold State.afterJoin
  dsimp only
  (repeat' split)
  · exact p
  · exact State.arbitrate_kept hP _ p
  · exact State.arbitrate_kept hP _ p

theorem State.joinDeliveryRead_kept (r : ReadReq) (p : P s.ccu.events) : P (s.joinDeliveryRead r).ccu.events :=
  State.afterJoin_kept hP _ p

/-! ### Channels -/

theorem State.requestPage_kept (c : Nat) (p : P s.ccu.events) : P (s.requestPage c).ccu.events := by
  unfold State.requestPage
  dsimp only
  (repeat' split)
  · exact p
  · exact p
  · exact p
  · exact p
  · exact State.joinDeliveryRead_kept hP _ p

theorem State.setChannelState_kept (c : Nat) (x : Channel) (st : ChannelState) (p : P s.ccu.events) :
    P (s.setChannelState c x st).ccu.events := by
  unfold State.setChannelState
  dsimp only
  split
  · exact p
  · exact State.queueEvent_kept hP _ _ _ nofun p

theorem State.channelIdle_kept (c : Nat) (e : LastEnding) (p : P s.ccu.events) : P (s.channelIdle c e).ccu.events :=
  State.queueEvent_kept hP _ _ _ nofun p

theorem State.beginSegment_kept (c n : Nat) (p : P s.ccu.events) : P (s.beginSegment c n).ccu.events := by
  unfold State.beginSegment
  dsimp only
  (repeat' split)
  · exact p
  · exact p
  · exact State.requestPage_kept hP _ (State.requestPage_kept hP _ (State.setChannelState_kept hP _ _ _ p))
  all_goals exact State.setChannelState_kept hP _ _ _ p

theorem State.finishSegment_kept (c : Nat) (p : P s.ccu.events) : P (s.finishSegment c).ccu.events := by
  unfold State.finishSegment
  dsimp only
  (repeat' split)
  · exact State.channelIdle_kept hP _ _ p
  · exact State.channelIdle_kept hP _ _ p
  · exact State.setChannelState_kept hP _ _ _ p
  · exact State.beginSegment_kept hP _ _ p
  · exact p

theorem State.itemDone_kept (c : Nat) (p : P s.ccu.events) : P (s.itemDone c).ccu.events := by
  unfold State.itemDone
  dsimp only
  (repeat' split)
  · exact State.finishSegment_kept hP _ p
  · exact p
  · exact p
  · exact p
  · exact p
  · exact State.finishSegment_kept hP _ p
  · exact State.channelIdle_kept hP _ _ p
  · exact State.channelIdle_kept hP _ _ p
  · exact p

theorem State.placeBody_kept (c : Nat) (bs : List Byte) (p : P s.ccu.events) : P (s.placeBody c bs).ccu.events := by
  unfold State.placeBody
  dsimp only
  (repeat' split)
  · exact State.itemDone_kept hP _ (State.requestPage_kept hP _ p)
  · exact State.itemDone_kept hP _ p
  · exact State.requestPage_kept hP _ p
  · exact p

theorem State.placeItem_kept (c room : Nat) (p : P s.ccu.events) : P (s.placeItem c room).ccu.events := by
  unfold State.placeItem
  dsimp only
  split
  · exact State.itemDone_kept hP _ p
  · exact p

theorem State.fillLoop_kept (c fuel : Nat) (acc : List Byte) (p : P s.ccu.events) :
    P (State.fillLoop c fuel s acc).1.ccu.events := by
  induction fuel generalizing s acc with
  | zero => exact p
  | succ n ih =>
    unfold State.fillLoop
    dsimp only
    (repeat' split)
    · exact p
    · exact p
    · exact p
    · exact ih _ (State.placeBody_kept hP _ _ p)
    · exact ih _ (State.placeItem_kept hP _ _ p)

/-- The payload cells of a return frame (R157). -/
theorem State.returnCells_kept (m : Table ReturnEntry) (l : List Nat) (p : P s.ccu.events) :
    P (State.returnCells m l s).1.ccu.events := by
  induction l generalizing s with
  | nil => exact p
  | cons a t ih =>
    unfold State.returnCells
    refine ih ?_
    unfold State.returnCell
    split
    · exact p
    · exact State.fillLoop_kept hP _ _ _ p

end Sys2Proof.Machine
end

