-- ==== Sys2Proof/Laws/Directive.lean ====
section
/-! SUPPORT. How every directive is taken and answered: arriving with a reply place free, arriving with none, and
taken by its owner after the CCU handed it over. -/

namespace Sys2Proof.Machine

/-- The state an owner acts on: the arm is DISARMED and the directive's reply place is reserved (R179, R181). -/
def State.taken (s : State) (code : Nat) (tag : Word16) : State := s.disarm.reserve code tag

/-- A reply on a state that an owner made of the taken one fills the place last reserved. -/
theorem State.taken_reply (s : State) (code : Nat) (tag : Word16) (result : ReplyCode) (fields : List Byte) :
    (s.taken code tag).reply code tag result fields = s.answered code tag result fields := rfl

/-- A directive that arrives with a reply place free (R179). -/
theorem State.directive_of_accepts {s : State} {c : Instr} (h : s.accepts c) (code : Nat) (tag : Word16) (ok : Bool)
    (act : State → Answered) :
    s.directive c code tag ok act
      = if ok then State.answer code tag (act (s.taken code tag)) else s.answered code tag .format [] := by
  have h1 : s.sent.contains c = false := by simpa using h.1
  have h2 : ¬ 4 ≤ s.disarm.placesInUse := by
    have : s.disarm.placesInUse = s.placesInUse := rfl
    have := h.2
    omega
  rw [State.directive, h1]
  simp only [Bool.false_eq_true, if_false, if_neg h2]
  rfl

/-- A directive that finds four reply places in use (R182). -/
theorem State.directive_full {s : State} {c : Instr} (h1 : c ∉ s.sent) (h2 : 4 ≤ s.placesInUse) (code : Nat)
    (tag : Word16) (ok : Bool) (act : State → Answered) : s.directive c code tag ok act = s.disarm.capDiscard := by
  have h1' : s.sent.contains c = false := by simpa using h1
  have h2' : 4 ≤ s.disarm.placesInUse := h2
  rw [State.directive, h1']
  simp only [Bool.false_eq_true, if_false, if_pos h2']

/-- A directive under way, taken by its owner (R179 step 7). -/
theorem State.directive_of_mem {s : State} {c : Instr} (h : c ∈ s.sent) (code : Nat) (tag : Word16) (ok : Bool)
    (act : State → Answered) : s.directive c code tag ok act = State.answer code tag (act (s.received c)) := by
  have h1 : s.sent.contains c = true := by simpa using h
  rw [State.directive, h1]
  rfl

/-- An answer that leaves the state as it was taken. -/
theorem State.answer_taken (s : State) (code : Nat) (tag : Word16) (result : ReplyCode) (fields : List Byte) :
    State.answer code tag (s.taken code tag, result, fields) = s.answered code tag result fields := rfl

/-- A refusal that leaves the state as it was taken. -/
theorem State.answer_refuse (s : State) (code : Nat) (tag : Word16) (result : ReplyCode) :
    State.answer code tag ((s.taken code tag).refuse result) = s.answered code tag result [] := rfl

/-- An answer keeps the registers of `State.still` up to the reply when the act keeps them. -/
theorem State.answer_still {s t : State} {code : Nat} {tag : Word16} (h : t.still = (s.taken code tag).still)
    (result : ReplyCode) (fields : List Byte) :
    (State.answer code tag (t, result, fields)).still = (s.answered code tag result fields).still := by
  have e : (t.reply code tag result fields).still
      = { t.still with
          reserved := t.still.reserved.erase ⟨code, tag⟩, replies := t.still.replies ++ [⟨code, tag, result, fields⟩] } :=
    rfl
  show (t.reply code tag result fields).still = _
  rw [e, h]
  rfl

@[simp] theorem State.taken_sent (s : State) (code : Nat) (tag : Word16) : (s.taken code tag).sent = s.sent := rfl
@[simp] theorem State.taken_trr (s : State) (code : Nat) (tag : Word16) : (s.taken code tag).trr = s.trr := rfl
@[simp] theorem State.taken_trt (s : State) (code : Nat) (tag : Word16) : (s.taken code tag).trt = s.trt := rfl
@[simp] theorem State.taken_iku (s : State) (code : Nat) (tag : Word16) : (s.taken code tag).iku = s.iku := rfl
@[simp] theorem State.taken_sgc (s : State) (code : Nat) (tag : Word16) : (s.taken code tag).sgc = s.sgc := rfl
@[simp] theorem State.taken_jdp (s : State) (code : Nat) (tag : Word16) : (s.taken code tag).jdp = s.jdp := rfl
@[simp] theorem State.taken_lanes (s : State) (code : Nat) (tag : Word16) : (s.taken code tag).lanes = s.lanes := rfl
@[simp] theorem State.taken_groups (s : State) (code : Nat) (tag : Word16) : (s.taken code tag).groups = s.groups := rfl
@[simp] theorem State.taken_stc (s : State) (code : Nat) (tag : Word16) : (s.taken code tag).stc = s.stc := rfl
@[simp] theorem State.taken_mem (s : State) (code : Nat) (tag : Word16) : (s.taken code tag).mem = s.mem := rfl
@[simp] theorem State.taken_channels (s : State) (code : Nat) (tag : Word16) : (s.taken code tag).channels = s.channels := rfl
@[simp] theorem State.taken_conditions (s : State) (code : Nat) (tag : Word16) :
    (s.taken code tag).ccu.conditions = s.ccu.conditions := rfl
@[simp] theorem State.taken_lane (s : State) (code : Nat) (tag : Word16) (n : Nat) :
    (s.taken code tag).lane n = s.lane n := rfl
@[simp] theorem State.taken_group (s : State) (code : Nat) (tag : Word16) (n : Nat) :
    (s.taken code tag).group n = s.group n := rfl
@[simp] theorem State.taken_channel (s : State) (code : Nat) (tag : Word16) (n : Nat) :
    (s.taken code tag).channel n = s.channel n := rfl
@[simp] theorem State.taken_lecture? (s : State) (code : Nat) (tag : Word16) (n : Nat) :
    (s.taken code tag).lecture? n = s.lecture? n := rfl
@[simp] theorem State.taken_profile? (s : State) (code : Nat) (tag : Word16) (n : Nat) :
    (s.taken code tag).profile? n = s.profile? n := rfl
@[simp] theorem State.taken_job? (s : State) (code : Nat) (tag : Word16) (n : Nat) :
    (s.taken code tag).job? n = s.job? n := rfl

end Sys2Proof.Machine
end

