-- ==== Sys2Proof/Laws/Groups.lean ====
section
/-! SUPPORT. One register of `State.still` at a time, and what switching a lane group does to its four lanes. -/

namespace Sys2Proof.Machine

/-! ### One register at a time -/

theorem State.pending_of_still {s t : State} (h : t.still = s.still) : t.pending = s.pending := congrArg Still.pending h
theorem State.mem_of_still {s t : State} (h : t.still = s.still) : t.mem = s.mem := congrArg Still.mem h
theorem State.trr_of_still {s t : State} (h : t.still = s.still) : t.trr = s.trr := congrArg Still.trr h
theorem State.trt_of_still {s t : State} (h : t.still = s.still) : t.trt = s.trt := congrArg Still.trt h
theorem State.groups_of_still {s t : State} (h : t.still = s.still) : t.groups = s.groups := congrArg Still.groups h
theorem State.group_of_still {s t : State} (h : t.still = s.still) (g : Nat) : t.group g = s.group g := by
  rw [State.group, State.group, State.groups_of_still h]
theorem State.profiles_of_still {s t : State} (h : t.still = s.still) : t.sgc.profiles = s.sgc.profiles :=
  congrArg Still.profiles h
theorem State.preemption_of_still {s t : State} (h : t.still = s.still) : t.jdp.preemption = s.jdp.preemption :=
  congrArg Still.preemption h
theorem State.scrubRemaining_of_still {s t : State} (h : t.still = s.still) :
    t.stc.scrubRemaining = s.stc.scrubRemaining := congrArg Still.scrubRemaining h
theorem State.emptyPlaces_of_still {s t : State} (h : t.still = s.still) : t.stc.emptyPlaces = s.stc.emptyPlaces :=
  congrArg Still.emptyPlaces h
theorem State.spoiled_of_still {s t : State} (h : t.still = s.still) : t.stc.spoiled = s.stc.spoiled :=
  congrArg Still.spoiled h
theorem State.reserved_of_still {s t : State} (h : t.still = s.still) : t.ccu.reserved = s.ccu.reserved :=
  congrArg Still.reserved h
theorem State.replies_of_still {s t : State} (h : t.still = s.still) : t.ccu.replies = s.ccu.replies :=
  congrArg Still.replies h
theorem State.trunkSync_of_still {s t : State} (h : t.still = s.still) :
    t.condition .trunkSync = s.condition .trunkSync := congrArg Still.trunkSync h
theorem State.returnLost_of_still {s t : State} (h : t.still = s.still) :
    t.condition .returnLost = s.condition .returnLost := congrArg Still.returnLost h
theorem State.groupSupply_of_still {s t : State} (h : t.still = s.still) :
    t.condition .groupSupply = s.condition .groupSupply := congrArg Still.groupSupply h
theorem State.directives_of_still {s t : State} (h : t.still = s.still) :
    t.sent.filter Instr.isDirective = s.sent.filter Instr.isDirective := congrArg Still.directives h

/-! ### A step over several lanes -/

theorem mem_groupLanes (g n : Nat) : n ∈ groupLanes g ↔ n / 4 = g := by
  unfold groupLanes
  rw [List.mem_range']
  constructor
  · rintro ⟨i, hi, rfl⟩
    omega
  · intro h
    exact ⟨n % 4, by omega, by omega⟩

/-- A fold of steps, each on its own lane, leaves a lane that none of them is on. -/
theorem foldl_lane_ne {f : State → Nat → State} (hne : ∀ s n m, m ≠ n → (f s n).lane m = s.lane m) (l : List Nat)
    (q : State) (n : Nat) (h : n ∉ l) : (l.foldl f q).lane n = q.lane n := by
  induction l generalizing q with
  | nil => rfl
  | cons b u iu =>
    rw [List.foldl_cons, iu _ (fun e => h (by simp [e])), hne]
    intro e
    exact h (by simp [e])

/-- A fold of steps, each on its own lane, leaves each of those lanes as its own step does. -/
theorem foldl_lane {f : State → Nat → State} {P : Lane → Prop} (hself : ∀ s n, P ((f s n).lane n))
    (hne : ∀ s n m, m ≠ n → (f s n).lane m = s.lane m) (l : List Nat) (s : State) (n : Nat) (h : n ∈ l) :
    P ((l.foldl f s).lane n) := by
  induction l generalizing s with
  | nil => cases h
  | cons a t ih =>
    rw [List.foldl_cons]
    by_cases ht : n ∈ t
    · exact ih _ ht
    · have ha : n = a := by simpa [ht] using h
      subst ha
      rw [foldl_lane_ne hne _ _ _ ht]
      exact hself _ _

/-- A fold of steps that each keep every lane's last fault keeps it. -/
theorem foldl_fault {f : State → Nat → State} (hf : ∀ s n m, ((f s n).lane m).fault = (s.lane m).fault) (l : List Nat)
    (s : State) (m : Nat) : ((l.foldl f s).lane m).fault = (s.lane m).fault := by
  induction l generalizing s with
  | nil => rfl
  | cons a t ih => rw [List.foldl_cons, ih, hf]

theorem State.laneWithout_state (s : State) (n : Nat) (st : LaneState) : ((s.laneWithout n st).lane n).state = st := by
  rw [State.laneWithout_lane]
theorem State.laneWithout_job (s : State) (n : Nat) (st : LaneState) : ((s.laneWithout n st).lane n).job = none := by
  rw [State.laneWithout_lane]
theorem State.laneWithout_fault (s : State) (n : Nat) (st : LaneState) (m : Nat) :
    ((s.laneWithout n st).lane m).fault = (s.lane m).fault := by
  by_cases h : m = n
  · subst h
    rw [State.laneWithout_lane]
  · rw [State.laneWithout_ne _ _ h]

/-! ### Group events -/

theorem State.groupEvent_lanes (s : State) (g : Nat) (b : Bool) : (s.groupEvent g b).lanes = s.lanes := rfl
theorem State.groupEvent_groups (s : State) (g : Nat) (b : Bool) : (s.groupEvent g b).groups = s.groups := rfl
theorem State.groupEvent_jdp (s : State) (g : Nat) (b : Bool) : (s.groupEvent g b).jdp = s.jdp := rfl
theorem State.groupEvent_mem (s : State) (g : Nat) (b : Bool) : (s.groupEvent g b).mem = s.mem := rfl

@[simp] theorem State.group_setGroup_same (s : State) (g : Nat) (x : Group) : (s.setGroup g x).group g = x := by
  simp [State.group]
theorem State.group_setGroup_ne (s : State) {g m : Nat} (x : Group) (h : m ≠ g) :
    (s.setGroup g x).group m = s.group m := by
  simp [State.group, Table.atD_put_ne _ _ _ h]

/-! ### FALLING starts (R110) -/

/-- The lanes of a group made OFF: the first half of the start of FALLING. -/
def State.lanesOff (s : State) (g : Nat) : State :=
  (groupLanes g).foldl (fun q n => (q.clearYield n).laneWithout n .off) s

theorem State.startFalling_eq (s : State) (g : Nat) (b : Bool) :
    s.startFalling g b = ((s.lanesOff g).setGroup g { (s.lanesOff g).group g with
      state := .falling, phase := some .clock, left := 16 }).groupEvent g b := rfl

theorem State.lanesOff_still (s : State) (g : Nat) : (s.lanesOff g).still = s.still :=
  foldl_still _ (fun s n => State.laneWithout_still (s.clearYield n) n .off) _ _

theorem State.lanesOff_ne (s : State) (n m : Nat) (h : m ≠ n) :
    ((s.clearYield n).laneWithout n .off).lane m = s.lane m := State.laneWithout_ne _ _ h

theorem State.lanesOff_state (s : State) {g n : Nat} (h : n / 4 = g) : ((s.lanesOff g).lane n).state = .off :=
  foldl_lane (f := fun q n => (q.clearYield n).laneWithout n .off) (P := fun l => l.state = .off)
    (fun _ _ => State.laneWithout_state ..) State.lanesOff_ne _ _ _ ((mem_groupLanes g n).2 h)

theorem State.lanesOff_job (s : State) {g n : Nat} (h : n / 4 = g) : ((s.lanesOff g).lane n).job = none :=
  foldl_lane (f := fun q n => (q.clearYield n).laneWithout n .off) (P := fun l => l.job = none)
    (fun _ _ => State.laneWithout_job ..) State.lanesOff_ne _ _ _ ((mem_groupLanes g n).2 h)

theorem State.lanesOff_fault (s : State) (g m : Nat) : ((s.lanesOff g).lane m).fault = (s.lane m).fault :=
  foldl_fault (f := fun q n => (q.clearYield n).laneWithout n .off)
    (fun s n m => State.laneWithout_fault (s.clearYield n) n .off m) _ _ _

theorem State.startFalling_lane (s : State) (g : Nat) (b : Bool) (n : Nat) :
    (s.startFalling g b).lane n = (s.lanesOff g).lane n := by
  rw [State.startFalling_eq]
  generalize s.lanesOff g = o
  rfl

theorem State.startFalling_group (s : State) (g : Nat) (b : Bool) :
    (s.startFalling g b).group g = { s.group g with state := .falling, phase := some .clock, left := 16 } := by
  have h : ∀ m, (s.lanesOff g).group m = s.group m := State.group_of_still (s.lanesOff_still g)
  rw [State.startFalling_eq, h]
  generalize s.lanesOff g = o
  show State.group (State.setGroup o g _) g = _
  rw [State.group_setGroup_same]

/-- FALLING leaves the contents of the banks. -/
theorem State.startFalling_mem (s : State) (g : Nat) (b : Bool) : (s.startFalling g b).mem = s.mem := by
  rw [State.startFalling_eq, State.groupEvent_mem, State.setGroup_mem]
  exact State.mem_of_still (s.lanesOff_still g)

/-- What a write of the scratch memories leaves (R109, R110): everything but them. -/
theorem State.setScratch_fault (s : State) (g : Nat) (x : Option (List Byte)) (m : Nat) :
    ((s.setScratch g x).lane m).fault = (s.lane m).fault := by
  unfold State.setScratch
  refine foldl_fault (f := fun q n => q.setLane n { q.lane n with scratch := x }) (fun s n m => ?_) _ _ _
  by_cases h : m = n
  · subst h; rw [State.lane_setLane_same]
  · rw [State.lane_setLane_ne _ _ h]

/-- A write of the scratch memories of a group changes a lane of the group in its scratch memory alone. -/
theorem State.setScratch_lane (s : State) {g n : Nat} (x : Option (List Byte)) (h : n / 4 = g) :
    (s.setScratch g x).lane n = { s.lane n with scratch := x } := by
  have hs : ∀ (l : List Nat) (q : State), n ∈ l →
      (l.foldl (fun q n => q.setLane n { q.lane n with scratch := x }) q).lane n = { q.lane n with scratch := x } := by
    intro l
    induction l with
    | nil => intro _ h; cases h
    | cons a t ih =>
      intro q hm
      rw [List.foldl_cons]
      by_cases e : n = a
      · subst e
        by_cases ht : n ∈ t
        · rw [ih _ ht, State.lane_setLane_same]
        · rw [foldl_lane_ne (f := fun q n => q.setLane n { q.lane n with scratch := x })
            (fun q b m hm => State.lane_setLane_ne _ _ hm) _ _ _ ht, State.lane_setLane_same]
      · rw [ih _ (by simpa [e] using hm), State.lane_setLane_ne _ _ e]
  exact hs _ _ ((mem_groupLanes g n).2 h)

theorem State.setScratch_ne (s : State) {g n : Nat} (x : Option (List Byte)) (h : n / 4 ≠ g) :
    (s.setScratch g x).lane n = s.lane n :=
  foldl_lane_ne (f := fun q n => q.setLane n { q.lane n with scratch := x })
    (fun _ _ _ hm => State.lane_setLane_ne _ _ hm) _ _ _ (fun e => h ((mem_groupLanes g n).1 e))

theorem State.startFalling_replies (s : State) (g : Nat) (b : Bool) :
    (s.startFalling g b).ccu.replies = s.ccu.replies := by
  rw [State.startFalling_eq]
  have h := State.replies_of_still (s.lanesOff_still g)
  generalize s.lanesOff g = o at *
  exact h

end Sys2Proof.Machine
end

