-- ==== Sys2Proof/Laws/JobEnds.lean ====
section
/-! SUPPORT. What an answer keeps, what the end of a step keeps, and how a job ends: its record, its lists and the
condition it raises. -/

namespace Sys2Proof.Machine

/-! ## Answers -/

theorem State.answer_lane (code : Nat) (tag : Word16) (a : Answered) (n : Nat) :
    (State.answer code tag a).lane n = a.1.lane n := rfl
theorem State.answer_group (code : Nat) (tag : Word16) (a : Answered) (g : Nat) :
    (State.answer code tag a).group g = a.1.group g := rfl
theorem State.answer_channel (code : Nat) (tag : Word16) (a : Answered) (c : Nat) :
    (State.answer code tag a).channel c = a.1.channel c := rfl
theorem State.answer_lecture? (code : Nat) (tag : Word16) (a : Answered) (slot : Nat) :
    (State.answer code tag a).lecture? slot = a.1.lecture? slot := rfl
theorem State.answer_job? (code : Nat) (tag : Word16) (a : Answered) (k : Nat) :
    (State.answer code tag a).job? k = a.1.job? k := rfl
theorem State.answer_sgc (code : Nat) (tag : Word16) (a : Answered) : (State.answer code tag a).sgc = a.1.sgc := rfl
theorem State.answer_jdp (code : Nat) (tag : Word16) (a : Answered) : (State.answer code tag a).jdp = a.1.jdp := rfl
theorem State.answer_stc (code : Nat) (tag : Word16) (a : Answered) : (State.answer code tag a).stc = a.1.stc := rfl
theorem State.answer_mem (code : Nat) (tag : Word16) (a : Answered) : (State.answer code tag a).mem = a.1.mem := rfl

/-- An answer adds its reply behind those that wait. -/
theorem State.answer_replies (code : Nat) (tag : Word16) (a : Answered) :
    (State.answer code tag a).ccu.replies = a.1.ccu.replies ++ [⟨code, tag, a.2.1, a.2.2⟩] := rfl

/-- An answer of an act that keeps the registers of `State.still`. -/
theorem State.answer_still_of {s : State} {code : Nat} {tag : Word16} (a : Answered)
    (h : a.1.still = (s.taken code tag).still) :
    (State.answer code tag a).still = (s.answered code tag a.2.1 a.2.2).still :=
  State.answer_still (t := a.1) h a.2.1 a.2.2

/-! ## The end of a step -/

theorem State.finish_replies (s : State) : s.finish.ccu.replies = s.ccu.replies :=
  State.replies_of_still (State.finish_still s)
theorem State.finish_mem (s : State) : s.finish.mem = s.mem := State.mem_of_still (State.finish_still s)
theorem State.finish_group (s : State) (g : Nat) : s.finish.group g = s.group g :=
  State.group_of_still (State.finish_still s) g

/-- A failed lane makes LANE_FAILED active (R107). -/
theorem State.finish_laneFailed {s : State} {n : Nat} (hn : n < 12) (h : (s.lane n).state = .failed) :
    s.finish.condition .laneFailed = true := by
  unfold State.finish
  show (State.serveClaims _).ccu.conditions.laneFailed = true
  rw [State.serveClaims_laneFailed, State.settle_laneFailed]
  show s.evalLaneFailed.condition .laneFailed = true
  unfold State.evalLaneFailed
  rw [State.level_condition_same, List.any_eq_true]
  exact ⟨n, by simp [laneNumbers, hn], by rw [h]; rfl⟩

/-- JOB_FAILED stays active where the dispatch pass hands nothing over. -/
theorem State.finish_jobFailed {s : State} (h : s.condition .jobFailed = true)
    (hd : State.dispatchLoop (s.jdp.live.length + s.jdp.backlog.length + 1) s.evalLaneFailed = s.evalLaneFailed) :
    s.finish.condition .jobFailed = true := by
  unfold State.finish
  obtain ⟨y, hy⟩ := State.settle_eq s.evalLaneFailed (by rw [State.evalLaneFailed_jdp]; exact hd)
  rw [hy]
  show (State.serveClaims _).ccu.conditions.jobFailed = true
  rw [State.serveClaims_jobFailed]
  show s.evalLaneFailed.condition .jobFailed = true
  unfold State.evalLaneFailed
  rw [State.level_condition_ne _ _ (by decide)]
  exact h

/-! ## Lanes without jobs -/

/-- The job a lane holds, from its record. -/
theorem State.laneJob_eq {s : State} {n k : Nat} {j : Job} (hk : (s.lane n).job = some k) (hj : s.job? k = some j) :
    s.laneJob n = some j := by
  simp [State.laneJob, hk, hj]

/-- With no lane IDLE before, and one lane changed to a state that is not IDLE, no lane is IDLE. -/
theorem State.anyIdle_of_one {s t : State} {n : Nat} (hi : s.anyIdle = false) (h1 : (t.lane n).state ≠ .idle)
    (h2 : ∀ m, m ≠ n → t.lane m = s.lane m) : t.anyIdle = false := by
  unfold State.anyIdle at hi ⊢
  rw [List.any_eq_false] at hi ⊢
  intro m hm
  by_cases e : m = n
  · subst e; simpa using h1
  · rw [h2 m e]; exact hi m hm

theorem State.setLane_condition (s : State) (n : Nat) (l : Lane) (k : Condition) :
    (s.setLane n l).condition k = s.condition k := rfl

theorem State.laneWithout_condition (s : State) (n : Nat) (st : LaneState) (k : Condition) :
    (s.laneWithout n st).condition k = s.condition k := by
  unfold State.laneWithout
  dsimp only
  split <;> rfl

/-! ## Output of a lane -/

theorem State.laneWrites_jdp (s : State) (n : Nat) (o : List Byte) : (s.laneWrites n o).jdp = s.jdp := by
  unfold State.laneWrites
  rw [State.laneFill_jdp]
  rfl

theorem State.laneWrites_core (s : State) (n : Nat) (o : List Byte) (m : Nat) :
    ((s.laneWrites n o).lane m).core = (s.lane m).core := by
  unfold State.laneWrites
  rw [State.laneFill_core]
  by_cases h : m = n
  · subst h; rw [State.lane_setLane_same]; rfl
  · rw [State.lane_setLane_ne _ _ h]

/-! ## How a job ends (R75, R80, R85) -/

theorem State.freeJob_job? (s : State) (k : Nat) : (s.freeJob k).job? k = none := by
  unfold State.freeJob
  show Table.at? (Table.del _ _) _ = none
  simp

/-- The JDP after a record has been freed. -/
theorem State.freeJob_jdp (s : State) (k : Nat) :
    (s.freeJob k).jdp = { s.jdp with
      live := s.jdp.live.filter (· != k), backlog := s.jdp.backlog.filter (· != k)
      waits := s.jdp.waits.filter (· != k), jobs := s.jdp.jobs.del k } := rfl

/-- The JDP after a record has been freed, from an equal one. -/
theorem State.sendFree_jdp {s q : State} (h : q.jdp = s.jdp) (m : Instr) (k : Nat) :
    ((q.send m).freeJob k).jdp = { s.jdp with
      live := s.jdp.live.filter (· != k), backlog := s.jdp.backlog.filter (· != k)
      waits := s.jdp.waits.filter (· != k), jobs := s.jdp.jobs.del k } := by
  rw [← h]
  rfl

/-- The JDP after a job has ended DONE. -/
theorem State.finishJob_jdp (s : State) (k : Nat) (j : Job) (e : Nat) :
    (s.finishJob k j e).jdp = { s.jdp with
      live := s.jdp.live.filter (· != k), backlog := s.jdp.backlog.filter (· != k)
      waits := s.jdp.waits.filter (· != k), jobs := s.jdp.jobs.del k } :=
  State.sendFree_jdp (State.closeExtent_jdp ..) _ _

/-- The JDP after a job has ended FAILED. -/
theorem State.failJob_jdp (s : State) (k : Nat) (j : Job) (reason : FailReason) :
    (s.failJob k j reason).jdp = { s.jdp with
      live := s.jdp.live.filter (· != k), backlog := s.jdp.backlog.filter (· != k)
      waits := s.jdp.waits.filter (· != k), jobs := s.jdp.jobs.del k } := by
  unfold State.failJob
  rw [State.raise_jdp]
  apply State.sendFree_jdp
  split
  · rfl
  · exact State.giveUpExtent_jdp ..

/-- A job that ended FAILED has no record. -/
theorem State.failJob_job? (s : State) (k : Nat) (j : Job) (reason : FailReason) : (s.failJob k j reason).job? k = none := by
  unfold State.job?
  rw [State.failJob_jdp]
  simp

/-- A job that ended FAILED raises JOB_FAILED. -/
theorem State.failJob_condition (s : State) (k : Nat) (j : Job) (reason : FailReason) :
    (s.failJob k j reason).condition .jobFailed = true := by
  unfold State.failJob
  exact State.raise_condition_same ..

end Sys2Proof.Machine
end

