-- ==== Sys2Proof/Laws/Arbiter.lean ====
section
/-! SUPPORT. The bank arbiter: which request a bank is granted, that a program once queued stays queued or runs, and that
neither the waiting claims nor the relocations change. -/

namespace Sys2Proof.Machine

@[simp] theorem State.bank_setBank_same (s : State) (b : Nat) (x : Bank) : (s.setBank b x).bank b = x := by
  simp [State.bank, State.setBank]

theorem State.bank_setBank_ne (s : State) {b c : Nat} (x : Bank) (h : c ≠ b) : (s.setBank b x).bank c = s.bank c := by
  simp [State.bank, State.setBank, Table.atD, Table.at?_put_ne _ _ h]

/-! ### Claims and relocations -/

/-- What waits in the store: the claims and the relocations (R129, R134). -/
def State.waits (s : State) : List Claim × List Relocation := (s.stc.claims, s.stc.relocations)

theorem State.atRest_of_waits {s t : State} (h : t.waits = s.waits) (r : s.atRest) : t.atRest := by
  have h1 : t.stc.claims = s.stc.claims := congrArg Prod.fst h
  have h2 : t.stc.relocations = s.stc.relocations := congrArg Prod.snd h
  unfold State.atRest State.canCopy at *
  rw [h1, h2]
  exact r

@[simp] theorem State.raise_stc (s : State) (k : Condition) : (s.raise k).stc = s.stc := by
  unfold State.raise State.queueAlarm
  (repeat' split) <;> rfl

@[simp] theorem State.level_stc (s : State) (k : Condition) (b : Bool) : (s.level k b).stc = s.stc := by
  unfold State.level
  split
  · exact State.raise_stc _ _
  · rfl

@[simp] theorem State.storeEvent_stc (s : State) : s.storeEvent.stc = s.stc := rfl

@[simp] theorem State.badlistFull_stc (s : State) : s.badlistFull.stc = s.stc := by
  unfold State.badlistFull
  split
  · rfl
  · simp

theorem State.evalLevels_waits (s : State) : s.evalLevels.waits = s.waits := by
  unfold State.evalLevels
  dsimp only
  split <;> simp [State.waits]

theorem State.startProgram_waits (s : State) (b : Nat) (x : Bank) (p : ProgramReq) :
    (s.startProgram b x p).waits = s.waits := by
  unfold State.startProgram
  dsimp only
  split <;> rfl

theorem State.grantCopy_waits (s : State) (b : Nat) (x : Bank) (l : List CopyReq) :
    (s.grantCopy b x l).1.waits = s.waits := by
  induction l generalizing s with
  | nil => rfl
  | cons a t ih =>
    cases a with
    | read r => rfl
    | program q => exact State.startProgram_waits ..
    | append g =>
      unfold State.grantCopy
      split
      · rw [ih]
        simp [State.waits]
      · rfl

theorem State.grantErase_waits (s : State) (b : Nat) : (s.grantErase b).waits = s.waits := by
  unfold State.grantErase
  dsimp only
  (repeat' split) <;> rfl

theorem State.arbitrate_waits (s : State) (b : Nat) : (s.arbitrate b).waits = s.waits := by
  unfold State.arbitrate
  dsimp only
  (repeat' split)
  all_goals first
    | rfl
    | exact State.startProgram_waits ..
    | exact State.grantCopy_waits ..
    | exact (State.grantErase_waits ..).trans (State.grantCopy_waits ..)

theorem State.afterJoin_waits (s : State) (b : Nat) : (s.afterJoin b).waits = s.waits := by
  unfold State.afterJoin
  dsimp only
  (repeat' split)
  all_goals first | rfl | exact State.arbitrate_waits ..

/-! ### The grant -/

theorem State.startProgram_bank (s : State) (b : Nat) (x : Bank) (p : ProgramReq) :
    (s.startProgram b x p).bank b = { x with op := some (.program p) } := by
  unfold State.startProgram
  dsimp only
  split <;> exact State.bank_setBank_same ..

/-- A program that starts is its bank's operation, and its buffer is PROGRAMMING. -/
theorem State.startProgram_starts (s : State) (b : Nat) (x : Bank) (p : ProgramReq) :
    let t := s.startProgram b x p
    ((t.bank b).op = some (.program p) ∧ ∀ buf, t.buf? p.buffer = some buf → buf.state = .programming)
      ∧ t.bank b = { x with op := (t.bank b).op } := by
  refine ⟨⟨by rw [State.startProgram_bank], ?_⟩, by rw [State.startProgram_bank]⟩
  unfold State.startProgram
  dsimp only
  split
  · rename_i h
    intro buf hb
    rw [h] at hb
    cases hb
  · intro buf hb
    simp only [State.buf?, State.setBuf, Table.at?_put_same] at hb
    cases hb
    rfl

theorem State.startProgram_condition (s : State) (b : Nat) (x : Bank) (p : ProgramReq) (k : Condition) :
    (s.startProgram b x p).condition k = s.condition k := by
  unfold State.startProgram
  dsimp only
  split <;> rfl

theorem State.grantErase_condition (s : State) (b : Nat) (k : Condition) :
    (s.grantErase b).condition k = s.condition k := by
  unfold State.grantErase
  dsimp only
  (repeat' split) <;> rfl

theorem State.badlistFull_condition (s : State) : s.badlistFull.condition .badlistFull = true := by
  unfold State.badlistFull
  split
  · assumption
  · show (s.raise .badlistFull).condition _ = true
    simp

/-- What the grant of class 5 does: the APPENDs at the head are dropped with BADLIST_FULL where no place is empty; the
request then at the head becomes the bank's operation; with none left nothing is granted (R130, R138). -/
theorem State.grantCopy_grants {s t : State} {b : Nat} {x : Bank} {l left : List CopyReq} {z : Bool}
    (ht : s.grantCopy b x l = (t, z))
    (hl : left = if s.stc.emptyPlaces = [] then l.dropWhile CopyReq.isAppend else l) :
    t.stc.emptyPlaces = s.stc.emptyPlaces ∧ (l ≠ left → t.condition .badlistFull = true)
    ∧ (∀ r rest, left = .read r :: rest → z = true ∧ t.bank b = { x with copy := rest, op := some (.read r true) })
    ∧ (∀ p rest, left = .program p :: rest → z = true ∧ ∃ q : State, t = q.startProgram b { x with copy := rest } p)
    ∧ (∀ g k rest, left = .append g :: rest → s.stc.emptyPlaces.head? = some k →
        z = true ∧ t.bank b = { x with copy := rest, op := some (.append g k) })
    ∧ (left = [] → z = false ∧ t.bank b = { x with copy := [] })
    ∧ (s.condition .badlistFull = true → t.condition .badlistFull = true) := by
  induction l generalizing s with
  | nil =>
    cases ht
    obtain rfl : left = [] := by
      rw [hl]
      split <;> rfl
    exact ⟨rfl, fun h => absurd rfl h, nofun, nofun, nofun, fun _ => ⟨rfl, State.bank_setBank_same ..⟩, id⟩
  | cons a l ih =>
    cases a with
    | read r =>
      cases ht
      obtain rfl : left = .read r :: l := by
        rw [hl]
        split <;> rfl
      refine ⟨rfl, fun h => absurd rfl h, ?_, nofun, nofun, nofun, id⟩
      rintro _ _ ⟨⟩
      exact ⟨rfl, State.bank_setBank_same ..⟩
    | program p =>
      cases ht
      obtain rfl : left = .program p :: l := by
        rw [hl]
        split <;> rfl
      refine ⟨State.emptyPlaces_of_still (State.startProgram_still ..), fun h => absurd rfl h, nofun, ?_, nofun, nofun,
        fun h => by rw [State.startProgram_condition]; exact h⟩
      rintro _ _ ⟨⟩
      exact ⟨rfl, s, rfl⟩
    | append g =>
      unfold State.grantCopy at ht
      split at ht
      · rename_i h0
        rw [h0] at hl
        have e : s.badlistFull.stc.emptyPlaces = [] := by rw [State.badlistFull_stc, h0]
        have hl' : left = if s.badlistFull.stc.emptyPlaces = [] then l.dropWhile CopyReq.isAppend else l := by
          rw [hl, e]
          rfl
        obtain ⟨h1, _, h3, h4, h5, h6, h7⟩ := ih ht hl'
        rw [h0, h1, e]
        rw [e] at h5
        have full := h7 (State.badlistFull_condition s)
        exact ⟨rfl, fun _ => full, h3, h4, h5, h6, fun _ => full⟩
      · rename_i k ks h0
        cases ht
        obtain rfl : left = .append g :: l := by
          rw [hl, h0]
          rfl
        refine ⟨rfl, fun h => absurd rfl h, nofun, nofun, ?_, nofun, id⟩
        rintro _ _ _ ⟨⟩ h
        rw [h0] at h
        cases h
        exact ⟨rfl, State.bank_setBank_same ..⟩

/-- What the arbiter grants a bank with no operation and no erase but a suspended one (R130). -/
theorem State.arbitrate_grantsHead {s : State} {b : Nat} {x : Bank} (hx : s.bank b = x) (ho : x.op = none)
    (he : ∀ e, x.erase = some e → e.state = .suspended) : (s.arbitrate b).grantsHead b x := by
  have hc : x.canGrant = true := by
    unfold Bank.canGrant
    rw [ho]
    split
    · rfl
    · rename_i e h
      simp [he e h]
  generalize ht : s.arbitrate b = t
  unfold State.arbitrate at ht
  dsimp only at ht
  rw [hx, hc] at ht
  simp only [Bool.not_true, Bool.false_eq_true, if_false] at ht
  unfold State.grantsHead
  dsimp only
  refine ⟨fun p rest h => ?_, fun h1 => ⟨fun r rest h => ?_, fun h2 => ⟨fun r rest h => ?_, fun h3 =>
    ⟨fun p rest h => ?_, fun h4 => ?_⟩⟩⟩⟩
  · rw [h] at ht
    subst ht
    exact State.startProgram_starts ..
  · rw [h1, h] at ht
    subst ht
    simp only [State.bank_setBank_same, h1]
  · rw [h1, h2, h] at ht
    subst ht
    simp only [State.bank_setBank_same, h1, h2]
  · rw [h1, h2, h3, h] at ht
    subst ht
    rw [h1, h2, h3]
    exact State.startProgram_starts ..
  · rw [h1, h2, h3, h4] at ht
    dsimp only at ht
    obtain ⟨u, z, hz⟩ : ∃ u z, s.grantCopy b x x.copy = (u, z) := ⟨_, _, rfl⟩
    rw [hz] at ht
    obtain ⟨g1, g2, g3, g4, g5, g6, -⟩ := State.grantCopy_grants hz rfl
    have hp : t.stc.emptyPlaces = s.stc.emptyPlaces := by
      subst ht
      dsimp only
      split
      · exact g1
      · exact (State.emptyPlaces_of_still (State.grantErase_still ..)).trans g1
    have hk : t.condition .badlistFull = u.condition .badlistFull := by
      subst ht
      dsimp only
      split
      · rfl
      · exact State.grantErase_condition ..
    unfold Bank.copyQueue
    rw [hp, hk]
    refine ⟨g2, fun r rest h => ?_, fun p rest h => ?_, fun g k rest h h' => ?_, fun h => ?_⟩
    · obtain ⟨rfl, h6⟩ := g3 r rest h
      subst ht
      exact h6
    · obtain ⟨rfl, q, rfl⟩ := g4 p rest h
      subst ht
      exact State.startProgram_starts ..
    · obtain ⟨rfl, h6⟩ := g5 g k rest h h'
      subst ht
      exact h6
    · obtain ⟨rfl, h6⟩ := g6 h
      simp only [Bool.false_eq_true, if_false] at ht
      unfold State.grantErase at ht
      dsimp only at ht
      rw [h6] at ht
      dsimp only at ht
      refine ⟨fun e h => ?_, fun h7 => ⟨fun g rest h => ?_, fun h => ?_⟩⟩
      · rw [h] at ht
        subst ht
        rw [State.bank_setBank_same]
      · rw [h7, h] at ht
        subst ht
        refine ⟨by simp [State.block, State.setBlockState, State.setBlock], ?_⟩
        exact State.bank_setBank_same ..
      · rw [h7, h] at ht
        subst ht
        exact h6

/-! ### Programs that wait or run -/

/-- A lane's program waits in its bank, or runs there. -/
def State.programs (s : State) (b : Nat) (p : ProgramReq) : Prop :=
  p ∈ (s.bank b).laneProgram ∨ (s.bank b).op = some (.program p)

theorem State.programs_of_bank {s t : State} {b : Nat} {p : ProgramReq} (h : t.bank b = s.bank b)
    (hp : s.programs b p) : t.programs b p := by
  unfold State.programs
  rw [h]
  exact hp

theorem State.grantCopy_bank_ne (s : State) {b c : Nat} (x : Bank) (l : List CopyReq) (h : c ≠ b) :
    (s.grantCopy b x l).1.bank c = s.bank c := by
  induction l generalizing s with
  | nil => exact State.bank_setBank_ne _ _ h
  | cons a t ih =>
    cases a with
    | read r => exact State.bank_setBank_ne _ _ h
    | program q =>
      show (s.startProgram _ _ _).bank c = _
      unfold State.startProgram
      dsimp only
      split <;> exact State.bank_setBank_ne _ _ h
    | append g =>
      unfold State.grantCopy
      split
      · rw [ih]
        simp [State.bank]
      · exact State.bank_setBank_ne _ _ h

theorem State.grantErase_bank_ne (s : State) {b c : Nat} (h : c ≠ b) : (s.grantErase b).bank c = s.bank c := by
  unfold State.grantErase
  dsimp only
  (repeat' split) <;> first | rfl | exact State.bank_setBank_ne _ _ h

theorem State.arbitrate_bank_ne (s : State) {b c : Nat} (h : c ≠ b) : (s.arbitrate b).bank c = s.bank c := by
  unfold State.arbitrate State.startProgram
  dsimp only
  (repeat' split)
  all_goals first
    | rfl
    | exact State.bank_setBank_ne _ _ h
    | exact State.grantCopy_bank_ne _ _ _ h
    | exact (State.grantErase_bank_ne _ h).trans (State.grantCopy_bank_ne _ _ _ h)

/-- A program that waits or runs still does once the arbiter has granted what it can. -/
theorem State.arbitrate_programs {s : State} (b : Nat) {c : Nat} {p : ProgramReq} (h : s.programs c p) :
    (s.arbitrate b).programs c p := by
  by_cases hb : c = b
  case neg => exact State.programs_of_bank (State.arbitrate_bank_ne s hb) h
  subst hb
  cases hc : (s.bank c).canGrant
  · have : s.arbitrate c = s := by
      unfold State.arbitrate
      simp [hc]
    rw [this]
    exact h
  have ho : (s.bank c).op = none := by
    unfold Bank.canGrant at hc
    simp only [Bool.and_eq_true, Option.isNone_iff_eq_none] at hc
    exact hc.1
  have he : ∀ e, (s.bank c).erase = some e → e.state = .suspended := by
    intro e h
    unfold Bank.canGrant at hc
    simp [h] at hc
    exact hc.2
  have hq : p ∈ (s.bank c).laneProgram := h.resolve_right (by rw [ho]; nofun)
  have g := State.arbitrate_grantsHead (s := s) rfl ho he
  unfold State.grantsHead at g
  dsimp only at g
  obtain ⟨g1, g⟩ := g
  cases h1 : (s.bank c).intakeProgram with
  | cons q rest =>
    refine .inl ?_
    rw [(g1 q rest h1).2]
    exact hq
  | nil =>
    obtain ⟨g2, g⟩ := g h1
    cases h2 : (s.bank c).deliveryRead with
    | cons q rest =>
      refine .inl ?_
      rw [g2 q rest h2]
      exact hq
    | nil =>
      obtain ⟨g3, g⟩ := g h2
      cases h3 : (s.bank c).laneRead with
      | cons q rest =>
        refine .inl ?_
        rw [g3 q rest h3]
        exact hq
      | nil =>
        obtain ⟨g4, -⟩ := g h3
        cases h4 : (s.bank c).laneProgram with
        | nil =>
          rw [h4] at hq
          cases hq
        | cons q rest =>
          obtain ⟨⟨a, -⟩, b⟩ := g4 q rest h4
          rw [h4] at hq
          rcases List.mem_cons.1 hq with rfl | hq
          · exact .inr a
          · refine .inl ?_
            rw [b]
            exact hq

theorem State.afterJoin_programs {s : State} (b : Nat) {c : Nat} {p : ProgramReq} (h : s.programs c p) :
    (s.afterJoin b).programs c p := by
  unfold State.afterJoin
  dsimp only
  (repeat' split)
  · by_cases hb : c = b
    · subst hb
      unfold State.programs
      rw [State.bank_setBank_same]
      exact h
    · exact State.programs_of_bank (State.bank_setBank_ne _ _ hb) h
  · exact State.arbitrate_programs _ h
  · exact State.arbitrate_programs _ h

/-- Offering a buffer keeps every program that waits or runs (R125). -/
theorem State.offer_programs {s : State} (i : Nat) {c : Nat} {p : ProgramReq} (h : s.programs c p) :
    (s.offer i).programs c p := by
  have join : ∀ (b : Nat) (y : Bank), (∀ q, q ∈ (s.bank b).laneProgram → q ∈ y.laneProgram) → y.op = (s.bank b).op →
      ((s.setBank b y).afterJoin b).programs c p := by
    intro b y h1 h2
    refine State.afterJoin_programs _ ?_
    by_cases hb : c = b
    · subst hb
      unfold State.programs
      rw [State.bank_setBank_same, h2]
      exact h.imp_left (h1 p)
    · exact State.programs_of_bank (State.bank_setBank_ne _ _ hb) h
  unfold State.offer State.joinCopy
  dsimp only
  (repeat' split)
  · exact h
  · exact h
  · exact join _ _ (fun q hq => hq) rfl
  · exact join _ _ (fun q hq => List.mem_append_left _ hq) rfl
  · exact join _ _ (fun q hq => hq) rfl

/-- A buffer of an extent, on a block that is not being relocated, waits or is programmed once it is offered (R125). -/
theorem State.offer_offered {s : State} {i e : Nat} {b : Buf} (hb : s.buf? i = some b)
    (ho : b.owner = .own (.extent e)) (hr : s.relocating b.block = false) :
    (s.offer i).programs (bankOf b.block) ⟨i, b.block, b.page⟩ := by
  unfold State.offer
  rw [hb]
  simp only [hr, Bool.false_eq_true, if_false, ho]
  refine State.afterJoin_programs _ (.inl ?_)
  rw [State.bank_setBank_same]
  exact List.mem_append_right _ (List.mem_singleton.2 rfl)

end Sys2Proof.Machine
end

