-- ==== Sys2Proof/Laws/Cells.lean ====
section
/-! SUPPORT. The check of a control cell (R194): what a cell of 254 bytes and two more says of itself. -/

namespace Sys2Proof

open Sys2Proof.Machine

/-- Two bytes read back as the number they spell. -/
theorem be2_value (n : Nat) : ((be2 n).map BitVec.toNat) = [n / 256 % 256, n % 256] := by
  simp [be2]

/-- Numbers below 65536 with the same two bytes are the same. -/
theorem be2_inj {a b : Nat} (ha : a < 65536) (hb : b < 65536) (h : be2 a = be2 b) : a = b := by
  have h1 := congrArg (List.map BitVec.toNat) h
  rw [be2_value, be2_value] at h1
  simp only [List.cons.injEq, and_true] at h1
  omega

/-- A cell of 254 bytes and two more compares those two with the check over the 254. -/
theorem cellCheckOk_append (bs c : List Byte) (h : bs.length = 254) (hc : c.length = 2) :
    cellCheckOk (bs ++ c) = (c == be2 (check16 bs).toNat) := by
  have e1 : (bs ++ c).drop 254 = c := by rw [← h]; simp
  have e2 : (bs ++ c).take 254 = bs := by rw [← h]; simp
  rw [cellCheckOk, e1, e2, List.take_of_length_le (by omega)]

/-- Bytes with their check pass it. -/
theorem cellCheckOk_withCheck16 (bs : List Byte) (h : bs.length = 254) : cellCheckOk (withCheck16 bs) = true := by
  rw [withCheck16, cellCheckOk_append bs _ h (by simp [be2])]
  simp

/-- Bytes with another number than their check do not. -/
theorem cellCheckOk_wrong (bs : List Byte) (n : Nat) (h : bs.length = 254) (hn : n < 65536)
    (ne : n ≠ (check16 bs).toNat) : cellCheckOk (bs ++ be2 n) = false := by
  rw [cellCheckOk_append bs _ h (by simp [be2])]
  simp only [beq_eq_false_iff_ne, ne_eq]
  exact fun e => ne (be2_inj hn (check16 bs).isLt e)

/-- An envelope passes its check. -/
theorem cellCheckOk_envelope (code : Nat) (tag : Word16) (body : List Byte) :
    cellCheckOk (envelope code tag body) = true := by
  apply cellCheckOk_withCheck16
  simp only [be1, word16Bytes, List.length_take, List.length_append, List.length_cons, List.length_nil,
    List.length_replicate]
  omega

end Sys2Proof
end

