-- ==== Sys2Proof/Laws/Memory.lean ====
section
/-! SUPPORT. The banks' contents: the byte at an address after each operation, and the canonical form. -/

namespace Sys2Proof.Machine

theorem memRead_append (l m : List Host.Cell) (x : Nat) :
    memRead (l ++ m) x = if x ∈ l.map (fun c => c.1) then memRead l x else memRead m x := by
  induction l with
  | nil => simp
  | cons c l ih =>
    obtain ⟨k, v⟩ := c
    by_cases h : k = x
    · simp [memRead, h]
    · have h' : x ≠ k := fun e => h e.symm
      simp [memRead, h, h', ih]

theorem memRead_of_not_mem (m : List Host.Cell) (x : Nat) (h : x ∉ m.map (fun c => c.1)) :
    memRead m x = erasedByte := by
  induction m with
  | nil => rfl
  | cons c m ih =>
    obtain ⟨k, v⟩ := c
    simp only [List.map_cons, List.mem_cons, not_or] at h
    have : k ≠ x := fun e => h.1 e.symm
    simp [memRead, this, ih h.2]

theorem memRead_filter (m : List Host.Cell) (p : Nat → Bool) (x : Nat) :
    memRead (m.filter (fun c => p c.1)) x = if p x then memRead m x else erasedByte := by
  induction m with
  | nil => simp [memRead]
  | cons c m ih =>
    obtain ⟨k, v⟩ := c
    by_cases hk : p k = true
    · by_cases h : k = x
      · subst h
        simp [memRead, hk]
      · simp [memRead, hk, h, ih]
    · by_cases h : k = x
      · subst h
        simp [hk, ih]
      · simp [memRead, hk, h, ih]

theorem cellsFrom_keys (a : Nat) (bs : List Byte) (k : Nat) (h : k ∈ (cellsFrom a bs).map (fun c => c.1)) :
    a ≤ k ∧ k < a + bs.length := by
  induction bs generalizing a with
  | nil => simp [cellsFrom] at h
  | cons b t ih =>
    unfold cellsFrom at h
    simp only [List.length_cons]
    split at h
    · have := ih (a + 1) h
      omega
    · simp only [List.map_cons, List.mem_cons] at h
      rcases h with h | h
      · omega
      · have := ih (a + 1) h
        omega

theorem memRead_cellsFrom (a : Nat) (bs : List Byte) (i : Nat) (h : i < bs.length) :
    memRead (cellsFrom a bs) (a + i) = bs.getD i 0 := by
  induction bs generalizing a i with
  | nil => simp at h
  | cons b t ih =>
    cases i with
    | zero =>
      unfold cellsFrom
      split
      · rename_i hb
        rw [memRead_of_not_mem]
        · simp [hb]
        · intro hm
          have := cellsFrom_keys (a + 1) t (a + 0) hm
          omega
      · simp [memRead]
    | succ i =>
      have hi : i < t.length := by simpa using h
      have e : a + (i + 1) = (a + 1) + i := by omega
      unfold cellsFrom
      rw [e]
      split
      · rw [ih (a + 1) i hi]
        simp
      · have hne : a ≠ (a + 1) + i := by omega
        simp only [memRead, if_neg hne]
        rw [ih (a + 1) i hi]
        simp

/-- The byte at an address after bytes are put. -/
theorem memRead_memPut (m : List Host.Cell) (a : Nat) (bs : List Byte) (x : Nat) :
    memRead (memPut m a bs) x = if a ≤ x ∧ x < a + bs.length then bs.getD (x - a) 0 else memRead m x := by
  unfold memPut
  have f1 := memRead_filter m (fun k => decide (k < a)) x
  have f2 := memRead_filter m (fun k => decide (a + bs.length ≤ k)) x
  by_cases h : a ≤ x ∧ x < a + bs.length
  · rw [if_pos h, List.append_assoc, memRead_append, if_neg, memRead_append]
    · have e : a + (x - a) = x := by omega
      have hr := memRead_cellsFrom a bs (x - a) (by omega)
      rw [e] at hr
      by_cases hm : x ∈ (cellsFrom a bs).map (fun c => c.1)
      · rw [if_pos hm, hr]
      · rw [if_neg hm]
        rw [memRead_of_not_mem _ x hm] at hr
        rw [← hr, f2, if_neg]
        simp
        omega
    · intro hm
      simp only [List.mem_map, List.mem_filter, decide_eq_true_eq] at hm
      obtain ⟨c, ⟨_, hc⟩, rfl⟩ := hm
      omega
  · rw [if_neg h, List.append_assoc, memRead_append]
    by_cases hx : x < a
    · have hrest : memRead (cellsFrom a bs ++ m.filter (fun c => decide (a + bs.length ≤ c.1))) x = erasedByte := by
        rw [memRead_append, if_neg, f2, if_neg]
        · simp
          omega
        · intro hm
          have := cellsFrom_keys a bs x hm
          omega
      by_cases hm : x ∈ (m.filter (fun c => decide (c.1 < a))).map (fun c => c.1)
      · rw [if_pos hm, f1, if_pos (by simpa using hx)]
      · rw [if_neg hm, hrest]
        have := memRead_of_not_mem _ x hm
        rw [f1, if_pos (by simpa using hx)] at this
        exact this.symm
    · rw [if_neg, memRead_append, if_neg, f2, if_pos]
      · simp
        omega
      · intro hm
        have := cellsFrom_keys a bs x hm
        omega
      · intro hm
        simp only [List.mem_map, List.mem_filter, decide_eq_true_eq] at hm
        obtain ⟨c, ⟨_, hc⟩, rfl⟩ := hm
        omega

/-- The byte at an address after an erase. -/
theorem memRead_memErase (m : List Host.Cell) (a n x : Nat) :
    memRead (memErase m a n) x = if a ≤ x ∧ x < a + n then erasedByte else memRead m x := by
  unfold memErase
  rw [memRead_filter m (fun k => decide (k < a) || decide (a + n ≤ k)) x]
  by_cases h : a ≤ x ∧ x < a + n
  · rw [if_neg, if_pos h]
    simp
    omega
  · rw [if_pos, if_neg h]
    simp
    omega

/-! ## The canonical form -/

theorem memWfFrom_iff (a : Nat) (m : List Host.Cell) :
    memWfFrom a m = true ↔ (m.map (fun c => c.1)).Pairwise (· < ·) ∧ (∀ c ∈ m, a ≤ c.1) ∧ ∀ c ∈ m, c.2 ≠ erasedByte := by
  induction m generalizing a with
  | nil => simp [memWfFrom]
  | cons c m ih =>
    obtain ⟨k, v⟩ := c
    simp only [memWfFrom, Bool.and_eq_true, decide_eq_true_eq, ih, List.map_cons, List.pairwise_cons, List.mem_map,
      List.mem_cons, forall_eq_or_imp]
    constructor
    · rintro ⟨⟨h1, h2⟩, h3, h4, h5⟩
      refine ⟨⟨?_, h3⟩, ⟨h1, ?_⟩, h2, h5⟩
      · rintro _ ⟨c, hc, rfl⟩
        exact h4 c hc
      · intro c hc
        have := h4 c hc
        omega
    · rintro ⟨⟨h1, h2⟩, ⟨h3, h4⟩, h5, h6⟩
      refine ⟨⟨h3, h5⟩, h2, ?_, h6⟩
      intro c hc
      exact h1 _ ⟨c, hc, rfl⟩

/-- The canonical form: addresses strictly rising, no byte equal to what an unlisted address reads as. -/
theorem Memory.wf_iff (m : List Host.Cell) :
    Memory.wf m = true ↔ (m.map (fun c => c.1)).Pairwise (· < ·) ∧ ∀ c ∈ m, c.2 ≠ erasedByte := by
  unfold Memory.wf
  rw [memWfFrom_iff]
  simp

theorem cellsFrom_sorted (a : Nat) (bs : List Byte) : ((cellsFrom a bs).map (fun c => c.1)).Pairwise (· < ·) := by
  induction bs generalizing a with
  | nil => simp [cellsFrom]
  | cons b t ih =>
    unfold cellsFrom
    split
    · exact ih (a + 1)
    · simp only [List.map_cons, List.pairwise_cons]
      refine ⟨?_, ih (a + 1)⟩
      intro k hk
      have := cellsFrom_keys (a + 1) t k hk
      omega

theorem cellsFrom_ne (a : Nat) (bs : List Byte) : ∀ c ∈ cellsFrom a bs, c.2 ≠ erasedByte := by
  induction bs generalizing a with
  | nil => simp [cellsFrom]
  | cons b t ih =>
    unfold cellsFrom
    split
    · exact ih (a + 1)
    · rename_i hb
      intro c hc
      rcases List.mem_cons.1 hc with rfl | hc
      · exact hb
      · exact ih (a + 1) c hc

theorem filter_sorted (m : List Host.Cell) (p : Host.Cell → Bool) (h : (m.map (fun c => c.1)).Pairwise (· < ·)) :
    ((m.filter p).map (fun c => c.1)).Pairwise (· < ·) :=
  List.Pairwise.sublist (List.Sublist.map _ List.filter_sublist) h

/-- Putting bytes keeps the canonical form. -/
theorem wf_memPut (m : List Host.Cell) (a : Nat) (bs : List Byte) (h : Memory.wf m = true) :
    Memory.wf (memPut m a bs) = true := by
  rw [Memory.wf_iff] at h ⊢
  unfold memPut
  constructor
  · rw [List.map_append, List.map_append, List.pairwise_append, List.pairwise_append]
    refine ⟨⟨filter_sorted m _ h.1, cellsFrom_sorted a bs, ?_⟩, filter_sorted m _ h.1, ?_⟩
    · intro x hx y hy
      have hy := cellsFrom_keys a bs y hy
      simp only [List.mem_map, List.mem_filter, decide_eq_true_eq] at hx
      obtain ⟨c, ⟨_, hc⟩, rfl⟩ := hx
      omega
    · intro x hx y hy
      simp only [List.mem_map, List.mem_filter, decide_eq_true_eq] at hy
      obtain ⟨d, ⟨_, hd⟩, rfl⟩ := hy
      rcases List.mem_append.1 hx with hx | hx
      · simp only [List.mem_map, List.mem_filter, decide_eq_true_eq] at hx
        obtain ⟨c, ⟨_, hc⟩, rfl⟩ := hx
        omega
      · have := cellsFrom_keys a bs x hx
        omega
  · intro c hc
    rcases List.mem_append.1 hc with hc | hc
    · rcases List.mem_append.1 hc with hc | hc
      · exact h.2 c (List.mem_filter.1 hc).1
      · exact cellsFrom_ne a bs c hc
    · exact h.2 c (List.mem_filter.1 hc).1

/-- Erasing keeps the canonical form. -/
theorem wf_memErase (m : List Host.Cell) (a n : Nat) (h : Memory.wf m = true) : Memory.wf (memErase m a n) = true := by
  rw [Memory.wf_iff] at h ⊢
  exact ⟨filter_sorted m _ h.1, fun c hc => h.2 c (List.mem_filter.1 hc).1⟩

/-- A PROGRAM keeps the canonical form. -/
theorem wf_programPage (s : State) (g page : Nat) (bs : List Byte) (h : Memory.wf s.mem = true) :
    Memory.wf (s.programPage g page bs).mem = true := wf_memPut _ _ _ h

/-- An ERASE keeps the canonical form. -/
theorem wf_eraseBytes (s : State) (g : Nat) (h : Memory.wf s.mem = true) : Memory.wf (s.eraseBytes g).mem = true :=
  wf_memErase _ _ _ h

/-- An APPEND keeps the canonical form. -/
theorem wf_writePlace (s : State) (k : Nat) (bs : List Byte) (h : Memory.wf s.mem = true) :
    Memory.wf (s.writePlace k bs).mem = true := wf_memPut _ _ _ h

/-- A reset that abandons an APPEND keeps the canonical form. -/
theorem wf_abandonAppend (s : State) (h : Memory.wf s.mem = true) : Memory.wf s.abandonAppend.mem = true := by
  unfold State.abandonAppend
  split
  · exact wf_memPut _ _ _ h
  · exact h

theorem wf_reset : Memory.wf State.reset.mem = true := rfl

end Sys2Proof.Machine
end

