-- ==== Sys2Proof/Laws/Pools.lean ====
section
/-! SUPPORT. The numbers of the pools and the banks' own blocks (`State.poolsOk`) under every operation. -/

namespace Sys2Proof.Machine

/-! ### Pools -/

theorem Table.within_nil {α : Type} (n : Nat) : Table.within n ([] : Table α) :=
  ⟨List.Pairwise.nil, fun _ h => by cases h⟩

theorem Table.within_put {α : Type} {n : Nat} {t : Table α} (h : t.within n) {k : Nat} (hk : k < n) (v : α) :
    (t.put k v).within n := by
  refine ⟨Table.sorted_put t k v h.1, fun e he => ?_⟩
  rcases Table.mem_put t k v (List.mem_map_of_mem (f := fun e => e.1) he) with h1 | h1
  · exact h1 ▸ hk
  · obtain ⟨d, hd, e1⟩ := List.mem_map.1 h1
    exact e1 ▸ h.2 d hd

theorem Table.within_del {α : Type} {n : Nat} {t : Table α} (h : t.within n) (k : Nat) : (t.del k).within n :=
  ⟨Table.sorted_del t k h.1, fun e he => h.2 e (List.mem_of_mem_filter he)⟩

theorem Table.mem_of_at? {α : Type} {t : Table α} {n : Nat} {v : α} (h : t.at? n = some v) : (n, v) ∈ t := by
  induction t with
  | nil => cases h
  | cons e t ih =>
    obtain ⟨k, w⟩ := e
    rw [Table.at?_cons] at h
    split at h
    · rename_i h1
      cases h
      exact h1 ▸ List.mem_cons_self ..
    · exact List.mem_cons_of_mem _ (ih h)

theorem Table.within_lt {α : Type} {n k : Nat} {t : Table α} {v : α} (h : t.within n) (e : t.at? k = some v) : k < n :=
  h.2 _ (Table.mem_of_at? e)

theorem Table.freeFrom_lt {α : Type} {t : Table α} {n start k : Nat} (h : t.freeFrom n start = some k) : k < n := by
  have h1 := List.mem_of_find?_eq_some h
  obtain ⟨i, hi, rfl⟩ := List.mem_map.1 h1
  exact Nat.mod_lt _ (Nat.lt_of_le_of_lt (Nat.zero_le _) (List.mem_range.1 hi))

theorem Table.atD_map {α : Type} (t : Table α) (f : α → α) (d : α) (n : Nat) (hd : f d = d) :
    Table.atD (t.map (fun e => (e.1, f e.2))) n d = f (t.atD n d) := by
  induction t with
  | nil => exact hd.symm
  | cons e t ih =>
    obtain ⟨k, w⟩ := e
    by_cases h : k = n
    · simp [Table.atD, Table.at?, h]
    · simpa [Table.atD, Table.at?, h] using ih

/-! ### Facts -/

/-- `State.poolsOk` as a statement about the four tables. -/
def Pools (jobs : Table Job) (buffers : Table Buf) (extents : Table Extent) (banks : Table Bank) : Prop :=
  jobs.within 256 ∧ buffers.within 160 ∧ extents.within 4096 ∧ ∀ b, (banks.atD b Bank.empty).holds b

theorem State.poolsOk_iff (s : State) :
    s.poolsOk ↔ Pools s.jdp.jobs s.stc.buffers s.stc.extents s.stc.banks := Iff.rfl

theorem State.buf?_lt {s : State} (h : s.poolsOk) {i : Nat} {b : Buf} (e : s.buf? i = some b) : i < 160 :=
  Table.within_lt h.2.1 e

theorem State.buffers_lt {s : State} (h : s.poolsOk) {e : Nat × Buf} (he : e ∈ s.stc.buffers) : e.1 < 160 := h.2.1.2 e
  he

theorem State.job?_lt {s : State} (h : s.poolsOk) {k : Nat} {j : Job} (e : s.job? k = some j) : k < 256 :=
  Table.within_lt h.1 e

theorem State.extent?_lt {s : State} (h : s.poolsOk) {n : Nat} {x : Extent} (e : s.extent? n = some x) : n < 4096 :=
  Table.within_lt h.2.2.1 e

theorem State.extentFor_lt {s : State} (h : s.poolsOk) {n a b c : Nat} {x : Extent}
    (e : s.extentFor n a b c = some x) : n < 4096 := by
  exact State.extent?_lt h (Option.filter_eq_some_iff.1 e).1

theorem State.laneJob_lt {s : State} (h : s.poolsOk) {n k : Nat} {j : Job} (e : s.laneJob n = some j)
    (hk : (s.lane n).job = some k) : k < 256 := by
  unfold State.laneJob at e
  rw [hk] at e
  exact State.job?_lt h e

theorem State.laneExtent_lt {s : State} (h : s.poolsOk) {n e : Nat} {x : Extent} (he : s.laneExtent n = some (e, x)) :
    e < 4096 := by
  unfold State.laneExtent at he
  split at he
  · cases he
  · split at he
    · cases he
    · obtain ⟨y, hy, e1⟩ := Option.map_eq_some_iff.1 he
      cases e1
      exact State.extentFor_lt h hy

theorem State.freeExtent_lt {s : State} {n : Nat} (e : s.freeExtent = some n) : n < 4096 := Table.freeFrom_lt e

theorem State.bank_holds {s : State} (h : s.poolsOk) (b : Nat) : (s.bank b).holds b := h.2.2.2 b

theorem foldl_pools {α : Type} {f : State → α → State} (l : List α) (s : State)
    (hf : ∀ q : State, ∀ a ∈ l, q.poolsOk → (f q a).poolsOk) (h : s.poolsOk) : (l.foldl f s).poolsOk := by
  induction l generalizing s with
  | nil => exact h
  | cons a t ih =>
    exact ih _ (fun q b hb => hf q b (List.mem_cons_of_mem _ hb)) (hf s a (List.mem_cons_self ..) h)

/-! ### Writing one record -/

theorem State.setLane_pools (s : State) (n : Nat) (l : Lane) (h : s.poolsOk) : (s.setLane n l).poolsOk := h
theorem State.setGroup_pools (s : State) (g : Nat) (x : Group) (h : s.poolsOk) : (s.setGroup g x).poolsOk := h
theorem State.setChannel_pools (s : State) (c : Nat) (x : Channel) (h : s.poolsOk) : (s.setChannel c x).poolsOk := h
theorem State.setLecture_pools (s : State) (n : Nat) (x : Lecture) (h : s.poolsOk) : (s.setLecture n x).poolsOk := h
theorem State.setIntake_pools (s : State) (n : Nat) (r : Role) (x : IntakeRec) (h : s.poolsOk) :
    (s.setIntake n r x).poolsOk := h
theorem State.setDiscard_pools (s : State) (n : Nat) (x : DiscardSetting) (h : s.poolsOk) : (s.setDiscard n x).poolsOk
  := h
theorem State.setBlock_pools (s : State) (n : Nat) (x : BlockRec) (h : s.poolsOk) : (s.setBlock n x).poolsOk := h
theorem State.setRun_pools (s : State) (n : Nat) (r : Role) (x : Run) (h : s.poolsOk) : (s.setRun n r x).poolsOk := h
theorem State.send_pools (s : State) (m : Instr) (h : s.poolsOk) : (s.send m).poolsOk := h
theorem State.received_pools (s : State) (m : Instr) (h : s.poolsOk) : (s.received m).poolsOk := h
theorem State.lower_pools (s : State) (k : Condition) (h : s.poolsOk) : (s.lower k).poolsOk := h
theorem State.setBuf_pools (s : State) (i : Nat) (x : Buf) (h : s.poolsOk) (hi : i < 160) : (s.setBuf i x).poolsOk :=
  ⟨h.1, Table.within_put h.2.1 hi x, h.2.2⟩
theorem State.freeBuf_pools (s : State) (i : Nat) (h : s.poolsOk) : (s.freeBuf i).poolsOk :=
  ⟨h.1, Table.within_del h.2.1 i, h.2.2⟩
theorem State.setJob_pools (s : State) (k : Nat) (x : Job) (h : s.poolsOk) (hk : k < 256) : (s.setJob k x).poolsOk :=
  ⟨Table.within_put h.1 hk x, h.2⟩
theorem State.setExtent_pools (s : State) (n : Nat) (x : Extent) (h : s.poolsOk) (hn : n < 4096) :
    (s.setExtent n x).poolsOk := ⟨h.1, h.2.1, Table.within_put h.2.2.1 hn x, h.2.2.2⟩
theorem State.setBank_pools (s : State) (b : Nat) (x : Bank) (h : s.poolsOk) (hx : x.holds b) :
    (s.setBank b x).poolsOk := by
  refine ⟨h.1, h.2.1, h.2.2.1, fun c => ?_⟩
  show ((s.stc.banks.put b x).atD c Bank.empty).holds c
  rw [Table.atD_put]
  split
  · rename_i e
    exact e ▸ hx
  · exact h.2.2.2 c

theorem State.mapBanks_pools (s : State) (f : Bank → Bank) (h : s.poolsOk) (he : f Bank.empty = Bank.empty)
    (hf : ∀ x b, x.holds b → (f x).holds b) : (s.mapBanks f).poolsOk := by
  refine ⟨h.1, h.2.1, h.2.2.1, fun c => ?_⟩
  show (Table.atD (s.stc.banks.map (fun e => (e.1, f e.2))) c Bank.empty).holds c
  rw [Table.atD_map _ _ _ _ he]
  exact hf _ _ (h.2.2.2 c)

theorem State.dropPrograms_pools (s : State) (p : ProgramReq → Bool) (h : s.poolsOk) :
    (s.mapBanks (·.dropPrograms p)).poolsOk :=
  State.mapBanks_pools s _ h rfl (fun _ _ h => h)


/-! ### Memory -/

theorem State.programPage_pools (s : State) (g page : Nat) (bs : List Byte) (h : s.poolsOk) :
    (State.programPage s g page bs).poolsOk := by
  unfold State.programPage
  grind (splits := 20) [State.poolsOk_iff]

theorem State.eraseBytes_pools (s : State) (g : Nat) (h : s.poolsOk) : (State.eraseBytes s g).poolsOk := by
  unfold State.eraseBytes
  grind (splits := 20) [State.poolsOk_iff]

/-! ### Ops -/

theorem State.setBlockState_pools (s : State) (g : Nat) (st : BlockState) (h : s.poolsOk) :
    (State.setBlockState s g st).poolsOk := by
  unfold State.setBlockState
  grind (splits := 20) [State.poolsOk_iff, State.setBlock_pools]

theorem State.queueEvent_pools (s : State) (o : EventObject) (k : EventKind) (content : List Byte) (h : s.poolsOk) :
    (State.queueEvent s o k content).poolsOk := by
  unfold State.queueEvent
  grind (splits := 20) [State.poolsOk_iff]

theorem State.queueAlarm_pools (s : State) (h : s.poolsOk) : (State.queueAlarm s).poolsOk := by
  unfold State.queueAlarm
  grind (splits := 20) [State.poolsOk_iff, State.queueEvent_pools]

theorem State.raise_pools (s : State) (k : Condition) (h : s.poolsOk) : (State.raise s k).poolsOk := by
  unfold State.raise
  grind (splits := 20) [State.poolsOk_iff, State.queueAlarm_pools]

theorem State.level_pools (s : State) (k : Condition) (holds : Bool) (h : s.poolsOk) :
    (State.level s k holds).poolsOk := by
  unfold State.level
  grind (splits := 20) [State.poolsOk_iff, State.lower_pools, State.raise_pools]

theorem State.reserve_pools (s : State) (code : Nat) (tag : Word16) (h : s.poolsOk) :
    (State.reserve s code tag).poolsOk := by
  unfold State.reserve
  grind (splits := 20) [State.poolsOk_iff]

theorem State.reply_pools (s : State) (code : Nat) (tag : Word16) (result : ReplyCode) (fields : List Byte) (h :
    s.poolsOk) :
    (State.reply s code tag result fields).poolsOk := by
  unfold State.reply
  grind (splits := 20) [State.poolsOk_iff]

theorem State.lectureEvent_pools (s : State) (slot : Nat) (h : s.poolsOk) : (State.lectureEvent s slot).poolsOk := by
  unfold State.lectureEvent
  grind (splits := 20) [State.poolsOk_iff, State.queueEvent_pools]

theorem State.laneEvent_pools (s : State) (n : Nat) (h : s.poolsOk) : (State.laneEvent s n).poolsOk := by
  unfold State.laneEvent
  grind (splits := 20) [State.poolsOk_iff, State.queueEvent_pools]

theorem State.groupEvent_pools (s : State) (g : Nat) (byFault : Bool) (h : s.poolsOk) :
    (State.groupEvent s g byFault).poolsOk := by
  unfold State.groupEvent
  grind (splits := 20) [State.poolsOk_iff, State.queueEvent_pools]

theorem State.channelEvent_pools (s : State) (c : Nat) (h : s.poolsOk) : (State.channelEvent s c).poolsOk := by
  unfold State.channelEvent
  grind (splits := 20) [State.poolsOk_iff, State.queueEvent_pools]

theorem State.trunkEvent_pools (s : State) (h : s.poolsOk) : (State.trunkEvent s).poolsOk := by
  unfold State.trunkEvent
  grind (splits := 20) [State.poolsOk_iff, State.queueEvent_pools]

/-! ### Store -/

theorem State.storeEvent_pools (s : State) (h : s.poolsOk) : (State.storeEvent s).poolsOk := by
  unfold State.storeEvent
  grind (splits := 20) [State.poolsOk_iff, State.queueEvent_pools]

theorem State.evalLevels_pools (s : State) (h : s.poolsOk) : (State.evalLevels s).poolsOk := by
  unfold State.evalLevels
  grind (splits := 20) [State.poolsOk_iff, State.level_pools, State.storeEvent_pools]

theorem State.badlistFull_pools (s : State) (h : s.poolsOk) : (State.badlistFull s).poolsOk := by
  unfold State.badlistFull
  grind (splits := 20) [State.poolsOk_iff, State.raise_pools, State.storeEvent_pools]

theorem State.startProgram_pools (s : State) (b : Nat) (x : Bank) (p : ProgramReq) (h : s.poolsOk) (hx : x.holds b) :
    (State.startProgram s b x p).poolsOk := by
  unfold State.startProgram
  grind (splits := 20) [State.poolsOk_iff, State.setBank_pools, State.setBuf_pools, State.buf?_lt, State.bank_holds,
    Bank.holds]

theorem State.grantCopy_pools (s : State) (b : Nat) (x : Bank) (l : List CopyReq) (h : s.poolsOk) (hx : x.holds b) :
    (State.grantCopy s b x l).1.poolsOk := by
  induction l generalizing s with
  | nil => exact State.setBank_pools _ _ _ h hx
  | cons c t ih =>
    cases c with
    | read r => exact State.setBank_pools _ _ _ h hx
    | program p => exact State.startProgram_pools _ _ _ _ h hx
    | append g =>
      simp only [State.grantCopy]
      split
      · exact ih _ (State.badlistFull_pools _ h)
      · exact State.setBank_pools _ _ _ h hx

theorem State.grantErase_pools (s : State) (b : Nat) (h : s.poolsOk) : (State.grantErase s b).poolsOk := by
  unfold State.grantErase
  grind (splits := 20) [State.poolsOk_iff, State.setBank_pools, State.setBlockState_pools, State.bank_holds, Bank.holds]

theorem State.arbitrate_pools (s : State) (b : Nat) (h : s.poolsOk) : (State.arbitrate s b).poolsOk := by
  unfold State.arbitrate
  grind (splits := 20) [State.poolsOk_iff, State.setBank_pools, State.startProgram_pools, State.grantCopy_pools,
    State.grantErase_pools, State.bank_holds, Bank.holds]

theorem State.afterJoin_pools (s : State) (b : Nat) (h : s.poolsOk) : (State.afterJoin s b).poolsOk := by
  unfold State.afterJoin
  grind (splits := 20) [State.poolsOk_iff, State.setBank_pools, State.arbitrate_pools, State.bank_holds, Bank.holds]

theorem State.joinCopy_pools (s : State) (b : Nat) (r : CopyReq) (h : s.poolsOk) : (State.joinCopy s b r).poolsOk := by
  unfold State.joinCopy
  grind (splits := 20) [State.poolsOk_iff, State.setBank_pools, State.afterJoin_pools, State.bank_holds, Bank.holds]

theorem State.joinDeliveryRead_pools (s : State) (r : ReadReq) (h : s.poolsOk) :
    (State.joinDeliveryRead s r).poolsOk := by
  unfold State.joinDeliveryRead
  grind (splits := 20) [State.poolsOk_iff, State.setBank_pools, State.afterJoin_pools, State.bank_holds, Bank.holds]

theorem State.joinLaneRead_pools (s : State) (r : ReadReq) (h : s.poolsOk) : (State.joinLaneRead s r).poolsOk := by
  unfold State.joinLaneRead
  grind (splits := 20) [State.poolsOk_iff, State.setBank_pools, State.afterJoin_pools, State.bank_holds, Bank.holds]

theorem State.withdrawReads_pools (s : State) (who : Reader → Bool) (h : s.poolsOk) :
    (State.withdrawReads s who).poolsOk := by
  unfold State.withdrawReads
  exact State.mapBanks_pools s _ h rfl (fun _ _ h => h)

theorem State.retireBlock_pools (s : State) (g : Nat) (h : s.poolsOk) : (State.retireBlock s g).poolsOk := by
  unfold State.retireBlock
  grind (splits := 20) [State.poolsOk_iff, State.setBank_pools, State.setBlockState_pools, State.arbitrate_pools,
    State.bank_holds, Bank.holds]

theorem State.badBlock_pools (s : State) (g : Nat) (h : s.poolsOk) : (State.badBlock s g).poolsOk := by
  unfold State.badBlock
  grind (splits := 20) [State.poolsOk_iff, State.setBlockState_pools, State.joinCopy_pools]

theorem State.takeBlock_pools (s : State) (g : Nat) (h : s.poolsOk) : (State.takeBlock s g).poolsOk := by
  unfold State.takeBlock
  refine State.evalLevels_pools _ (State.setBlockState_pools _ _ _ (State.setBank_pools _ _ _ h ?_))
  exact ⟨fun a ha => (h.2.2.2 _).1 a (List.mem_of_mem_tail ha), (h.2.2.2 _).2⟩

theorem State.giveBuffer_pools (s : State) (o : BufOwner) (g page : Nat) (h : s.poolsOk) :
    (State.giveBuffer s o g page).poolsOk := by
  unfold State.giveBuffer
  split
  · exact h
  · rename_i e
    exact State.setBuf_pools _ _ _ h (Table.freeFrom_lt e)

theorem State.offer_pools (s : State) (i : Nat) (h : s.poolsOk) : (State.offer s i).poolsOk := by
  unfold State.offer
  grind (splits := 20) [State.poolsOk_iff, State.setBank_pools, State.setBuf_pools, State.afterJoin_pools,
    State.joinCopy_pools, State.buf?_lt, State.bank_holds, Bank.holds]

theorem State.discardBuf_pools (s : State) (i : Nat) (h : s.poolsOk) : (State.discardBuf s i).poolsOk := by
  unfold State.discardBuf
  split
  · exact h
  · rename_i e
    split
    · exact State.setBuf_pools _ _ _ h (State.buf?_lt h e)
    · exact State.freeBuf_pools _ _ (State.dropPrograms_pools _ _ h)

theorem State.discardWhere_pools (s : State) (p : Buf → Bool) (h : s.poolsOk) : (State.discardWhere s p).poolsOk := by
  unfold State.discardWhere
  exact foldl_pools _ _ (fun q e _ hq => State.discardBuf_pools q e.1 hq) h

theorem State.discardUncommitted_pools (s : State) (n : Nat) (h : s.poolsOk) :
    (State.discardUncommitted s n).poolsOk := by
  unfold State.discardUncommitted
  refine foldl_pools _ _ (fun q e he hq => ?_) h
  have := State.buffers_lt h (List.mem_of_mem_filter he)
  dsimp only
  split
  · exact State.freeBuf_pools _ _ hq
  · exact State.setBuf_pools _ _ _ hq this

theorem State.losePages_pools (s : State) (g : Nat) (pages : List Nat) (h : s.poolsOk) :
    (State.losePages s g pages).poolsOk := by
  unfold State.losePages
  grind (splits := 20) [State.poolsOk_iff, State.setBlock_pools]

theorem State.protectTest_pools (s : State) (g : Nat) (h : s.poolsOk) : (State.protectTest s g).poolsOk := by
  unfold State.protectTest
  grind (splits := 20) [State.poolsOk_iff, State.setBlockState_pools]

theorem State.addClaim_pools (s : State) (c : Claim) (h : s.poolsOk) : (State.addClaim s c).poolsOk := by
  unfold State.addClaim
  grind (splits := 20) [State.poolsOk_iff]

theorem State.withdrawClaim_pools (s : State) (who : Claimant) (h : s.poolsOk) :
    (State.withdrawClaim s who).poolsOk := by
  unfold State.withdrawClaim
  grind (splits := 20) [State.poolsOk_iff]

theorem State.setReloc_pools (s : State) (x : Relocation) (h : s.poolsOk) : (State.setReloc s x).poolsOk := by
  unfold State.setReloc
  grind (splits := 20) [State.poolsOk_iff]

theorem State.dropReloc_pools (s : State) (failed : Nat) (h : s.poolsOk) : (State.dropReloc s failed).poolsOk := by
  unfold State.dropReloc
  grind (splits := 20) [State.poolsOk_iff]

theorem State.copyOn_pools (s : State) (o : Owner) (most : Nat) (h : s.poolsOk) : (State.copyOn s o most).poolsOk := by
  unfold State.copyOn
  split
  · exact h
  · rename_i r hr
    split
    · exact h
    · rename_i t ht
      split
      · exact h
      · have h1 : ∀ l n, ((s.losePages t l).setReloc { r with next := n }).poolsOk :=
          fun l n => State.setReloc_pools _ _ (State.losePages_pools s t l h)
        have h2 : ∀ (q : State) (l : List Nat), q.poolsOk →
            (l.foldl (fun (q : State) p => q.giveBuffer (.relocation o) t p) q).poolsOk :=
          fun q l hq => foldl_pools l q (fun q p _ hq => State.giveBuffer_pools q _ t p hq) hq
        dsimp only
        split
        · split
          · exact h1 _ _
          · exact State.joinCopy_pools _ _ _ (State.setReloc_pools _ _ (h1 _ _))
        · split
          · exact State.addClaim_pools _ _ (h1 _ _)
          · exact State.joinCopy_pools _ _ _ (State.setReloc_pools _ _ (h2 _ _ (h1 _ _)))

theorem State.takeTarget_pools (s : State) (r : Relocation) (g : Nat) (h : s.poolsOk) :
    (State.takeTarget s r g).poolsOk := by
  unfold State.takeTarget
  grind (splits := 20) [State.poolsOk_iff, State.takeBlock_pools, State.setReloc_pools]

theorem State.askTarget_pools (s : State) (r : Relocation) (h : s.poolsOk) : (State.askTarget s r).poolsOk := by
  unfold State.askTarget
  grind (splits := 20) [State.poolsOk_iff, State.addClaim_pools, State.takeTarget_pools]

theorem State.nextReloc_pools (s : State) (o : Owner) (h : s.poolsOk) : (State.nextReloc s o).poolsOk := by
  unfold State.nextReloc
  grind (splits := 20) [State.poolsOk_iff, State.setReloc_pools, State.askTarget_pools]

theorem State.startReloc_pools (s : State) (o : Owner) (g page i : Nat) (h : s.poolsOk) :
    (State.startReloc s o g page i).poolsOk := by
  unfold State.startReloc
  have h1 : ((s.stc.buffers.filter (fun e =>
      e.2.block == g && e.2.state == .pending && e.2.committed == e.2.data.length)).foldl
        (fun t e => t.setBuf e.1 { e.2 with held := true }) s).poolsOk :=
    foldl_pools _ _ (fun q e he hq =>
      State.setBuf_pools _ _ _ hq (State.buffers_lt h (List.mem_of_mem_filter he))) h
  have h2 := State.dropPrograms_pools _ (fun p => p.block == g) h1
  dsimp only
  grind (splits := 20) [State.poolsOk_iff, State.setBuf_pools, State.askTarget_pools, State.buf?_lt]

theorem State.replaceBlock_pools (s : State) (o : Owner) (failed target : Nat) (h : s.poolsOk) :
    (State.replaceBlock s o failed target).poolsOk := by
  unfold State.replaceBlock
  grind (splits := 20) [State.poolsOk_iff, State.setExtent_pools, State.setRun_pools, State.extent?_lt]

theorem State.moveReads_pools (s : State) (failed target : Nat) (h : s.poolsOk) :
    (State.moveReads s failed target).poolsOk := by
  unfold State.moveReads
  refine foldl_pools _ _ (fun q r _ hq => State.joinLaneRead_pools q r hq) ?_
  refine foldl_pools _ _ (fun q r _ hq => State.joinDeliveryRead_pools q r hq) ?_
  exact State.setBank_pools _ _ _ h (State.bank_holds h _)

theorem State.switchReloc_pools (s : State) (r : Relocation) (t i : Nat) (h : s.poolsOk) :
    (State.switchReloc s r t i).poolsOk := by
  unfold State.switchReloc
  refine State.nextReloc_pools _ _ (State.protectTest_pools _ _ (State.badBlock_pools _ _ (State.moveReads_pools _ _ _
    ?_)))
  refine foldl_pools _ _ (fun q e _ hq => State.offer_pools q _ hq) ?_
  refine foldl_pools _ _ (fun q e he hq =>
    State.setBuf_pools _ _ _ hq (State.buffers_lt h (List.mem_of_mem_filter he))) ?_
  exact State.freeBuf_pools _ _ (State.dropReloc_pools _ _ (State.setBlockState_pools _ _ _
    (State.replaceBlock_pools _ _ _ _ h)))

theorem State.retryReloc_pools (s : State) (r : Relocation) (t i : Nat) (h : s.poolsOk) :
    (State.retryReloc s r t i).poolsOk := by
  unfold State.retryReloc
  grind (splits := 20) [State.poolsOk_iff, State.setBuf_pools, State.badBlock_pools, State.discardWhere_pools,
    State.setReloc_pools, State.askTarget_pools, State.buf?_lt]

theorem State.abandonReloc_pools (s : State) (r : Relocation) (h : s.poolsOk) : (State.abandonReloc s r).poolsOk := by
  unfold State.abandonReloc
  grind (splits := 20) [State.poolsOk_iff, State.withdrawReads_pools, State.retireBlock_pools, State.badBlock_pools,
    State.discardWhere_pools, State.withdrawClaim_pools, State.dropReloc_pools]

theorem State.giveUpBlocks_pools (s : State) (o : Owner) (blocks : List Nat) (h : s.poolsOk) :
    (State.giveUpBlocks s o blocks).poolsOk := by
  unfold State.giveUpBlocks
  refine foldl_pools _ _ (fun q g _ hq => ?_) ?_
  · split
    · exact hq
    · exact State.retireBlock_pools _ _ hq
  · exact State.discardWhere_pools _ _ (foldl_pools _ _ (fun q r _ hq => State.abandonReloc_pools q r hq) h)

theorem State.retireHead_pools (s : State) (slot : Nat) (r : Role) (x : Run) (g : Nat) (rest : List Nat) (h :
    s.poolsOk) :
    (State.retireHead s slot r x g rest).poolsOk := by
  unfold State.retireHead
  have h2 := foldl_pools ((s.discardWhere (fun b => b.block == g)).stc.relocations.filter (fun q => q.failed == g)) _
    (fun q r _ hq => State.abandonReloc_pools q r hq) (State.discardWhere_pools s (fun b => b.block == g) h)
  refine State.nextReloc_pools _ _ (State.setRun_pools _ _ _ _ ?_)
  split
  · exact h2
  · exact State.retireBlock_pools _ _ h2

theorem State.retireHeads_pools (slot : Nat) (r : Role) (n : Nat) (s : State) (h : s.poolsOk) :
    (State.retireHeads s slot r n).poolsOk := by
  induction n generalizing s with
  | zero => exact h
  | succ n ih =>
    unfold State.retireHeads
    (repeat' split) <;> first | exact h | exact ih _ (State.retireHead_pools _ _ _ _ _ _ h)

theorem State.retireTest_pools (s : State) (slot : Nat) (r : Role) (h : s.poolsOk) :
    (State.retireTest s slot r).poolsOk := by
  unfold State.retireTest
  grind (splits := 20) [State.poolsOk_iff, State.retireHeads_pools]

theorem State.releaseRun_pools (s : State) (slot : Nat) (r : Role) (h : s.poolsOk) :
    (State.releaseRun s slot r).poolsOk := by
  unfold State.releaseRun
  grind (splits := 20) [State.poolsOk_iff, State.withdrawClaim_pools, State.giveUpBlocks_pools]

theorem State.takeExtent_pools (s : State) (n slot segment rendition : Nat) (st : ExtentState) (h : s.poolsOk) (hn : n
    < 4096) :
    (State.takeExtent s n slot segment rendition st).poolsOk := by
  unfold State.takeExtent
  exact ⟨h.1, h.2.1, Table.within_put h.2.2.1 hn _, h.2.2.2⟩

theorem State.freeExtentRecord_pools (s : State) (n : Nat) (x : Extent) (h : s.poolsOk) :
    (State.freeExtentRecord s n x).poolsOk := by
  unfold State.freeExtentRecord
  have h1 := State.giveUpBlocks_pools s (.extent n) x.blocks h
  exact ⟨h1.1, h1.2.1, Table.within_del h1.2.2.1 n, h1.2.2.2⟩

theorem State.giveUpExtent_pools (s : State) (n slot segment rendition : Nat) (h : s.poolsOk) :
    (State.giveUpExtent s n slot segment rendition).poolsOk := by
  unfold State.giveUpExtent
  grind (splits := 20) [State.poolsOk_iff, State.freeExtentRecord_pools, State.extentFor_lt, State.freeExtent_lt]

theorem State.releaseExtent_pools (s : State) (n slot segment rendition : Nat) (h : s.poolsOk) :
    (State.releaseExtent s n slot segment rendition).poolsOk := by
  unfold State.releaseExtent
  grind (splits := 20) [State.poolsOk_iff, State.freeExtentRecord_pools, State.extentFor_lt, State.freeExtent_lt]

theorem State.protectExtent_pools (s : State) (n slot segment rendition : Nat) (h : s.poolsOk) :
    (State.protectExtent s n slot segment rendition).poolsOk := by
  unfold State.protectExtent
  split
  · exact h
  · rename_i e
    split
    · exact foldl_pools _ _ (fun q g _ hq => State.protectTest_pools q g hq)
        (State.setExtent_pools _ _ _ h (State.extentFor_lt h e))
    · exact h

theorem State.padBuffer_pools (s : State) (i : Nat) (h : s.poolsOk) : (State.padBuffer s i).poolsOk := by
  unfold State.padBuffer
  grind (splits := 20) [State.poolsOk_iff, State.setBuf_pools, State.offer_pools, State.buf?_lt]

theorem State.sealTail_pools (s : State) (o : Owner) (blocks : List Nat) (h : s.poolsOk) :
    (State.sealTail s o blocks).poolsOk := by
  unfold State.sealTail
  grind (splits := 20) [State.poolsOk_iff, State.setBlockState_pools, State.padBuffer_pools]

theorem State.closeExtent_pools (s : State) (n slot segment rendition : Nat) (h : s.poolsOk) :
    (State.closeExtent s n slot segment rendition).poolsOk := by
  unfold State.closeExtent
  grind (splits := 20) [State.poolsOk_iff, State.setExtent_pools, State.sealTail_pools, State.extentFor_lt]

theorem State.commitExtent_pools (s : State) (n : Nat) (x : Extent) (length : Nat) (h : s.poolsOk) (hn : n < 4096) :
    (State.commitExtent s n x length).poolsOk := by
  unfold State.commitExtent
  refine foldl_pools _ _ (fun q e _ hq => State.offer_pools q _ hq) ?_
  refine foldl_pools _ _ (fun q e he hq =>
    State.setBuf_pools _ _ _ hq (State.buffers_lt h (List.mem_of_mem_filter he))) ?_
  exact State.setExtent_pools _ _ _ h hn

theorem State.appendRunBlock_pools (s : State) (slot : Nat) (r : Role) (x : Run) (g : Nat) (h : s.poolsOk) :
    (State.appendRunBlock s slot r x g).poolsOk := by
  unfold State.appendRunBlock
  grind (splits := 20) [State.poolsOk_iff, State.setRun_pools, State.setBlockState_pools, State.takeBlock_pools,
    State.retireTest_pools]

theorem State.appendExtentBlock_pools (s : State) (n : Nat) (x : Extent) (g : Nat) (h : s.poolsOk) (hn : n < 4096) :
    (State.appendExtentBlock s n x g).poolsOk := by
  unfold State.appendExtentBlock
  grind (splits := 20) [State.poolsOk_iff, State.setExtent_pools, State.setBlockState_pools, State.takeBlock_pools]

theorem State.pageCopied_pools (s : State) (o : Owner) (page : Nat) (h : s.poolsOk) :
    (State.pageCopied s o page).poolsOk := by
  unfold State.pageCopied
  grind (splits := 20) [State.poolsOk_iff, State.setReloc_pools]

theorem State.programDone_pools (s : State) (p : ProgramReq) (buf : Buf) (h : s.poolsOk) :
    (State.programDone s p buf).poolsOk := by
  unfold State.programDone
  grind (splits := 20) [State.poolsOk_iff, State.freeBuf_pools, State.programPage_pools, State.protectTest_pools,
    State.switchReloc_pools, State.pageCopied_pools]

theorem State.programFailed_pools (s : State) (p : ProgramReq) (buf : Buf) (h : s.poolsOk) :
    (State.programFailed s p buf).poolsOk := by
  unfold State.programFailed
  grind (splits := 20) [State.poolsOk_iff, State.freeBuf_pools, State.setBank_pools, State.badBlock_pools,
    State.startReloc_pools, State.retryReloc_pools, State.bank_holds, Bank.holds]

theorem State.endProgram_pools (s : State) (b : Nat) (p : ProgramReq) (success : Bool) (h : s.poolsOk) :
    (State.endProgram s b p success).poolsOk := by
  unfold State.endProgram
  grind (splits := 20) [State.poolsOk_iff, State.setBank_pools, State.arbitrate_pools, State.programDone_pools,
    State.programFailed_pools, State.buf?_lt, State.bank_holds, Bank.holds]

theorem State.writePlace_pools (s : State) (k : Nat) (bs : List Byte) (h : s.poolsOk) :
    (State.writePlace s k bs).poolsOk := by
  unfold State.writePlace
  grind (splits := 20) [State.poolsOk_iff]

theorem State.endAppend_pools (s : State) (b g k : Nat) (success : Bool) (left : List Byte) (h : s.poolsOk) :
    (State.endAppend s b g k success left).poolsOk := by
  unfold State.endAppend
  dsimp only
  split
  · exact State.arbitrate_pools _ _ (State.setBank_pools _ _ _ h (State.bank_holds h b))
  · exact State.arbitrate_pools _ _ (State.setBank_pools _ _ _ h (State.bank_holds h b))

theorem State.scrubCount_pools (s : State) (scrub : Bool) (h : s.poolsOk) : (State.scrubCount s scrub).poolsOk := by
  unfold State.scrubCount
  grind (splits := 20) [State.poolsOk_iff, State.storeEvent_pools, State.evalLevels_pools]

theorem State.endErase_pools (s : State) (b : Nat) (e : Erase) (success : Bool) (h : s.poolsOk)
    (he : bankOf e.block = b) : (s.endErase b e success).poolsOk := by
  unfold State.endErase
  have hb := State.bank_holds h b
  have h1 : (s.setBank b { s.bank b with erase := none }).poolsOk :=
    State.setBank_pools _ _ _ h ⟨hb.1, hb.2.1, fun _ h => by cases h⟩
  refine State.arbitrate_pools _ _ (State.scrubCount_pools _ _ (State.evalLevels_pools _ ?_))
  split
  · refine State.setBank_pools _ _ _ h1 ?_
    have hc := State.bank_holds h1 b
    refine ⟨fun g hg => ?_, hc.2⟩
    rcases List.mem_append.1 hg with hg | hg
    · exact hc.1 g hg
    · exact List.mem_singleton.1 hg ▸ he
  · exact State.badBlock_pools _ _ h1

theorem State.relocRead_pools (s : State) (o : Owner) (r : ReadReq) (errors : List Nat) (h : s.poolsOk) :
    (State.relocRead s o r errors).poolsOk := by
  unfold State.relocRead
  split
  · exact h
  · split
    · exact h
    · refine foldl_pools _ _ (fun q p _ hq => ?_) h
      dsimp only
      split
      · exact hq
      · rename_i e he
        have := State.buffers_lt hq (List.mem_of_find?_eq_some he)
        split
        · exact State.pageCopied_pools _ _ _ (State.losePages_pools _ _ _ (State.freeBuf_pools _ _ hq))
        · exact State.offer_pools _ _ (State.setBuf_pools _ _ _ hq this)

/-! ### Runs -/

theorem State.runBlock_pools (s : State) (slot : Nat) (r : Role) (x : Run) (pos : Nat) (h : s.poolsOk) :
    (State.runBlock s slot r x pos).1.poolsOk := by
  unfold State.runBlock
  grind (splits := 20) [State.poolsOk_iff, State.addClaim_pools, State.appendRunBlock_pools]

theorem State.runBuffer_pools (s : State) (slot : Nat) (r : Role) (pos : Nat) (h : s.poolsOk) :
    (State.runBuffer s slot r pos).1.poolsOk := by
  unfold State.runBuffer
  grind (splits := 20) [State.poolsOk_iff, State.giveBuffer_pools, State.addClaim_pools]

theorem State.runReady_pools (s : State) (slot : Nat) (r : Role) (pos : Nat) (h : s.poolsOk) :
    (State.runReady s slot r pos).1.poolsOk := by
  unfold State.runReady
  grind (splits := 20) [State.poolsOk_iff, State.runBlock_pools, State.runBuffer_pools]

theorem State.putRun_pools (s : State) (slot : Nat) (r : Role) (bs : List Byte) (h : s.poolsOk) :
    (State.putRun s slot r bs).poolsOk := by
  unfold State.putRun
  grind (splits := 20) [State.poolsOk_iff, State.setIntake_pools, State.setBuf_pools, State.offer_pools, State.buf?_lt]

theorem State.writeRun_pools (slot : Nat) (r : Role) (n : Nat) (bs : List Byte) (s : State) (h : s.poolsOk) :
    (State.writeRun slot r n bs s).1.poolsOk := by
  induction n generalizing s bs with
  | zero => exact h
  | succ n ih =>
    unfold State.writeRun
    split
    · exact h
    · dsimp only
      split
      · exact ih _ _ (State.putRun_pools _ _ _ _ (State.runReady_pools _ _ _ _ h))
      · exact State.runReady_pools _ _ _ _ h

theorem State.writeBytes_pools (s : State) (slot : Nat) (r : Role) (bs : List Byte) (h : s.poolsOk) :
    (State.writeBytes s slot r bs).1.poolsOk := by
  unfold State.writeBytes
  grind (splits := 20) [State.poolsOk_iff, State.writeRun_pools]

theorem State.startOverrun_pools (s : State) (slot : Nat) (r : Role) (h : s.poolsOk) :
    (State.startOverrun s slot r).poolsOk := by
  unfold State.startOverrun
  grind (splits := 20) [State.poolsOk_iff, State.send_pools, State.setIntake_pools, State.raise_pools]

theorem State.noticeUnit_pools (s : State) (slot : Nat) (r : Role) (stamp : Stamp) (key good : Bool) (start : Nat) (h
    : s.poolsOk) :
    (State.noticeUnit s slot r stamp key good start).poolsOk := by
  unfold State.noticeUnit
  grind (splits := 20) [State.poolsOk_iff, State.send_pools, State.setIntake_pools, State.setBuf_pools, State.buf?_lt]

theorem State.completeUnit_pools (s : State) (slot : Nat) (r : Role) (u : BrokenUnit) (h : s.poolsOk) :
    (State.completeUnit s slot r u).1.poolsOk := by
  unfold State.completeUnit
  grind (splits := 20) [State.poolsOk_iff, State.writeBytes_pools, State.noticeUnit_pools]

theorem State.holdBroken_pools (s : State) (slot : Nat) (r : Role) (u : BrokenUnit) (h : s.poolsOk) :
    (State.holdBroken s slot r u).poolsOk := by
  unfold State.holdBroken
  grind (splits := 20) [State.poolsOk_iff, State.setIntake_pools]

theorem State.refusedInUnit_pools (s : State) (slot : Nat) (r : Role) (good : Bool) (h : s.poolsOk) :
    (State.refusedInUnit s slot r good).poolsOk := by
  unfold State.refusedInUnit
  grind (splits := 20) [State.poolsOk_iff, State.received_pools, State.startOverrun_pools, State.holdBroken_pools]

theorem State.finishUnit_pools (s : State) (slot : Nat) (r : Role) (h : s.poolsOk) :
    (State.finishUnit s slot r).poolsOk := by
  unfold State.finishUnit
  grind (splits := 20) [State.poolsOk_iff, State.received_pools, State.setIntake_pools, State.writeBytes_pools,
    State.noticeUnit_pools, State.refusedInUnit_pools]

theorem State.breakUnit_pools (s : State) (slot : Nat) (r : Role) (h : s.poolsOk) :
    (State.breakUnit s slot r).poolsOk := by
  unfold State.breakUnit
  grind (splits := 20) [State.poolsOk_iff, State.received_pools, State.setIntake_pools, State.startOverrun_pools,
    State.completeUnit_pools, State.holdBroken_pools]

theorem State.skipUnit_pools (s : State) (slot : Nat) (r : Role) (hd : List Byte) (h : s.poolsOk) :
    (State.skipUnit s slot r hd).poolsOk := by
  unfold State.skipUnit
  grind (splits := 20) [State.poolsOk_iff, State.received_pools, State.setIntake_pools]

theorem State.appendUnit_pools (s : State) (slot : Nat) (r : Role) (hd : List Byte) (h : s.poolsOk) :
    (State.appendUnit s slot r hd).poolsOk := by
  unfold State.appendUnit
  grind (splits := 20) [State.poolsOk_iff, State.setDiscard_pools, State.received_pools, State.setIntake_pools,
    State.writeBytes_pools, State.startOverrun_pools, State.refusedInUnit_pools, State.finishUnit_pools]

theorem State.unitFate_pools (s : State) (slot : Nat) (r : Role) (hd : List Byte) (h : s.poolsOk) :
    (State.unitFate s slot r hd).poolsOk := by
  unfold State.unitFate
  grind (splits := 20) [State.poolsOk_iff, State.send_pools, State.setIntake_pools, State.skipUnit_pools,
    State.appendUnit_pools]

theorem State.testHeader_pools (s : State) (slot : Nat) (r : Role) (hd : List Byte) (h : s.poolsOk) :
    (State.testHeader s slot r hd).poolsOk := by
  unfold State.testHeader
  grind (splits := 20) [State.poolsOk_iff, State.setIntake_pools, State.unitFate_pools]

theorem State.bodyByte_pools (s : State) (slot : Nat) (r : Role) (x : IntakeRec) (b : Byte) (h : s.poolsOk) :
    (State.bodyByte s slot r x b).poolsOk := by
  unfold State.bodyByte
  grind (splits := 20) [State.poolsOk_iff, State.received_pools, State.setIntake_pools, State.writeBytes_pools,
    State.refusedInUnit_pools, State.finishUnit_pools]

theorem State.takeByte_pools (slot : Nat) (r : Role) (s : State) (b : Byte) (h : s.poolsOk) :
    (State.takeByte slot r s b).poolsOk := by
  unfold State.takeByte
  grind (splits := 20) [State.poolsOk_iff, State.setIntake_pools, State.testHeader_pools, State.bodyByte_pools]

theorem State.takeCell_pools (s : State) (entry : ForwardEntry) (bytes : List Byte) (h : s.poolsOk) :
    (State.takeCell s entry bytes).poolsOk := by
  unfold State.takeCell
  split
  · exact h
  · split
    · exact foldl_pools _ _ (fun q b _ hq => State.takeByte_pools _ _ q b hq) h
    · exact h

theorem State.lossRecord_pools (s : State) (slot : Nat) (r : Role) (h : s.poolsOk) :
    (State.lossRecord s slot r).poolsOk := by
  unfold State.lossRecord
  grind (splits := 20) [State.poolsOk_iff, State.setIntake_pools, State.breakUnit_pools]

theorem State.intakeLoss_pools (s : State) (h : s.poolsOk) : (State.intakeLoss s).poolsOk := by
  unfold State.intakeLoss
  refine foldl_pools _ _ (fun q k _ hq => State.lossRecord_pools q k.1 k.2 hq) ?_
  exact foldl_pools _ _ (fun q c _ hq => State.takeCell_pools q c.1 c.2 hq) h

theorem State.closeRunTail_pools (s : State) (slot : Nat) (r : Role) (h : s.poolsOk) :
    (State.closeRunTail s slot r).poolsOk := by
  unfold State.closeRunTail
  grind (splits := 20) [State.poolsOk_iff, State.setRun_pools, State.sealTail_pools]

theorem State.closeRole_pools (s : State) (slot : Nat) (r : Role) (h : s.poolsOk) :
    (State.closeRole s slot r).poolsOk := by
  unfold State.closeRole
  grind (splits := 20) [State.poolsOk_iff, State.setIntake_pools, State.withdrawClaim_pools, State.breakUnit_pools,
    State.closeRunTail_pools]

theorem State.dropRole_pools (s : State) (slot : Nat) (r : Role) (h : s.poolsOk) :
    (State.dropRole s slot r).poolsOk := by
  unfold State.dropRole
  grind (splits := 20) [State.poolsOk_iff, State.setIntake_pools]

theorem State.overrunGranted_pools (s : State) (slot : Nat) (r : Role) (h : s.poolsOk) :
    (State.overrunGranted s slot r).poolsOk := by
  unfold State.overrunGranted
  grind (splits := 20) [State.poolsOk_iff, State.setIntake_pools, State.completeUnit_pools, State.closeRunTail_pools]

/-! ### Claims -/

theorem State.laneFill_pools (s : State) (n : Nat) (h : s.poolsOk) : (State.laneFill s n).poolsOk := by
  unfold State.laneFill
  grind (splits := 20) [State.poolsOk_iff, State.setLane_pools, State.setBuf_pools, State.buf?_lt, State.laneExtent_lt]

theorem State.laneTakeBuffer_pools (s : State) (n e : Nat) (x : Extent) (h : s.poolsOk) :
    (State.laneTakeBuffer s n e x).poolsOk := by
  unfold State.laneTakeBuffer
  grind (splits := 20) [State.poolsOk_iff, State.giveBuffer_pools, State.laneFill_pools]

theorem State.unhold_pools (s : State) (n : Nat) (h : s.poolsOk) : (State.unhold s n).poolsOk := by
  unfold State.unhold
  grind (splits := 20) [State.poolsOk_iff, State.setLane_pools]

theorem State.hold_pools (s : State) (n : Nat) (kind : ClaimKind) (h : s.poolsOk) : (State.hold s n kind).poolsOk := by
  unfold State.hold
  grind (splits := 20) [State.poolsOk_iff, State.setLane_pools, State.addClaim_pools]

theorem State.giveRun_pools (s : State) (slot : Nat) (r : Role) (kind : ClaimKind) (h : s.poolsOk) :
    (State.giveRun s slot r kind).poolsOk := by
  unfold State.giveRun
  grind (splits := 20) [State.poolsOk_iff, State.runBlock_pools, State.runBuffer_pools]

theorem State.giveLane_pools (s : State) (n : Nat) (kind : ClaimKind) (h : s.poolsOk) :
    (State.giveLane s n kind).poolsOk := by
  unfold State.giveLane
  grind (splits := 20) [State.poolsOk_iff, State.appendExtentBlock_pools, State.laneTakeBuffer_pools,
    State.unhold_pools, State.laneExtent_lt]

theorem State.grant_pools (s : State) (c : Claim) (h : s.poolsOk) : (State.grant s c).poolsOk := by
  unfold State.grant
  grind (splits := 20) [State.poolsOk_iff, State.withdrawClaim_pools, State.copyOn_pools, State.askTarget_pools,
    State.giveRun_pools, State.giveLane_pools]

theorem State.serveLoop_pools (n : Nat) (s : State) (h : s.poolsOk) : (State.serveLoop n s).poolsOk := by
  induction n generalizing s with
  | zero => exact h
  | succ n ih =>
    unfold State.serveLoop
    split
    · exact h
    · exact ih _ (State.grant_pools _ _ h)

theorem State.resumeCopies_pools (s : State) (h : s.poolsOk) : (State.resumeCopies s).poolsOk := by
  unfold State.resumeCopies
  refine foldl_pools _ _ (fun q r _ hq => ?_) h
  split
  · exact State.copyOn_pools _ _ _ hq
  · exact hq

theorem State.endOverruns_pools (s : State) (before : List Claim) (h : s.poolsOk) :
    (State.endOverruns s before).poolsOk := by
  unfold State.endOverruns
  refine foldl_pools _ _ (fun q c _ hq => ?_) h
  split
  · exact State.overrunGranted_pools _ _ _ hq
  · exact hq

theorem State.serveClaims_pools (s : State) (h : s.poolsOk) : (State.serveClaims s).poolsOk := by
  unfold State.serveClaims
  grind (splits := 20) [State.poolsOk_iff, State.serveLoop_pools, State.resumeCopies_pools, State.endOverruns_pools]

/-! ### Jobs -/

theorem State.evalLaneFailed_pools (s : State) (h : s.poolsOk) : (State.evalLaneFailed s).poolsOk := by
  unfold State.evalLaneFailed
  grind (splits := 20) [State.poolsOk_iff, State.level_pools]

theorem Jdp.setList_jobs (d : Jdp) (c : LectureClass) (l : List Nat) : (d.setList c l).jobs = d.jobs := by
  cases c <;> rfl

theorem State.jdp_pools (s : State) (d : Jdp) (h : s.poolsOk) (hd : d.jobs.within 256) :
    State.poolsOk { s with jdp := d } := ⟨hd, h.2⟩

theorem State.createJob_pools (s : State) (j : Job) (h : s.poolsOk) : (s.createJob j).poolsOk := by
  unfold State.createJob
  split
  · exact h
  · rename_i e
    refine State.jdp_pools _ _ h ?_
    rw [Jdp.setList_jobs]
    exact (State.setJob_pools s _ j h (Table.freeFrom_lt e)).1

theorem State.unlistJob_pools (s : State) (k : Nat) (h : s.poolsOk) : (State.unlistJob s k).poolsOk := by
  unfold State.unlistJob
  grind (splits := 20) [State.poolsOk_iff]

theorem State.freeJob_pools (s : State) (k : Nat) (h : s.poolsOk) : (s.freeJob k).poolsOk :=
  ⟨Table.within_del h.1 k, h.2⟩

theorem State.returnJob_pools (s : State) (k : Nat) (j : Job) (h : s.poolsOk) (hk : k < 256) :
    (s.returnJob k j).poolsOk := by
  unfold State.returnJob
  split
  · exact State.freeJob_pools _ _ h
  · refine State.jdp_pools _ _ h ?_
    rw [Jdp.setList_jobs]
    exact (State.setJob_pools s k _ h hk).1

theorem State.clearYield_pools (s : State) (n : Nat) (h : s.poolsOk) : (State.clearYield s n).poolsOk := by
  unfold State.clearYield
  grind (splits := 20) [State.poolsOk_iff]

theorem State.overtake_pools (s : State) (n : Nat) (h : s.poolsOk) : (State.overtake s n).poolsOk := by
  unfold State.overtake
  grind (splits := 20) [State.poolsOk_iff, State.setLane_pools, State.received_pools, State.withdrawReads_pools,
    State.discardUncommitted_pools, State.withdrawClaim_pools, State.clearYield_pools, State.laneExtent_lt]

theorem State.laneWithout_pools (s : State) (n : Nat) (st : LaneState) (h : s.poolsOk) :
    (State.laneWithout s n st).poolsOk := by
  unfold State.laneWithout
  grind (splits := 20) [State.poolsOk_iff, State.setLane_pools, State.received_pools, State.laneEvent_pools]

theorem State.failJob_pools (s : State) (k : Nat) (j : Job) (reason : FailReason) (h : s.poolsOk) :
    (State.failJob s k j reason).poolsOk := by
  unfold State.failJob
  grind (splits := 20) [State.poolsOk_iff, State.send_pools, State.raise_pools, State.giveUpExtent_pools,
    State.freeJob_pools]

theorem State.failLaneJob_pools (s : State) (n : Nat) (reason : FailReason) (h : s.poolsOk) :
    (State.failLaneJob s n reason).poolsOk := by
  unfold State.failLaneJob
  grind (splits := 20) [State.poolsOk_iff, State.overtake_pools, State.laneWithout_pools, State.failJob_pools,
    State.job?_lt, State.laneJob_lt]

theorem State.returnLaneJob_pools (s : State) (n : Nat) (st : LaneState) (h : s.poolsOk) :
    (State.returnLaneJob s n st).poolsOk := by
  unfold State.returnLaneJob
  grind (splits := 20) [State.poolsOk_iff, State.returnJob_pools, State.overtake_pools, State.laneWithout_pools,
    State.job?_lt, State.laneJob_lt]

theorem State.finishJob_pools (s : State) (k : Nat) (j : Job) (e : Nat) (h : s.poolsOk) :
    (State.finishJob s k j e).poolsOk := by
  unfold State.finishJob
  grind (splits := 20) [State.poolsOk_iff, State.send_pools, State.closeExtent_pools, State.freeJob_pools]

theorem State.startChunk_pools (s : State) (n : Nat) (j : Job) (k : Nat) (positions : PerRole (Option Nat)) (h :
    s.poolsOk) :
    (State.startChunk s n j k positions).poolsOk := by
  unfold State.startChunk
  grind (splits := 20) [State.poolsOk_iff, State.setLane_pools, State.received_pools]

theorem State.startWalk_pools (s : State) (n : Nat) (j : Job) (starts : PerRole (Option Nat)) (h : s.poolsOk) :
    (State.startWalk s n j starts).poolsOk := by
  unfold State.startWalk
  grind (splits := 20) [State.poolsOk_iff, State.setLane_pools, State.received_pools]

theorem State.beginJob_pools (s : State) (n : Nat) (j : Job) (h : s.poolsOk) : (State.beginJob s n j).poolsOk := by
  unfold State.beginJob
  grind (splits := 20) [State.poolsOk_iff, State.startChunk_pools, State.startWalk_pools]

theorem State.waitExtent_pools (s : State) (k : Nat) (h : s.poolsOk) : (State.waitExtent s k).poolsOk := by
  unfold State.waitExtent
  grind (splits := 20) [State.poolsOk_iff]

theorem State.handOver_pools (s : State) (n k : Nat) (j : Job) (h : s.poolsOk) (hk : k < 256) :
    (State.handOver s n k j).1.poolsOk := by
  unfold State.handOver
  grind (splits := 20) [State.poolsOk_iff, State.setLane_pools, State.setJob_pools, State.laneEvent_pools,
    State.unlistJob_pools, State.beginJob_pools]

theorem State.offerJob_pools (s : State) (n k : Nat) (h : s.poolsOk) : (State.offerJob s n k).1.poolsOk := by
  unfold State.offerJob
  grind (splits := 20) [State.poolsOk_iff, State.setJob_pools, State.takeExtent_pools, State.unlistJob_pools,
    State.finishJob_pools, State.waitExtent_pools, State.handOver_pools, State.job?_lt, State.laneJob_lt,
    State.freeExtent_lt]

theorem State.dispatchLoop_pools (n : Nat) (s : State) (h : s.poolsOk) : (State.dispatchLoop n s).poolsOk := by
  induction n generalizing s with
  | zero => exact h
  | succ n ih =>
    unfold State.dispatchLoop
    dsimp only
    (repeat' split) <;> first | exact h | exact State.offerJob_pools _ _ _ h | exact ih _ (State.offerJob_pools _ _ _ h)

theorem State.withdrawYields_pools (n : Nat) (s : State) (h : s.poolsOk) : (State.withdrawYields n s).poolsOk := by
  induction n generalizing s with
  | zero => exact h
  | succ n ih =>
    unfold State.withdrawYields
    dsimp only
    (repeat' split) <;> first | exact h | exact ih _ h

theorem State.setYields_pools (n : Nat) (s : State) (h : s.poolsOk) : (State.setYields n s).poolsOk := by
  induction n generalizing s with
  | zero => exact h
  | succ n ih =>
    unfold State.setYields
    dsimp only
    (repeat' split) <;> first | exact h | exact ih _ h

theorem State.settle_pools (s : State) (h : s.poolsOk) : (State.settle s).poolsOk := by
  unfold State.settle
  grind (splits := 20) [State.poolsOk_iff, State.dispatchLoop_pools, State.withdrawYields_pools, State.setYields_pools]

theorem State.takeLive_pools (n fuel : Nat) (s : State) (h : s.poolsOk) : (State.takeLive n fuel s).poolsOk := by
  induction fuel generalizing s with
  | zero => exact State.laneWithout_pools _ _ _ h
  | succ f ih =>
    unfold State.takeLive
    dsimp only
    (repeat' split) <;> first
      | exact State.laneWithout_pools _ _ _ h
      | exact State.offerJob_pools _ _ _ h
      | exact State.laneWithout_pools _ _ _ (State.offerJob_pools _ _ _ h)
      | exact ih _ (State.offerJob_pools _ _ _ h)

theorem State.commitChunk_pools (s : State) (n k : Nat) (j : Job) (h : s.poolsOk) (hk : k < 256) :
    (State.commitChunk s n k j).poolsOk := by
  unfold State.commitChunk
  grind (splits := 20) [State.poolsOk_iff, State.setLane_pools, State.setJob_pools, State.withdrawReads_pools,
    State.commitExtent_pools, State.laneExtent_lt]

theorem State.afterCommit_pools (s : State) (n k : Nat) (j : Job) (h : s.poolsOk) (hk : k < 256) :
    (State.afterCommit s n k j).poolsOk := by
  unfold State.afterCommit
  grind (splits := 20) [State.poolsOk_iff, State.setLane_pools, State.returnJob_pools, State.clearYield_pools,
    State.laneWithout_pools, State.finishJob_pools, State.startChunk_pools, State.takeLive_pools]

/-! ### Segments -/

theorem State.modLecture_pools (s : State) (slot : Nat) (f : Lecture → Lecture) (h : s.poolsOk) :
    (State.modLecture s slot f).poolsOk := by
  unfold State.modLecture
  grind (splits := 20) [State.poolsOk_iff, State.setLecture_pools]

theorem State.setStretch_pools (s : State) (slot : Nat) (m : Stretch) (h : s.poolsOk) :
    (State.setStretch s slot m).poolsOk := by
  unfold State.setStretch
  grind (splits := 20) [State.poolsOk_iff, State.setDiscard_pools, State.setLecture_pools]

theorem State.endStretch_pools (s : State) (slot : Nat) (h : s.poolsOk) : (State.endStretch s slot).poolsOk := by
  unfold State.endStretch
  grind (splits := 20) [State.poolsOk_iff, State.setStretch_pools]

theorem State.moveStretch_pools (s : State) (slot : Nat) (h : s.poolsOk) : (State.moveStretch s slot).poolsOk := by
  unfold State.moveStretch
  grind (splits := 20) [State.poolsOk_iff, State.setStretch_pools]

theorem State.presentMark_pools (slot : Nat) (s : State) (r : Role) (h : s.poolsOk) :
    (State.presentMark slot s r).poolsOk := by
  unfold State.presentMark
  grind (splits := 20) [State.poolsOk_iff, State.setLecture_pools, State.send_pools]

theorem State.presentMarks_pools (s : State) (slot : Nat) (h : s.poolsOk) : (State.presentMarks s slot).poolsOk := by
  unfold State.presentMarks
  split
  · exact h
  · exact foldl_pools _ _ (fun q r _ hq => State.presentMark_pools _ q r hq) h

theorem State.createJobs_pools (s : State) (slot : Nat) (l : Lecture) (g : Segment) (h : s.poolsOk) :
    (State.createJobs s slot l g).poolsOk := by
  unfold State.createJobs
  exact foldl_pools _ _ (fun q p _ hq => State.createJob_pools q _ hq) h

theorem State.admitSegment_pools (s : State) (slot n : Nat) (h : s.poolsOk) :
    (State.admitSegment s slot n).poolsOk := by
  unfold State.admitSegment
  grind (splits := 20) [State.poolsOk_iff, State.setLecture_pools, State.settle_pools, State.createJobs_pools]

theorem State.admitLoop_pools (n : Nat) (s : State) (h : s.poolsOk) : (State.admitLoop n s).poolsOk := by
  induction n generalizing s with
  | zero => exact h
  | succ n ih =>
    unfold State.admitLoop
    (repeat' split) <;> first | exact h | exact ih _ (State.admitSegment_pools _ _ _ h)

theorem State.tryAdmission_pools (s : State) (h : s.poolsOk) : (State.tryAdmission s).poolsOk := by
  unfold State.tryAdmission
  grind (splits := 20) [State.poolsOk_iff, State.admitLoop_pools]

theorem State.joinAdmission_pools (s : State) (c : LectureClass) (slot n : Nat) (h : s.poolsOk) :
    (State.joinAdmission s c slot n).poolsOk := by
  unfold State.joinAdmission
  grind (splits := 20) [State.poolsOk_iff]

theorem State.sealSegment_pools (s : State) (slot n : Nat) (h : s.poolsOk) : (State.sealSegment s slot n).poolsOk := by
  unfold State.sealSegment
  grind (splits := 20) [State.poolsOk_iff, State.setLecture_pools, State.moveStretch_pools, State.tryAdmission_pools,
    State.joinAdmission_pools]

theorem State.endOpen_pools (s : State) (slot : Nat) (h : s.poolsOk) : (State.endOpen s slot).poolsOk := by
  unfold State.endOpen
  grind (splits := 20) [State.poolsOk_iff, State.setLecture_pools, State.endStretch_pools, State.sealSegment_pools]

theorem State.openNext_pools (s : State) (slot : Nat) (lead : Option Stamp) (ranges : PerRole RoleRange) (h :
    s.poolsOk) :
    (State.openNext s slot lead ranges).poolsOk := by
  unfold State.openNext
  grind (splits := 20) [State.poolsOk_iff, State.setLecture_pools, State.endStretch_pools]

theorem State.closeLecture_pools (s : State) (slot : Nat) (h : s.poolsOk) : (State.closeLecture s slot).poolsOk := by
  unfold State.closeLecture
  split
  · exact h
  · exact State.send_pools _ _ (foldl_pools _ _ (fun q r _ hq => State.closeRole_pools q slot r hq)
      (State.lectureEvent_pools _ _ h))

theorem State.testClosed_pools (s : State) (slot : Nat) (h : s.poolsOk) : (State.testClosed s slot).poolsOk := by
  unfold State.testClosed
  grind (splits := 20) [State.poolsOk_iff, State.closeLecture_pools]

theorem State.enterEnding_pools (s : State) (slot : Nat) (h : s.poolsOk) : (State.enterEnding s slot).poolsOk := by
  unfold State.enterEnding
  grind (splits := 20) [State.poolsOk_iff, State.lectureEvent_pools, State.modLecture_pools, State.testClosed_pools]

theorem State.stall_pools (s : State) (slot : Nat) (h : s.poolsOk) : (State.stall s slot).poolsOk := by
  unfold State.stall
  grind (splits := 20) [State.poolsOk_iff, State.lectureEvent_pools, State.modLecture_pools, State.endOpen_pools]

theorem State.failover_pools (s : State) (slot : Nat) (h : s.poolsOk) : (State.failover s slot).poolsOk := by
  unfold State.failover
  grind (splits := 20) [State.poolsOk_iff, State.setLecture_pools, State.lectureEvent_pools, State.setStretch_pools]

theorem State.fileCutting_pools (s : State) (slot : Nat) (l : Lecture) (g : Segment) (u : FiledUnit) (h : s.poolsOk) :
    (State.fileCutting s slot l g u).1.poolsOk := by
  unfold State.fileCutting
  grind (splits := 20) [State.poolsOk_iff, State.setLecture_pools, State.sealSegment_pools]

theorem State.leadCut_pools (s : State) (slot : Nat) (l : Lecture) (g : Segment) (u : FiledUnit) (h : s.poolsOk) :
    (State.leadCut s slot l g u).poolsOk := by
  unfold State.leadCut
  grind (splits := 20) [State.poolsOk_iff, State.setLecture_pools, State.endStretch_pools, State.sealSegment_pools,
    State.openNext_pools, State.enterEnding_pools]

theorem State.startStretch_pools (s : State) (slot : Nat) (l : Lecture) (g : Segment) (h : s.poolsOk) :
    (State.startStretch s slot l g).poolsOk := by
  unfold State.startStretch
  grind (splits := 20) [State.poolsOk_iff, State.setLecture_pools, State.setStretch_pools]

theorem State.fileLead_pools (s : State) (slot : Nat) (l : Lecture) (g : Segment) (u : FiledUnit) (h : s.poolsOk) :
    (State.fileLead s slot l g u).poolsOk := by
  unfold State.fileLead
  grind (splits := 20) [State.poolsOk_iff, State.setLecture_pools, State.leadCut_pools, State.startStretch_pools]

theorem State.fileOther_pools (s : State) (slot : Nat) (l : Lecture) (g : Segment) (u : FiledUnit) (h : s.poolsOk) :
    (State.fileOther s slot l g u).poolsOk := by
  unfold State.fileOther
  grind (splits := 20) [State.poolsOk_iff, State.setLecture_pools]

theorem State.fileOpen_pools (s : State) (slot : Nat) (u : FiledUnit) (h : s.poolsOk) :
    (State.fileOpen s slot u).poolsOk := by
  unfold State.fileOpen
  grind (splits := 20) [State.poolsOk_iff, State.setLecture_pools, State.fileLead_pools, State.fileOther_pools]

theorem State.fileUnit_pools (s : State) (slot : Nat) (u : FiledUnit) (h : s.poolsOk) :
    (State.fileUnit s slot u).poolsOk := by
  unfold State.fileUnit
  grind (splits := 20) [State.poolsOk_iff, State.fileCutting_pools, State.fileOpen_pools]

theorem State.openDue_pools (s : State) (slot : Nat) (h : s.poolsOk) : (State.openDue s slot).poolsOk := by
  unfold State.openDue
  grind (splits := 20) [State.poolsOk_iff, State.openNext_pools]

theorem State.resume_pools (s : State) (slot : Nat) (h : s.poolsOk) : (State.resume s slot).poolsOk := by
  unfold State.resume
  grind (splits := 20) [State.poolsOk_iff, State.setLecture_pools, State.lectureEvent_pools, State.enterEnding_pools,
    State.openDue_pools]

theorem State.startLecture_pools (s : State) (slot : Nat) (u : FiledUnit) (h : s.poolsOk) :
    (State.startLecture s slot u).poolsOk := by
  unfold State.startLecture
  grind (splits := 20) [State.poolsOk_iff, State.lectureEvent_pools, State.modLecture_pools, State.openNext_pools]

theorem State.useNotice_pools (s : State) (slot : Nat) (n : UnitNotice) (h : s.poolsOk) :
    (State.useNotice s slot n).poolsOk := by
  unfold State.useNotice
  grind (splits := 20) [State.poolsOk_iff, State.fileUnit_pools, State.startLecture_pools]

theorem State.takeNotice_pools (s : State) (n : UnitNotice) (h : s.poolsOk) : (State.takeNotice s n).poolsOk := by
  unfold State.takeNotice
  grind (splits := 20) [State.poolsOk_iff, State.setLecture_pools, State.presentMarks_pools, State.failover_pools,
    State.resume_pools, State.useNotice_pools]

/-! ### Publication -/

theorem State.publishHead_pools (s : State) (slot : Nat) (l : Lecture) (g : Segment) (h : s.poolsOk) :
    (State.publishHead s slot l g).poolsOk := by
  unfold State.publishHead
  refine foldl_pools _ _ (fun q e _ hq => ?_) h
  split
  · exact hq
  · exact State.protectExtent_pools _ _ _ _ _ hq

theorem State.joinWaiting_pools (s : State) (slot : Nat) (h : s.poolsOk) : (State.joinWaiting s slot).poolsOk := by
  unfold State.joinWaiting
  grind (splits := 20) [State.poolsOk_iff]

theorem State.publishLoop_pools (slot n : Nat) (s : State) (h : s.poolsOk) : (State.publishLoop slot n s).poolsOk := by
  induction n generalizing s with
  | zero => exact h
  | succ n ih =>
    unfold State.publishLoop
    (repeat' split) <;> first
      | exact h
      | exact ih _ (State.publishHead_pools _ _ _ _ h)
      | exact State.joinWaiting_pools _ _ h

theorem State.afterPublication_pools (s : State) (slot : Nat) (h : s.poolsOk) :
    (State.afterPublication s slot).poolsOk := by
  unfold State.afterPublication
  grind (splits := 20) [State.poolsOk_iff, State.send_pools, State.moveStretch_pools, State.presentMarks_pools,
    State.testClosed_pools, State.openDue_pools]

theorem State.publishFrom_pools (s : State) (slot : Nat) (h : s.poolsOk) : (State.publishFrom s slot).poolsOk := by
  unfold State.publishFrom
  grind (splits := 20) [State.poolsOk_iff, State.publishLoop_pools, State.afterPublication_pools]

theorem State.tryPublish_pools (s : State) (slot : Nat) (h : s.poolsOk) : (State.tryPublish s slot).poolsOk := by
  unfold State.tryPublish
  grind (splits := 20) [State.poolsOk_iff, State.joinWaiting_pools, State.publishFrom_pools]

theorem State.serveWaiting_pools (n : Nat) (s : State) (h : s.poolsOk) : (State.serveWaiting n s).poolsOk := by
  induction n generalizing s with
  | zero => exact h
  | succ n ih =>
    unfold State.serveWaiting
    (repeat' split) <;> first | exact h | exact ih _ (State.publishFrom_pools _ _ h)

theorem State.entriesFreed_pools (s : State) (h : s.poolsOk) : (State.entriesFreed s).poolsOk := by
  unfold State.entriesFreed
  grind (splits := 20) [State.poolsOk_iff, State.serveWaiting_pools]

theorem State.takeOutcome_pools (s : State) (slot segment rendition : Nat) (v : RenditionState) (h : s.poolsOk) :
    (State.takeOutcome s slot segment rendition v).poolsOk := by
  unfold State.takeOutcome
  grind (splits := 20) [State.poolsOk_iff, State.setLecture_pools, State.presentMarks_pools, State.tryPublish_pools]

theorem State.removeEntries_pools (s : State) (p : CatalogueEntry → Bool) (h : s.poolsOk) :
    (State.removeEntries s p).poolsOk := by
  unfold State.removeEntries
  refine foldl_pools _ _ (fun q e _ hq => ?_) h
  split
  · exact hq
  · exact State.releaseExtent_pools _ _ _ _ _ hq

theorem State.vacate_pools (s : State) (slot : Nat) (h : s.poolsOk) : (State.vacate s slot).poolsOk := by
  unfold State.vacate
  grind (splits := 20) [State.poolsOk_iff]

theorem State.archive_pools (s : State) (slot : Nat) (l : Lecture) (h : s.poolsOk) :
    (State.archive s slot l).poolsOk := by
  unfold State.archive
  refine State.vacate_pools _ _ (foldl_pools _ _ (fun q r _ hq => ?_) (State.removeEntries_pools _ _ h))
  exact State.dropRole_pools _ _ _ (State.releaseRun_pools _ _ _ hq)

theorem State.dropJob_pools (s : State) (k : Nat) (j : Job) (h : s.poolsOk) : (State.dropJob s k j).poolsOk := by
  unfold State.dropJob
  grind (splits := 20) [State.poolsOk_iff, State.send_pools, State.freeJob_pools, State.clearYield_pools]

theorem State.dropJobs_pools (s : State) (slot : Nat) (h : s.poolsOk) : (State.dropJobs s slot).poolsOk := by
  unfold State.dropJobs
  exact foldl_pools _ _ (fun q e _ hq => State.dropJob_pools q _ _ hq) h

theorem State.giveUpExtents_pools (s : State) (slot : Nat) (h : s.poolsOk) : (State.giveUpExtents s slot).poolsOk := by
  unfold State.giveUpExtents
  exact foldl_pools _ _ (fun q e _ hq => State.giveUpExtent_pools q _ _ _ _ hq) h

theorem State.abortRecord_pools (s : State) (slot : Nat) (l : Lecture) (h : s.poolsOk) :
    (State.abortRecord s slot l).poolsOk := by
  unfold State.abortRecord
  grind (splits := 20) [State.poolsOk_iff, State.setDiscard_pools, State.setLecture_pools]

theorem State.abort_pools (s : State) (slot : Nat) (l : Lecture) (h : s.poolsOk) : (State.abort s slot l).poolsOk := by
  unfold State.abort
  refine State.settle_pools _ (State.lectureEvent_pools _ _ (State.send_pools _ _ (foldl_pools _ _ (fun q r _ hq => ?_)
    (State.giveUpExtents_pools _ _ (State.dropJobs_pools _ _ (State.abortRecord_pools _ _ _ h))))))
  exact State.dropRole_pools _ _ _ (State.releaseRun_pools _ _ _ hq)

/-! ### Channels -/

theorem State.bodyError_pools (s : State) (c j : Nat) (h : s.poolsOk) : (State.bodyError s c j).poolsOk := by
  unfold State.bodyError
  grind (splits := 20) [State.poolsOk_iff, State.setChannel_pools, State.withdrawReads_pools]

theorem State.stagePage_pools (s : State) (c j : Nat) (bs : List Byte) (h : s.poolsOk) :
    (State.stagePage s c j bs).poolsOk := by
  unfold State.stagePage
  grind (splits := 20) [State.poolsOk_iff, State.setChannel_pools]

theorem State.requestPage_pools (s : State) (c : Nat) (h : s.poolsOk) : (State.requestPage s c).poolsOk := by
  unfold State.requestPage
  grind (splits := 20) [State.poolsOk_iff, State.setChannel_pools, State.joinDeliveryRead_pools,
    State.bodyError_pools, State.stagePage_pools, State.extent?_lt]

theorem State.channelRead_pools (s : State) (c j : Nat) (r : ReadReq) (errors : List Nat) (h : s.poolsOk) :
    (State.channelRead s c j r errors).poolsOk := by
  unfold State.channelRead
  grind (splits := 20) [State.poolsOk_iff, State.bodyError_pools, State.stagePage_pools]

theorem State.setChannelState_pools (s : State) (c : Nat) (x : Channel) (st : ChannelState) (h : s.poolsOk) :
    (State.setChannelState s c x st).poolsOk := by
  unfold State.setChannelState
  grind (splits := 20) [State.poolsOk_iff, State.setChannel_pools, State.channelEvent_pools]

theorem State.channelIdle_pools (s : State) (c : Nat) (ending : LastEnding) (h : s.poolsOk) :
    (State.channelIdle s c ending).poolsOk := by
  unfold State.channelIdle
  grind (splits := 20) [State.poolsOk_iff, State.setChannel_pools, State.channelEvent_pools]

theorem State.buildEnd_pools (s : State) (c : Nat) (x : Channel) (f : Fetch) (l : Lecture) (h : s.poolsOk) :
    (State.buildEnd s c x f l).poolsOk := by
  unfold State.buildEnd
  grind (splits := 20) [State.poolsOk_iff, State.setChannelState_pools]

theorem State.buildAbsent_pools (s : State) (c : Nat) (x : Channel) (f : Fetch) (l : Lecture) (n : Nat) (e : Option
    CatalogueEntry) (h : s.poolsOk) :
    (State.buildAbsent s c x f l n e).poolsOk := by
  unfold State.buildAbsent
  grind (splits := 20) [State.poolsOk_iff, State.setChannelState_pools]

theorem State.buildBody_pools (s : State) (c : Nat) (x : Channel) (f : Fetch) (l : Lecture) (n : Nat) (e :
    CatalogueEntry) (extent length : Nat) (h : s.poolsOk) :
    (State.buildBody s c x f l n e extent length).poolsOk := by
  unfold State.buildBody
  grind (splits := 20) [State.poolsOk_iff, State.requestPage_pools, State.setChannelState_pools]

theorem State.beginSegment_pools (s : State) (c n : Nat) (h : s.poolsOk) : (State.beginSegment s c n).poolsOk := by
  unfold State.beginSegment
  dsimp only
  split
  · exact h
  · split
    · exact h
    · split
      · split
        · exact State.buildBody_pools _ _ _ _ _ _ _ _ _ h
        · exact State.buildAbsent_pools _ _ _ _ _ _ _ h
      · exact State.buildAbsent_pools _ _ _ _ _ _ _ h
      · exact State.buildAbsent_pools _ _ _ _ _ _ _ h
      · exact State.setChannelState_pools _ _ _ _ h
      · split
        · exact State.buildEnd_pools _ _ _ _ _ h
        · exact State.buildAbsent_pools _ _ _ _ _ _ _ h

theorem State.finishSegment_pools (s : State) (c : Nat) (h : s.poolsOk) : (State.finishSegment s c).poolsOk := by
  unfold State.finishSegment
  grind (splits := 20) [State.poolsOk_iff, State.setChannel_pools, State.channelIdle_pools, State.buildEnd_pools,
    State.beginSegment_pools]

theorem State.itemDone_pools (s : State) (c : Nat) (h : s.poolsOk) : (State.itemDone s c).poolsOk := by
  unfold State.itemDone
  grind (splits := 20) [State.poolsOk_iff, State.setChannel_pools, State.channelIdle_pools, State.finishSegment_pools]

theorem State.placeBody_pools (s : State) (c : Nat) (bs : List Byte) (h : s.poolsOk) :
    (State.placeBody s c bs).poolsOk := by
  unfold State.placeBody
  grind (splits := 20) [State.poolsOk_iff, State.setChannel_pools, State.requestPage_pools, State.itemDone_pools]

theorem State.placeItem_pools (s : State) (c room : Nat) (h : s.poolsOk) : (State.placeItem s c room).poolsOk := by
  unfold State.placeItem
  grind (splits := 20) [State.poolsOk_iff, State.setChannel_pools, State.itemDone_pools]

theorem State.fillLoop_pools (c n : Nat) (s : State) (acc : List Byte) (h : s.poolsOk) :
    (State.fillLoop c n s acc).1.poolsOk := by
  induction n generalizing s acc with
  | zero => exact h
  | succ n ih =>
    unfold State.fillLoop
    dsimp only
    (repeat' split) <;> first
      | exact h
      | exact ih _ _ (State.placeBody_pools _ _ _ h)
      | exact ih _ _ (State.placeItem_pools _ _ _ (State.setChannel_pools _ _ _ h))

theorem State.fillCell_pools (s : State) (c : Nat) (h : s.poolsOk) : (State.fillCell s c).1.poolsOk := by
  unfold State.fillCell
  grind (splits := 20) [State.poolsOk_iff, State.fillLoop_pools]

theorem State.stopChannel_pools (s : State) (c : Nat) (h : s.poolsOk) : (State.stopChannel s c).1.poolsOk := by
  unfold State.stopChannel
  grind (splits := 20) [State.poolsOk_iff, State.setChannel_pools, State.withdrawReads_pools, State.channelIdle_pools]

theorem State.wakeChannels_pools (s : State) (slot : Nat) (h : s.poolsOk) : (State.wakeChannels s slot).poolsOk := by
  unfold State.wakeChannels
  refine foldl_pools _ _ (fun q c _ hq => ?_) h
  dsimp only
  (repeat' split) <;> first | exact hq | exact State.beginSegment_pools _ _ _ hq

/-! ### Trunk -/

theorem State.trunkChange_pools (s : State) (t : Trr) (h : s.poolsOk) : (State.trunkChange s t).poolsOk := by
  unfold State.trunkChange
  grind (splits := 20) [State.poolsOk_iff, State.trunkEvent_pools]

theorem State.searchAgain_pools (s : State) (h : s.poolsOk) : (State.searchAgain s).poolsOk := by
  unfold State.searchAgain
  grind (splits := 20) [State.poolsOk_iff, State.trunkChange_pools]

theorem State.searchBit_pools (s : State) (bit : Bool) (h : s.poolsOk) : (State.searchBit s bit).poolsOk := by
  unfold State.searchBit
  grind (splits := 20) [State.poolsOk_iff, State.trunkChange_pools]

theorem State.enterSync_pools (s : State) (t : Trr) (h : s.poolsOk) : (State.enterSync s t).poolsOk := by
  unfold State.enterSync
  grind (splits := 20) [State.poolsOk_iff, State.lower_pools, State.trunkChange_pools]

theorem State.leaveSync_pools (s : State) (cause : LossCause) (h : s.poolsOk) : (State.leaveSync s cause).poolsOk := by
  unfold State.leaveSync
  grind (splits := 20) [State.poolsOk_iff, State.lower_pools, State.raise_pools, State.trunkEvent_pools,
    State.intakeLoss_pools, State.serveClaims_pools]

theorem State.farEnd_pools (s : State) (flag : Bool) (h : s.poolsOk) : (State.farEnd s flag).poolsOk := by
  unfold State.farEnd
  grind (splits := 20) [State.poolsOk_iff, State.level_pools, State.trunkEvent_pools]

theorem State.deliver_pools (s : State) (f : ForwardFrame) (count : Nat) (wordRight : Bool) (h : s.poolsOk) :
    (State.deliver s f count wordRight).poolsOk := by
  unfold State.deliver
  grind (splits := 20) [State.poolsOk_iff, State.farEnd_pools]

theorem State.searchSuperframe_pools (s : State) (f : ForwardFrame) (h : s.poolsOk) :
    (State.searchSuperframe s f).poolsOk := by
  unfold State.searchSuperframe
  grind (splits := 20) [State.poolsOk_iff, State.trunkChange_pools, State.searchAgain_pools, State.enterSync_pools]

theorem State.searchCheck_pools (s : State) (f : ForwardFrame) (h : s.poolsOk) : (State.searchCheck s f).poolsOk := by
  unfold State.searchCheck
  grind (splits := 20) [State.poolsOk_iff, State.searchAgain_pools, State.enterSync_pools, State.deliver_pools]

theorem State.inSync_pools (s : State) (f : ForwardFrame) (h : s.poolsOk) : (State.inSync s f).poolsOk := by
  unfold State.inSync
  grind (splits := 20) [State.poolsOk_iff, State.leaveSync_pools, State.deliver_pools]

theorem State.giveReport_pools (s : State) (h : s.poolsOk) : (State.giveReport s).1.poolsOk := by
  unfold State.giveReport
  grind (splits := 20) [State.poolsOk_iff]

theorem State.returnCell_pools (s : State) (entry : ReturnEntry) (h : s.poolsOk) :
    (State.returnCell s entry).1.poolsOk := by
  unfold State.returnCell
  grind (splits := 20) [State.poolsOk_iff, State.fillCell_pools]

theorem State.returnCells_pools (m : Table ReturnEntry) (l : List Nat) (s : State) (h : s.poolsOk) :
    (State.returnCells m l s).1.poolsOk := by
  induction l generalizing s with
  | nil => exact h
  | cons p t ih => exact ih _ (State.returnCell_pools _ _ h)

theorem State.buildReturn_pools (s : State) (h : s.poolsOk) : (State.buildReturn s).poolsOk := by
  unfold State.buildReturn
  grind (splits := 20) [State.poolsOk_iff, State.giveReport_pools, State.returnCells_pools]

/-! ### Control -/

theorem State.abandonAppend_pools (s : State) (h : s.poolsOk) : (State.abandonAppend s).poolsOk := by
  unfold State.abandonAppend
  grind (splits := 20) [State.poolsOk_iff]

theorem Bank.empty_holds (b : Nat) : Bank.empty.holds b := by
  simp [Bank.holds, Bank.empty]

theorem Bank.scrubStart_holds (bad : List Nat) (b : Nat) : (Bank.scrubStart bad b).holds b := by
  have hm : ∀ g ∈ scrubBlocks bad b, bankOf g = b := fun g hg => by
    have h1 := List.mem_range'_1.1 (List.mem_of_mem_filter hg)
    exact Nat.div_eq_of_lt_le (by omega) (by omega)
  unfold Bank.scrubStart
  split
  · exact Bank.empty_holds b
  · rename_i g rest e
    rw [e] at hm
    have h1 := hm g (List.mem_cons_self ..)
    have h2 : ∀ a ∈ rest, bankOf a = b := fun a ha => hm a (List.mem_cons_of_mem _ ha)
    simpa [Bank.holds, Bank.empty, h1] using h2

theorem State.resetBlocks_pools (s : State) (cause : ResetCause) (unreadable : List Nat)
    (frame : Option ReturnFrame) : (s.resetBlocks cause unreadable frame).poolsOk := by
  refine ⟨Table.within_nil _, Table.within_nil _, Table.within_nil _, fun b => ?_⟩
  have h : ∀ (x : Nat → Bank) (b : Nat), (∀ c, (x c).holds c) →
      (Table.atD [(0, x 0), (1, x 1), (2, x 2), (3, x 3)] b Bank.empty).holds b := fun x b hx => by
    simp only [Table.atD, Table.at?]
    split
    · rename_i e
      exact e ▸ hx 0
    · split
      · rename_i e
        exact e ▸ hx 1
      · split
        · rename_i e
          exact e ▸ hx 2
        · split
          · rename_i e
            exact e ▸ hx 3
          · exact Bank.empty_holds b
  exact h _ b (Bank.scrubStart_holds _)

theorem State.readyAtReset_pools (s : State) (h : s.poolsOk) : (State.readyAtReset s).poolsOk := by
  unfold State.readyAtReset
  grind (splits := 20) [State.poolsOk_iff, State.storeEvent_pools, State.evalLevels_pools]

theorem State.fireReset_pools (s : State) : s.fireReset.poolsOk :=
  State.readyAtReset_pools _ (State.resetBlocks_pools _ _ _ _)

theorem State.refuse_pools (s : State) (code : ReplyCode) (h : s.poolsOk) : (State.refuse s code).1.poolsOk := by
  unfold State.refuse
  grind (splits := 20) [State.poolsOk_iff]

theorem State.answer_pools (code : Nat) (tag : Word16) (a : Answered) (h : a.1.poolsOk) :
    (State.answer code tag a).poolsOk := h

theorem State.disarm_pools (s : State) (h : s.poolsOk) : (State.disarm s).poolsOk := by
  unfold State.disarm
  grind (splits := 20) [State.poolsOk_iff]

theorem State.directive_pools (s : State) (c : Instr) (code : Nat) (tag : Word16) (ok : Bool) (act : State → Answered)
    (h : s.poolsOk) (ha : ∀ q : State, q.poolsOk → (act q).1.poolsOk) : (s.directive c code tag ok act).poolsOk := by
  unfold State.directive
  dsimp only
  (repeat' split) <;> first
    | exact State.answer_pools _ _ _ (ha _ h)
    | exact h

theorem actStatus_pools (s : State) (h : s.poolsOk) : (actStatus s).1.poolsOk := by
  unfold actStatus
  grind (splits := 20) [State.poolsOk_iff]

theorem actAlarmRetire_pools (s : State) (h : s.poolsOk) : (actAlarmRetire s).1.poolsOk := by
  unfold actAlarmRetire
  grind (splits := 20) [State.poolsOk_iff]

theorem actResetArm_pools (s : State) (h : s.poolsOk) : (actResetArm s).1.poolsOk := by
  unfold actResetArm
  grind (splits := 20) [State.poolsOk_iff]

theorem actReset_pools (s : State) (h : s.poolsOk) : (actReset s).1.poolsOk := by
  unfold actReset
  grind (splits := 20) [State.poolsOk_iff, State.refuse_pools]

theorem State.handOverDirective_pools (s : State) (i : Instr) (h : s.poolsOk) : (s.handOverDirective i).poolsOk := by
  unfold State.handOverDirective
  split <;> exact h

theorem State.cellDirective_pools (s : State) (cell : List Byte) (h : s.poolsOk) :
    (State.cellDirective s cell).poolsOk := by
  unfold State.cellDirective
  dsimp only
  (repeat' split) <;> first | exact h | exact State.handOverDirective_pools _ _ h

theorem State.takeControlCell_pools (s : State) (cell : List Byte) (h : s.poolsOk) :
    (State.takeControlCell s cell).poolsOk := by
  unfold State.takeControlCell
  grind (splits := 20) [State.poolsOk_iff, State.fireReset_pools, State.disarm_pools, State.cellDirective_pools]

/-! ### TrunkCommands -/

theorem State.setCheck_pools (s : State) (on : Bool) (h : s.poolsOk) : (State.setCheck s on).poolsOk := by
  unfold State.setCheck
  grind (splits := 20) [State.poolsOk_iff, State.enterSync_pools, State.searchCheck_pools, State.inSync_pools]

theorem State.setAuto_pools (s : State) (on : Bool) (h : s.poolsOk) : (State.setAuto s on).poolsOk := by
  unfold State.setAuto
  grind (splits := 20) [State.poolsOk_iff, State.leaveSync_pools, State.inSync_pools]

theorem actTrunkSet_pools (checkEnable autoResync idleFill : Byte) (s : State) (h : s.poolsOk) :
    (actTrunkSet checkEnable autoResync idleFill s).1.poolsOk := by
  unfold actTrunkSet
  grind (splits := 20) [State.poolsOk_iff, State.refuse_pools, State.setCheck_pools, State.setAuto_pools]

theorem actTrunkQuery_pools (selector clear : Byte) (s : State) (h : s.poolsOk) :
    (actTrunkQuery selector clear s).1.poolsOk := by
  unfold actTrunkQuery
  grind (splits := 20) [State.poolsOk_iff, State.refuse_pools]

theorem actTrunkResync_pools (s : State) (h : s.poolsOk) : (actTrunkResync s).1.poolsOk := by
  unfold actTrunkResync
  grind (splits := 20) [State.poolsOk_iff, State.searchAgain_pools, State.leaveSync_pools, State.inSync_pools]

theorem actForwardMap_pools (a : Activation) (es : List RawMapEntry) (s : State) (h : s.poolsOk) :
    (actForwardMap a es s).1.poolsOk := by
  unfold actForwardMap
  grind (splits := 20) [State.poolsOk_iff, State.refuse_pools]

theorem actReturnMap_pools (a : Activation) (es : List RawMapEntry) (s : State) (h : s.poolsOk) :
    (actReturnMap a es s).1.poolsOk := by
  unfold actReturnMap
  grind (splits := 20) [State.poolsOk_iff, State.refuse_pools]

theorem actCellmapSet_pools (direction activation : Byte) (es : List RawMapEntry) (s : State) (h : s.poolsOk) :
    (actCellmapSet direction activation es s).1.poolsOk := by
  unfold actCellmapSet
  grind (splits := 20) [State.poolsOk_iff, State.refuse_pools, actForwardMap_pools, actReturnMap_pools]

/-! ### Profiles -/

theorem actProfileSet_pools (profile operation kind roles bound : Byte) (limit label : Word16) (s : State) (h :
    s.poolsOk) :
    (actProfileSet profile operation kind roles bound limit label s).1.poolsOk := by
  unfold actProfileSet
  grind (splits := 20) [State.poolsOk_iff, State.refuse_pools]

theorem actProfileClear_pools (profile : Byte) (s : State) (h : s.poolsOk) : (actProfileClear profile s).1.poolsOk := by
  unfold actProfileClear
  grind (splits := 20) [State.poolsOk_iff, State.refuse_pools]

theorem actProfileQuery_pools (profile : Byte) (s : State) (h : s.poolsOk) : (actProfileQuery profile s).1.poolsOk := by
  unfold actProfileQuery
  grind (splits := 20) [State.poolsOk_iff, State.refuse_pools]

/-! ### Lectures -/

theorem State.load_pools (s : State) (b : LoadBody) (cls : LectureClass) (h : s.poolsOk) :
    (State.load s b cls).poolsOk := by
  unfold State.load
  refine foldl_pools _ _ (fun q r _ hq => ?_) h
  exact hq

theorem actLectureLoad_pools (b : LoadBody) (s : State) (h : s.poolsOk) : (actLectureLoad b s).1.poolsOk := by
  unfold actLectureLoad
  grind (splits := 20) [State.poolsOk_iff, State.refuse_pools, State.load_pools]

theorem actLectureQuery_pools (slot : Byte) (s : State) (h : s.poolsOk) : (actLectureQuery slot s).1.poolsOk := by
  unfold actLectureQuery
  grind (splits := 20) [State.poolsOk_iff, State.refuse_pools]

theorem State.endLecture_pools (s : State) (slot : Nat) (h : s.poolsOk) : (State.endLecture s slot).poolsOk := by
  unfold State.endLecture
  grind (splits := 20) [State.poolsOk_iff, State.presentMarks_pools, State.endOpen_pools, State.enterEnding_pools]

theorem actLectureClose_pools (slot : Byte) (s : State) (h : s.poolsOk) : (actLectureClose slot s).1.poolsOk := by
  unfold actLectureClose
  grind (splits := 20) [State.poolsOk_iff, State.serveClaims_pools, State.closeLecture_pools, State.enterEnding_pools,
    State.refuse_pools, State.endLecture_pools]

theorem actLectureAbort_pools (slot : Byte) (s : State) (h : s.poolsOk) : (actLectureAbort slot s).1.poolsOk := by
  unfold actLectureAbort
  grind (splits := 20) [State.poolsOk_iff, State.serveClaims_pools, State.abort_pools, State.refuse_pools]

theorem State.release_pools (s : State) (slot n : Nat) (h : s.poolsOk) : (State.release s slot n).1.poolsOk := by
  unfold State.release
  grind (splits := 20) [State.poolsOk_iff, State.serveClaims_pools, State.modLecture_pools, State.entriesFreed_pools,
    State.removeEntries_pools]

theorem actLectureRelease_pools (slot : Byte) (segment : Word16) (s : State) (h : s.poolsOk) :
    (actLectureRelease slot segment s).1.poolsOk := by
  unfold actLectureRelease
  grind (splits := 20) [State.poolsOk_iff, State.refuse_pools, State.release_pools]

theorem State.archiveNow_pools (s : State) (slot : Nat) (l : Lecture) (h : s.poolsOk) :
    (State.archiveNow s slot l).1.poolsOk := by
  unfold State.archiveNow
  grind (splits := 20) [State.poolsOk_iff, State.lectureEvent_pools, State.serveClaims_pools,
    State.entriesFreed_pools, State.archive_pools]

theorem actLectureArchive_pools (slot : Byte) (s : State) (h : s.poolsOk) : (actLectureArchive slot s).1.poolsOk := by
  unfold actLectureArchive
  grind (splits := 20) [State.poolsOk_iff, State.refuse_pools, State.archiveNow_pools]

theorem actSegmentQuery_pools (slot : Byte) (segment : Word16) (s : State) (h : s.poolsOk) :
    (actSegmentQuery slot segment s).1.poolsOk := by
  unfold actSegmentQuery
  grind (splits := 20) [State.poolsOk_iff, State.refuse_pools]

theorem State.gapExpire_pools (s : State) (slot : Nat) (r : Role) (h : s.poolsOk) :
    (State.gapExpire s slot r).poolsOk := by
  unfold State.gapExpire
  grind (splits := 20) [State.poolsOk_iff, State.setLecture_pools, State.presentMarks_pools, State.stall_pools,
    State.failover_pools]

theorem State.skewExpire_pools (s : State) (slot : Nat) (h : s.poolsOk) : (State.skewExpire s slot).poolsOk := by
  unfold State.skewExpire
  grind (splits := 20) [State.poolsOk_iff, State.setLecture_pools, State.presentMarks_pools, State.sealSegment_pools]

theorem State.endCuttingRole_pools (s : State) (slot : Nat) (r : Role) (h : s.poolsOk) :
    (State.endCuttingRole s slot r).poolsOk := by
  unfold State.endCuttingRole
  grind (splits := 20) [State.poolsOk_iff, State.setLecture_pools, State.sealSegment_pools]

theorem State.allEnded_pools (s : State) (slot : Nat) (st : LectureState) (h : s.poolsOk) :
    (State.allEnded s slot st).poolsOk := by
  unfold State.allEnded
  grind (splits := 20) [State.poolsOk_iff, State.endOpen_pools, State.closeLecture_pools, State.enterEnding_pools]

theorem State.roleEnd_pools (s : State) (slot : Nat) (r : Role) (h : s.poolsOk) : (State.roleEnd s slot r).poolsOk := by
  unfold State.roleEnd
  grind (splits := 20) [State.poolsOk_iff, State.setLecture_pools, State.presentMarks_pools, State.failover_pools,
    State.endCuttingRole_pools, State.allEnded_pools]

theorem State.lateDrop_pools (s : State) (slot : Nat) (r : Role) (h : s.poolsOk) :
    (State.lateDrop s slot r).poolsOk := by
  unfold State.lateDrop
  grind (splits := 20) [State.poolsOk_iff, State.setLecture_pools, State.failover_pools]

theorem State.overrunDamage_pools (s : State) (slot : Nat) (h : s.poolsOk) : (State.overrunDamage s slot).poolsOk := by
  unfold State.overrunDamage
  grind (splits := 20) [State.poolsOk_iff, State.modLecture_pools]

/-! ### Lanes -/

theorem State.finish_pools (s : State) (h : s.poolsOk) : (State.finish s).poolsOk := by
  unfold State.finish
  grind (splits := 20) [State.poolsOk_iff, State.serveClaims_pools, State.evalLaneFailed_pools, State.settle_pools]

theorem actDispatchSet_pools (floor preemption : Byte) (s : State) (h : s.poolsOk) :
    (actDispatchSet floor preemption s).1.poolsOk := by
  unfold actDispatchSet
  grind (splits := 20) [State.poolsOk_iff, State.refuse_pools, State.finish_pools]

theorem actQueueQuery_pools (selector first : Byte) (s : State) (h : s.poolsOk) :
    (actQueueQuery selector first s).1.poolsOk := by
  unfold actQueueQuery
  grind (splits := 20) [State.poolsOk_iff, State.refuse_pools]

theorem actLaneRemove_pools (lane : Byte) (s : State) (h : s.poolsOk) : (actLaneRemove lane s).1.poolsOk := by
  unfold actLaneRemove
  grind (splits := 20) [State.poolsOk_iff, State.setLane_pools, State.laneEvent_pools, State.clearYield_pools,
    State.laneWithout_pools, State.refuse_pools, State.finish_pools]

theorem actLaneRemoveForce_pools (lane : Byte) (s : State) (h : s.poolsOk) : (actLaneRemoveForce lane s).1.poolsOk := by
  unfold actLaneRemoveForce
  grind (splits := 20) [State.poolsOk_iff, State.returnLaneJob_pools, State.refuse_pools, State.finish_pools,
    actLaneRemove_pools]

theorem State.startTest_pools (s : State) (n : Nat) (h : s.poolsOk) : (State.startTest s n).poolsOk := by
  unfold State.startTest
  grind (splits := 20) [State.poolsOk_iff, State.setLane_pools, State.laneEvent_pools]

theorem actLaneRestore_pools (lane : Byte) (s : State) (h : s.poolsOk) : (actLaneRestore lane s).1.poolsOk := by
  unfold actLaneRestore
  grind (splits := 20) [State.poolsOk_iff, State.refuse_pools, State.finish_pools, State.startTest_pools]

theorem actLaneQuery_pools (lane : Byte) (s : State) (h : s.poolsOk) : (actLaneQuery lane s).1.poolsOk := by
  unfold actLaneQuery
  grind (splits := 20) [State.poolsOk_iff, State.refuse_pools]

theorem State.startFalling_pools (s : State) (g : Nat) (byFault : Bool) (h : s.poolsOk) :
    (State.startFalling s g byFault).poolsOk := by
  unfold State.startFalling
  refine State.groupEvent_pools _ _ _ (State.setGroup_pools _ _ _ (foldl_pools _ _ (fun q n _ hq => ?_) h))
  exact State.laneWithout_pools _ _ _ (State.clearYield_pools _ _ hq)

theorem actGroupOn_pools (group : Byte) (s : State) (h : s.poolsOk) : (actGroupOn group s).1.poolsOk := by
  unfold actGroupOn
  grind (splits := 20) [State.poolsOk_iff, State.setGroup_pools, State.groupEvent_pools, State.refuse_pools]

theorem actGroupOff_pools (group : Byte) (s : State) (h : s.poolsOk) : (actGroupOff group s).1.poolsOk := by
  unfold actGroupOff
  grind (splits := 20) [State.poolsOk_iff, State.refuse_pools, State.finish_pools, State.startFalling_pools]

theorem actGroupOffForce_pools (group : Byte) (s : State) (h : s.poolsOk) : (actGroupOffForce group s).1.poolsOk := by
  unfold actGroupOffForce
  have h1 := foldl_pools (groupLanes group.toNat) s (fun q n _ hq => State.returnLaneJob_pools q n .out hq) h
  have h2 := State.finish_pools _ (State.startFalling_pools _ group.toNat false h1)
  dsimp only
  generalize State.finish _ = t at h2 ⊢
  split
  · exact h
  · split
    · exact h2
    · exact h
    · exact h
    · exact h

theorem State.faultLane_pools (s : State) (n : Nat) (h : s.poolsOk) : (State.faultLane s n).poolsOk := by
  unfold State.faultLane
  grind (splits := 20) [State.poolsOk_iff, State.setLane_pools, State.laneWithout_pools, State.returnLaneJob_pools]

theorem State.takeFault_pools (s : State) (g : Nat) (h : s.poolsOk) : (State.takeFault s g).poolsOk := by
  unfold State.takeFault
  exact State.finish_pools _ (State.raise_pools _ _ (State.startFalling_pools _ _ _
    (foldl_pools _ _ (fun q n _ hq => State.faultLane_pools q n hq) h)))

theorem State.setScratch_pools (s : State) (g : Nat) (x : Option (List Byte)) (h : s.poolsOk) :
    (State.setScratch s g x).poolsOk := by
  unfold State.setScratch
  exact foldl_pools _ _ (fun q n _ hq => State.setLane_pools q _ _ hq) h

theorem State.risingEnd_pools (s : State) (g : Nat) (h : s.poolsOk) : (State.risingEnd s g).poolsOk := by
  unfold State.risingEnd
  have h1 : ∀ q : State, q.poolsOk → ((groupLanes g).foldl (fun q n => q.laneWithout n .out) q).poolsOk :=
    fun q hq => foldl_pools _ q (fun q n _ hq => State.laneWithout_pools q n .out hq) hq
  dsimp only
  split
  · exact h
  · split
    · split
      · exact State.takeFault_pools _ _ (State.setScratch_pools _ _ _ h)
      · exact State.setScratch_pools _ _ _ h
    · exact h
    · exact State.groupEvent_pools _ _ _ (State.setGroup_pools _ _ _ (h1 _ h))

theorem State.fallingEnd_pools (s : State) (g : Nat) (h : s.poolsOk) : (State.fallingEnd s g).poolsOk := by
  unfold State.fallingEnd
  grind (splits := 20) [State.poolsOk_iff, State.setGroup_pools, State.groupEvent_pools, State.setScratch_pools]

theorem State.sanityExpire_pools (s : State) (n : Nat) (h : s.poolsOk) : (State.sanityExpire s n).poolsOk := by
  unfold State.sanityExpire
  grind (splits := 20) [State.poolsOk_iff, State.setLane_pools, State.returnJob_pools, State.overtake_pools,
    State.laneWithout_pools, State.failJob_pools, State.finish_pools, State.job?_lt, State.laneJob_lt]

theorem State.testFails_pools (s : State) (n : Nat) (f : LaneFault) (h : s.poolsOk) :
    (State.testFails s n f).poolsOk := by
  unfold State.testFails
  grind (splits := 20) [State.poolsOk_iff, State.setLane_pools, State.laneWithout_pools, State.finish_pools]

theorem State.testChunkDone_pools (s : State) (n : Nat) (output : List Byte) (h : s.poolsOk) :
    (State.testChunkDone s n output).poolsOk := by
  unfold State.testChunkDone
  grind (splits := 20) [State.poolsOk_iff, State.setLane_pools, State.laneWithout_pools, State.finish_pools,
    State.testFails_pools]

theorem State.testChunkExpire_pools (s : State) (n : Nat) (h : s.poolsOk) : (State.testChunkExpire s n).poolsOk := by
  unfold State.testChunkExpire
  grind (splits := 20) [State.poolsOk_iff, State.testFails_pools]

theorem State.laneFails_pools (s : State) (n : Nat) (reason : FailReason) (h : s.poolsOk) :
    (State.laneFails s n reason).poolsOk := by
  unfold State.laneFails
  grind (splits := 20) [State.poolsOk_iff, State.failLaneJob_pools, State.finish_pools]

theorem State.laneWrites_pools (s : State) (n : Nat) (output : List Byte) (h : s.poolsOk) :
    (State.laneWrites s n output).poolsOk := by
  unfold State.laneWrites
  grind (splits := 20) [State.poolsOk_iff, State.setLane_pools, State.laneFill_pools]

theorem State.chunkDone_pools (s : State) (n : Nat) (output : List Byte) (h : s.poolsOk) :
    (State.chunkDone s n output).poolsOk := by
  unfold State.chunkDone
  grind (splits := 20) [State.poolsOk_iff, State.commitChunk_pools, State.afterCommit_pools, State.finish_pools,
    State.laneWrites_pools, State.job?_lt, State.laneJob_lt]

theorem State.laneWantsBuffer_pools (s : State) (n : Nat) (output : List Byte) (h : s.poolsOk) :
    (State.laneWantsBuffer s n output).poolsOk := by
  unfold State.laneWantsBuffer
  grind (splits := 20) [State.poolsOk_iff, State.laneTakeBuffer_pools, State.hold_pools, State.laneWrites_pools,
    State.laneExtent_lt]

theorem State.laneWantsBlock_pools (s : State) (n : Nat) (output : List Byte) (h : s.poolsOk) :
    (State.laneWantsBlock s n output).poolsOk := by
  unfold State.laneWantsBlock
  grind (splits := 20) [State.poolsOk_iff, State.appendExtentBlock_pools, State.hold_pools, State.laneFails_pools,
    State.laneWrites_pools, State.job?_lt, State.laneJob_lt, State.laneExtent_lt]

theorem State.laneReadOn_pools (s : State) (n : Nat) (h : s.poolsOk) : (State.laneReadOn s n).poolsOk := by
  unfold State.laneReadOn
  grind (splits := 20) [State.poolsOk_iff, State.setLane_pools, State.startChunk_pools, State.laneFails_pools,
    State.job?_lt, State.laneJob_lt]

theorem State.laneReceives_pools (s : State) (n : Nat) (pages : List SourcePage) (h : s.poolsOk) :
    (State.laneReceives s n pages).poolsOk := by
  unfold State.laneReceives
  grind (splits := 20) [State.poolsOk_iff, State.setLane_pools, State.received_pools]

theorem State.laneReads_pools (s : State) (n : Nat) (r : Role) (x : Run) (offset length : Nat) (h : s.poolsOk) :
    (State.laneReads s n r x offset length).poolsOk := by
  unfold State.laneReads
  grind (splits := 20) [State.poolsOk_iff, State.joinLaneRead_pools, State.laneFails_pools, State.laneReadOn_pools,
    State.laneReceives_pools]

theorem State.laneWantsSource_pools (s : State) (n : Nat) (r : Role) (offset length : Nat) (h : s.poolsOk) :
    (State.laneWantsSource s n r offset length).poolsOk := by
  unfold State.laneWantsSource
  grind (splits := 20) [State.poolsOk_iff, State.setLane_pools, State.laneReads_pools, State.job?_lt, State.laneJob_lt]

theorem State.laneRead_pools (s : State) (n : Nat) (role : Role) (base : Nat) (r : ReadReq) (errors : List Nat) (h :
    s.poolsOk) :
    (State.laneRead s n role base r errors).poolsOk := by
  unfold State.laneRead
  grind (splits := 20) [State.poolsOk_iff, State.laneFails_pools, State.laneReadOn_pools, State.laneReceives_pools]

theorem State.discardJob_pools (s : State) (n k : Nat) (h : s.poolsOk) : (State.discardJob s n k).poolsOk := by
  unfold State.discardJob
  grind (splits := 20) [State.poolsOk_iff, State.freeJob_pools, State.overtake_pools, State.laneWithout_pools,
    State.finish_pools]

theorem State.extentFreed_pools (s : State) (h : s.poolsOk) : (State.extentFreed s).poolsOk := by
  unfold State.extentFreed
  grind (splits := 20) [State.poolsOk_iff]

/-! ### StorePort -/

theorem actStoreSet_pools (lowMark : Word16) (s : State) (h : s.poolsOk) : (actStoreSet lowMark s).1.poolsOk := by
  unfold actStoreSet
  grind (splits := 20) [State.poolsOk_iff, State.evalLevels_pools, State.refuse_pools]

theorem actStoreQuery_pools (bank : Byte) (s : State) (h : s.poolsOk) : (actStoreQuery bank s).1.poolsOk := by
  unfold actStoreQuery
  grind (splits := 20) [State.poolsOk_iff, State.refuse_pools]

theorem State.returnRead_pools (s : State) (r : ReadReq) (wanted : Bool) (errors : List Nat) (h : s.poolsOk) :
    (State.returnRead s r wanted errors).poolsOk := by
  unfold State.returnRead
  grind (splits := 20) [State.poolsOk_iff, State.relocRead_pools, State.channelRead_pools, State.laneRead_pools]

theorem State.endRead_pools (s : State) (b : Nat) (r : ReadReq) (wanted : Bool) (errors : List Nat) (h : s.poolsOk) :
    (State.endRead s b r wanted errors).poolsOk := by
  unfold State.endRead
  grind (splits := 20) [State.poolsOk_iff, State.setBank_pools, State.arbitrate_pools, State.serveClaims_pools,
    State.returnRead_pools, State.bank_holds, Bank.holds]

theorem State.opLimit_pools (s : State) (b : Nat) (left : Unfinished) (h : s.poolsOk) :
    (State.opLimit s b left).poolsOk := by
  unfold State.opLimit
  split
  · exact State.endRead_pools _ _ _ _ _ h
  · exact State.serveClaims_pools _ (State.endProgram_pools _ _ _ _ h)
  · exact State.serveClaims_pools _ (State.endAppend_pools _ _ _ _ _ _ h)
  · split
    · rename_i e he
      split
      · exact h
      · exact State.serveClaims_pools _ (State.endErase_pools _ _ _ _ h ((State.bank_holds h b).2.2 e he))
    · exact h

/-! ### Delivery -/

theorem State.fetch_pools (s : State) (c : Nat) (f : Fetch) (h : s.poolsOk) : (State.fetch s c f).poolsOk := by
  unfold State.fetch
  grind (splits := 20) [State.poolsOk_iff, State.setChannel_pools, State.beginSegment_pools]

theorem actFetch_pools (channel slot rendition : Byte) (first : Word16) (mode : Byte) (last : Word16) (s : State) (h :
    s.poolsOk) :
    (actFetch channel slot rendition first mode last s).1.poolsOk := by
  unfold actFetch
  grind (splits := 20) [State.poolsOk_iff, State.refuse_pools, State.fetch_pools]

theorem actStop_pools (channel : Byte) (s : State) (h : s.poolsOk) : (actStop channel s).1.poolsOk := by
  unfold actStop
  grind (splits := 20) [State.poolsOk_iff, State.stopChannel_pools, State.refuse_pools]

theorem actChannelQuery_pools (channel : Byte) (s : State) (h : s.poolsOk) : (actChannelQuery channel s).1.poolsOk := by
  unfold actChannelQuery
  grind (splits := 20) [State.poolsOk_iff, State.refuse_pools]

/-! ### Tick -/

theorem State.countDown_pools (s : State) (h : s.poolsOk) : (State.countDown s).poolsOk := by
  unfold State.countDown
  grind (splits := 20) [State.poolsOk_iff]

theorem State.tickGaps_pools (s : State) (slot : Nat) (h : s.poolsOk) : (State.tickGaps s slot).poolsOk := by
  unfold State.tickGaps
  refine foldl_pools _ _ (fun q r _ hq => ?_) h
  split
  · exact State.serveClaims_pools _ (State.gapExpire_pools _ _ _ hq)
  · exact hq

theorem State.tickSkew_pools (s : State) (slot : Nat) (h : s.poolsOk) : (State.tickSkew s slot).poolsOk := by
  unfold State.tickSkew
  grind (splits := 20) [State.poolsOk_iff, State.serveClaims_pools, State.skewExpire_pools]

theorem State.tickLane_pools (s : State) (n : Nat) (h : s.poolsOk) : (State.tickLane s n).poolsOk := by
  unfold State.tickLane
  grind (splits := 20) [State.poolsOk_iff, State.sanityExpire_pools, State.testChunkExpire_pools]

theorem State.tickGroup_pools (s : State) (g : Nat) (h : s.poolsOk) : (State.tickGroup s g).poolsOk := by
  unfold State.tickGroup
  grind (splits := 20) [State.poolsOk_iff, State.risingEnd_pools, State.fallingEnd_pools]

theorem State.tick_pools (s : State) (h : s.poolsOk) : (State.tick s).poolsOk := by
  unfold State.tick
  refine State.buildReturn_pools _ (foldl_pools _ _ (fun q g _ hq => State.tickGroup_pools q g hq)
    (foldl_pools _ _ (fun q n _ hq => State.tickLane_pools q n hq)
      (foldl_pools _ _ (fun q n _ hq => State.tickSkew_pools q n hq)
        (foldl_pools _ _ (fun q n _ hq => State.tickGaps_pools q n hq) (State.countDown_pools _ h)))))

end Sys2Proof.Machine
end

