-- ==== Sys2Proof/Laws/Windows.lean ====
section
/-! SUPPORT. The sizes of the lecture records, and of the catalogue (`State.windowsOk`), under every operation of the
Segment Controller (R22, R23, R31, R143). -/

namespace Sys2Proof.Machine

/-! ### One lecture record -/

theorem PerRole.get_set {α : Type} (p : PerRole α) (r q : Role) (v : α) :
    (p.set r v).get q = if q = r then v else p.get q := by
  cases r <;> cases q <;> rfl

theorem Lecture.sized_parts {l : Lecture} (h : l.sized) (parts : PerRole RolePart)
    (hp : ∀ r, (parts.get r).candidates.length ≤ 256) : Lecture.sized { l with parts := parts } :=
  ⟨h.1, h.2.1, h.2.2.1, hp⟩

theorem Lecture.sized_modPart {l : Lecture} (h : l.sized) (r : Role) (f : RolePart → RolePart)
    (hf : (f (l.parts.get r)).candidates.length ≤ 256) : (l.modPart r f).sized := by
  refine Lecture.sized_parts h _ fun q => ?_
  rw [PerRole.get_set]
  split
  · exact hf
  · exact h.2.2.2 q

theorem Lecture.sized_mapParts {l : Lecture} (h : l.sized) (f : RolePart → RolePart)
    (hf : ∀ p, p.candidates.length ≤ 256 → (f p).candidates.length ≤ 256) : (l.mapParts f).sized := by
  refine Lecture.sized_parts h _ fun q => ?_
  rw [PerRole.get_map]
  exact hf _ (h.2.2.2 q)

theorem Lecture.sized_clearLists {l : Lecture} (h : l.sized) : l.clearLists.sized :=
  Lecture.sized_mapParts h _ fun _ _ => Nat.zero_le _

theorem Lecture.sized_stopGaps {l : Lecture} (h : l.sized) : l.stopGaps.sized :=
  Lecture.sized_mapParts h _ fun _ h => h

theorem Lecture.sized_heard {l : Lecture} (h : l.sized) (r : Role) : (l.heard r).sized := by
  refine Lecture.sized_modPart h r _ ?_
  have := h.2.2.2 r
  (repeat' split) <;> exact this

theorem Lecture.sized_noted {l : Lecture} (h : l.sized) (n : UnitNotice) : (l.noted n).sized :=
  Lecture.sized_modPart h _ _ (h.2.2.2 n.role)

theorem Lecture.sized_modSegment {l : Lecture} (h : l.sized) (n : Nat) (f : Segment → Segment)
    (hf : ∀ g ∈ l.window, (f g).renditions.length = l.profiles.length) : (l.modSegment n f).sized := by
  refine ⟨by simpa [Lecture.modSegment] using h.1, fun e => ?_, fun g hg => ?_, h.2.2.2⟩
  · simp [Lecture.modSegment, h.2.1 e]
  · obtain ⟨d, hd, rfl⟩ := List.mem_map.1 hg
    split
    · exact hf d hd
    · exact h.2.2.1 d hd

theorem Lecture.sized_state {l : Lecture} (h : l.sized) (st : LectureState) (hs : st ≠ .loaded) :
    Lecture.sized { l with state := st } :=
  ⟨h.1, fun e => absurd e hs, h.2.2⟩

theorem Lecture.openSegment_mem {l : Lecture} {g : Segment} (h : l.openSegment = some g) : g ∈ l.window :=
  List.mem_of_find?_eq_some h
theorem Lecture.cuttingSegment_mem {l : Lecture} {g : Segment} (h : l.cuttingSegment = some g) : g ∈ l.window :=
  List.mem_of_find?_eq_some h
theorem Lecture.segment_mem {l : Lecture} {n : Nat} {g : Segment} (h : l.segment n = some g) : g ∈ l.window :=
  List.mem_of_find?_eq_some h

theorem Lecture.not_loaded {l : Lecture} (h : l.sized) {g : Segment} (hg : g ∈ l.window) : l.state ≠ .loaded :=
  fun e => by
    rw [h.2.1 e] at hg
    cases hg

@[simp] theorem Lecture.modSegment_length (l : Lecture) (n : Nat) (f : Segment → Segment) :
    (l.modSegment n f).window.length = l.window.length := by simp [Lecture.modSegment]
@[simp] theorem Lecture.modSegment_state (l : Lecture) (n : Nat) (f : Segment → Segment) :
    (l.modSegment n f).state = l.state := rfl

/-! ### The sizes depend on the SGC alone -/

theorem State.windowsOk_of {s t : State} (h : s.windowsOk) (e : t.sgc = s.sgc) : t.windowsOk := by
  unfold State.windowsOk State.lecture?
  rw [e]
  exact h

/-- The lecture tables and the catalogue. -/
theorem State.windowsOk_tables {s t : State} (h : s.windowsOk) (e : t.sgc.lectures = s.sgc.lectures)
    (c : t.sgc.catalogue = s.sgc.catalogue) : t.windowsOk := by
  unfold State.windowsOk State.lecture?
  rw [e, c]
  exact h

theorem State.setLecture_windows {s : State} (h : s.windowsOk) (slot : Nat) {l : Lecture} (hl : l.sized) :
    (s.setLecture slot l).windowsOk := by
  refine ⟨fun m k e => ?_, h.2⟩
  by_cases hm : m = slot
  · subst hm
    rw [State.lecture?_setLecture_same] at e
    cases e
    exact hl
  · rw [State.lecture?_setLecture_ne _ _ hm] at e
    exact h.1 m k e

theorem State.modLecture_windows {s : State} (h : s.windowsOk) (slot : Nat) {f : Lecture → Lecture}
    (hf : ∀ l, l.sized → (f l).sized) : (s.modLecture slot f).windowsOk := by
  unfold State.modLecture
  split
  · exact h
  · rename_i l e
    exact State.setLecture_windows h slot (hf l (h.1 slot l e))

theorem foldl_windows {α : Type} {f : State → α → State} (l : List α) (s : State)
    (hf : ∀ (q : State) (a : α), q.windowsOk → (f q a).windowsOk) (h : s.windowsOk) : (l.foldl f s).windowsOk := by
  induction l generalizing s with
  | nil => exact h
  | cons a t ih => exact ih _ (hf s a h)

/-- The windows of a slot have room for a record, and its lecture is not LOADED. -/
def State.room (s : State) (slot : Nat) : Prop :=
  ∀ l, s.lecture? slot = some l → l.window.length < 8 ∧ l.state ≠ .loaded

theorem State.room_of {s t : State} {slot : Nat} (h : s.room slot) (e : t.lecture? slot = s.lecture? slot) :
    t.room slot := by
  intro l hl
  exact h l (by rw [← e, hl])

theorem State.setLecture_room {s : State} {slot : Nat} (h : s.room slot) (m : Nat) {l k : Lecture}
    (hl : s.lecture? m = some l) (hw : k.window.length = l.window.length) (hs : k.state = .loaded → l.state = .loaded) :
    (s.setLecture m k).room slot := by
  intro j e
  by_cases hm : slot = m
  · subst hm
    rw [State.lecture?_setLecture_same] at e
    cases e
    obtain ⟨h1, h2⟩ := h l hl
    exact ⟨hw ▸ h1, fun e => h2 (hs e)⟩
  · rw [State.lecture?_setLecture_ne _ _ hm] at e
    exact h j e

/-! ### The stretch discard (R33) -/

theorem State.setStretch_windows {s : State} (h : s.windowsOk) (slot : Nat) (m : Stretch) :
    (s.setStretch slot m).windowsOk := by
  unfold State.setStretch
  split
  · exact h
  · rename_i l e
    exact State.windowsOk_of (State.setLecture_windows (l := { l with stretch := m }) h slot (h.1 slot l e)) rfl
theorem State.setStretch_room {s : State} {slot : Nat} (h : s.room slot) (n : Nat) (m : Stretch) :
    (s.setStretch n m).room slot := by
  unfold State.setStretch
  split
  · exact h
  · rename_i l e
    exact State.room_of (State.setLecture_room (k := { l with stretch := m }) h n e rfl id) rfl

theorem State.endStretch_windows {s : State} (h : s.windowsOk) (slot : Nat) : (s.endStretch slot).windowsOk := by
  unfold State.endStretch
  (repeat' split) <;> first | exact h | exact State.setStretch_windows h ..
theorem State.endStretch_room {s : State} {slot : Nat} (h : s.room slot) (n : Nat) : (s.endStretch n).room slot := by
  unfold State.endStretch
  (repeat' split) <;> first | exact h | exact State.setStretch_room h _ _

theorem State.moveStretch_windows {s : State} (h : s.windowsOk) (slot : Nat) : (s.moveStretch slot).windowsOk := by
  unfold State.moveStretch
  (repeat' split) <;> first | exact h | exact State.setStretch_windows h ..
theorem State.moveStretch_room {s : State} {slot : Nat} (h : s.room slot) (n : Nat) : (s.moveStretch n).room slot := by
  unfold State.moveStretch
  (repeat' split) <;> first | exact h | exact State.setStretch_room h _ _

/-! ### Low marks and admission (R42 to R44) -/

theorem State.presentMark_windows {s : State} (h : s.windowsOk) (slot : Nat) (r : Role) :
    (State.presentMark slot s r).windowsOk := by
  unfold State.presentMark
  split
  · exact h
  · rename_i l e
    dsimp only
    split
    · have hl := h.1 slot l e
      exact State.windowsOk_of (State.setLecture_windows h slot (Lecture.sized_modPart hl r _ (hl.2.2.2 r))) rfl
    · exact h

theorem State.presentMarks_windows {s : State} (h : s.windowsOk) (slot : Nat) : (s.presentMarks slot).windowsOk := by
  unfold State.presentMarks
  split
  · exact h
  · exact foldl_windows _ _ (fun q r hq => State.presentMark_windows hq slot r) h

theorem State.createJobs_sgc (s : State) (slot : Nat) (l : Lecture) (g : Segment) :
    (s.createJobs slot l g).sgc = s.sgc :=
  foldl_keeps State.sgc _ (fun q p => by simp) _ _

theorem State.admitSegment_windows {s : State} (h : s.windowsOk) (slot n : Nat) :
    (s.admitSegment slot n).windowsOk := by
  unfold State.admitSegment
  split
  · exact h
  · rename_i l e
    split
    · exact h
    · have hl := h.1 slot l e
      refine State.windowsOk_of (State.setLecture_windows h slot
        (Lecture.sized_modSegment hl n (fun g => { g with state := .working }) fun g hg => hl.2.2.1 g hg)) ?_
      rw [State.settle_sgc, State.createJobs_sgc]
theorem State.admitSegment_room {s : State} {slot : Nat} (h : s.room slot) (m n : Nat) :
    (s.admitSegment m n).room slot := by
  unfold State.admitSegment
  split
  · exact h
  · rename_i l e
    split
    · exact h
    · refine State.room_of (State.setLecture_room (k := l.modSegment n (fun g => { g with state := .working })) h m e
        (by simp) id) (State.lecture?_of_sgc ?_ slot)
      rw [State.settle_sgc, State.createJobs_sgc]

theorem State.admitLoop_windows (fuel : Nat) {s : State} (h : s.windowsOk) : (State.admitLoop fuel s).windowsOk := by
  induction fuel generalizing s with
  | zero => exact h
  | succ n ih =>
    unfold State.admitLoop
    split
    · split
      · exact ih (State.admitSegment_windows (by exact State.windowsOk_tables h rfl rfl) _ _)
      · exact h
    · split
      · split
        · exact ih (State.admitSegment_windows (by exact State.windowsOk_tables h rfl rfl) _ _)
        · exact h
      · exact h
theorem State.admitLoop_room (fuel : Nat) {s : State} {slot : Nat} (h : s.room slot) :
    (State.admitLoop fuel s).room slot := by
  induction fuel generalizing s with
  | zero => exact h
  | succ n ih =>
    unfold State.admitLoop
    split
    · split
      · exact ih (State.admitSegment_room (by exact State.room_of h rfl) _ _)
      · exact h
    · split
      · split
        · exact ih (State.admitSegment_room (by exact State.room_of h rfl) _ _)
        · exact h
      · exact h

theorem State.tryAdmission_windows {s : State} (h : s.windowsOk) : s.tryAdmission.windowsOk :=
  State.admitLoop_windows _ h

theorem State.joinAdmission_windows {s : State} (h : s.windowsOk) (c : LectureClass) (slot n : Nat) :
    (s.joinAdmission c slot n).windowsOk := by
  cases c <;> exact State.windowsOk_tables h rfl rfl
theorem State.joinAdmission_room {s : State} {slot : Nat} (h : s.room slot) (c : LectureClass) (m n : Nat) :
    (s.joinAdmission c m n).room slot := by
  cases c <;> exact State.room_of h rfl

/-! ### Sealing, ending and opening (R20, R25, R38, R39) -/

theorem State.sealSegment_windows {s : State} (h : s.windowsOk) (slot n : Nat) : (s.sealSegment slot n).windowsOk := by
  unfold State.sealSegment
  split
  · exact h
  · rename_i l e
    have hl := h.1 slot l e
    exact State.tryAdmission_windows (State.joinAdmission_windows (State.moveStretch_windows
      (State.setLecture_windows h slot (Lecture.sized_modSegment hl n (fun g => g.fixed l)
        fun g hg => hl.2.2.1 g hg)) _) _ _ _)
theorem State.sealSegment_room {s : State} {slot : Nat} (h : s.room slot) (m n : Nat) :
    (s.sealSegment m n).room slot := by
  unfold State.sealSegment
  split
  · exact h
  · rename_i l e
    exact State.admitLoop_room _ (State.joinAdmission_room (State.moveStretch_room
      (State.setLecture_room (k := l.modSegment n (fun g => g.fixed l)) h m e (by simp) id) _) _ _ _)

theorem State.endOpen_windows {s : State} (h : s.windowsOk) (slot : Nat) : (s.endOpen slot).windowsOk := by
  unfold State.endOpen
  split
  · exact h
  · rename_i l e
    split
    · exact h
    · rename_i g hg
      have hl := h.1 slot l e
      refine State.sealSegment_windows (State.endStretch_windows (State.setLecture_windows h slot ?_) _) ..
      have h1 : ∀ d : Segment, d.renditions = g.renditions → (l.modSegment g.number (fun _ => d)).clearLists.sized :=
        fun d hd => Lecture.sized_clearLists (Lecture.sized_modSegment hl g.number _ fun _ _ => by
          rw [hd]
          exact hl.2.2.1 g (Lecture.openSegment_mem hg))
      exact h1 _ rfl

theorem State.openNext_windows {s : State} (h : s.windowsOk) {slot : Nat} (hr : s.room slot) (lead : Option Stamp)
    (ranges : PerRole RoleRange) : (s.openNext slot lead ranges).windowsOk := by
  unfold State.openNext
  split
  · exact h
  · rename_i l e
    have hl := h.1 slot l e
    obtain ⟨h1, h2⟩ := hr l e
    refine State.endStretch_windows (State.setLecture_windows h slot ?_) _
    refine ⟨?_, fun e => absurd e h2, fun g hg => ?_, (Lecture.sized_clearLists hl).2.2.2⟩
    · show (l.window ++ [_]).length ≤ 8
      rw [List.length_append]
      exact h1
    · rcases List.mem_append.1 hg with h3 | h3
      · exact hl.2.2.1 g h3
      · rw [List.mem_singleton.1 h3]
        exact List.length_map _

/-! ### States of the lecture (R8, R12, R14 to R16) -/

theorem State.closeRole_windows {s : State} (h : s.windowsOk) (slot : Nat) (r : Role) :
    (s.closeRole slot r).windowsOk := State.windowsOk_of h (by simp)

theorem State.closeLecture_windows {s : State} (h : s.windowsOk) (slot : Nat) : (s.closeLecture slot).windowsOk := by
  unfold State.closeLecture
  split
  · exact h
  · rename_i l e
    extract_lets _ s1
    have h1 : s1.windowsOk := State.windowsOk_of (State.setLecture_windows h slot
      (Lecture.sized_state (Lecture.sized_stopGaps (h.1 slot l e)) .closed (by decide))) rfl
    have h2 : (l.roles.foldl (fun q r => q.closeRole slot r) s1).windowsOk :=
      foldl_windows _ _ (fun q r hq => State.closeRole_windows hq slot r) h1
    exact State.windowsOk_of h2 rfl

theorem State.testClosed_windows {s : State} (h : s.windowsOk) (slot : Nat) : (s.testClosed slot).windowsOk := by
  unfold State.testClosed
  (repeat' split) <;> first | exact h | exact State.closeLecture_windows h _

theorem State.enterEnding_windows {s : State} (h : s.windowsOk) (slot : Nat) : (s.enterEnding slot).windowsOk := by
  refine State.testClosed_windows ?_ _
  refine State.windowsOk_of (s := s.modLecture slot (fun l => { l.stopGaps with state := .ending })) ?_ rfl
  exact State.modLecture_windows h slot fun _ hl =>
    Lecture.sized_state (Lecture.sized_stopGaps hl) .ending (by decide)

theorem State.stall_windows {s : State} (h : s.windowsOk) (slot : Nat) : (s.stall slot).windowsOk :=
  State.windowsOk_of (State.endOpen_windows (State.modLecture_windows h slot
    fun _ hl => Lecture.sized_state hl .stalled (by decide)) slot) rfl

theorem State.failover_windows {s : State} (h : s.windowsOk) (slot : Nat) : (s.failover slot).windowsOk := by
  unfold State.failover
  split
  · exact h
  · rename_i l e
    split
    · exact h
    · split
      · exact h
      · rename_i r _
        have hc := Lecture.sized_clearLists (h.1 slot l e)
        have h1 : (s.setLecture slot { l.clearLists with lead := r }).windowsOk :=
          State.setLecture_windows h slot (l := { l.clearLists with lead := r }) ⟨hc.1, hc.2.1, hc.2.2.1, hc.2.2.2⟩
        refine State.windowsOk_of (s := if l.stretch = .keyOnly then _ else _) ?_ rfl
        split
        · exact State.setStretch_windows h1 ..
        · exact h1

/-! ### Filing a unit notice (R27 to R35) -/

theorem State.fileCutting_windows {s : State} (h : s.windowsOk) (slot : Nat) {l : Lecture} (hl : l.sized) {g : Segment}
    (hg : g ∈ l.window) (u : FiledUnit) : (s.fileCutting slot l g u).1.windowsOk := by
  have h1 : ∀ f, (s.setLecture slot (l.modSegment g.number (fun _ => g.modRange u.role f))).windowsOk := fun f =>
    State.setLecture_windows h slot (Lecture.sized_modSegment hl g.number _ fun _ _ => hl.2.2.1 g hg)
  unfold State.fileCutting
  split
  · dsimp only
    split
    · exact State.sealSegment_windows (h1 _) ..
    · exact h1 _
  · exact h1 _

theorem Segment.fileStart_renditions (g : Segment) (l : Lecture) (u : FiledUnit) :
    (g.fileStart l u).renditions = g.renditions := by
  unfold Segment.fileStart Segment.modRange
  (repeat' split) <;> rfl

theorem State.leadCut_windows {s : State} (h : s.windowsOk) (slot : Nat) {l : Lecture} (hl : l.sized) {g : Segment}
    (hg : g ∈ l.window) (hc : l.canCut g = true) (u : FiledUnit) : (s.leadCut slot l g u).windowsOk := by
  unfold State.leadCut
  extract_lets ranges g1 sealNow g2 _ s1 s2
  have hr : g2.renditions.length = l.profiles.length := by
    have : g2.renditions = g.renditions := by
      show (if sealNow then g1 else _).renditions = _
      split <;> rfl
    rw [this]
    exact hl.2.2.1 g hg
  have hz := Lecture.sized_clearLists (Lecture.sized_modSegment hl g.number (fun _ => g2) fun _ _ => hr)
  have h1 : s1.windowsOk := State.setLecture_windows h slot ⟨hz.1, hz.2.1, hz.2.2.1, hz.2.2.2⟩
  have h2 : s2.windowsOk := by
    refine State.endStretch_windows ?_ _
    split
    · exact State.sealSegment_windows h1 ..
    · exact h1
  split
  · exact State.enterEnding_windows h2 _
  · rename_i hn
    have hw : l.window.length < 8 := by
      simp only [Lecture.canCut, Bool.and_eq_true, Bool.or_eq_true, decide_eq_true_eq, beq_iff_eq] at hc
      exact hc.1.resolve_right hn
    have r1 : s1.room slot := by
      intro k e
      rw [State.lecture?_setLecture_same] at e
      cases e
      refine ⟨?_, Lecture.not_loaded (l := l) hl hg⟩
      show (l.modSegment g.number _).window.length < 8
      rw [Lecture.modSegment_length]
      exact hw
    refine State.openNext_windows h2 (State.endStretch_room ?_ _) ..
    split
    · exact State.sealSegment_room r1 _ _
    · exact r1

theorem State.startStretch_windows {s : State} (h : s.windowsOk) (slot : Nat) {l : Lecture} (hl : l.sized) (g : Segment) :
    (s.startStretch slot l g).windowsOk := by
  have hc := Lecture.sized_clearLists (Lecture.sized_modSegment hl g.number (fun g => { g with damaged := true })
    fun d hd => hl.2.2.1 d hd)
  refine State.setStretch_windows (State.setLecture_windows h slot ?_) _ _
  exact ⟨hc.1, hc.2.1, hc.2.2.1, hc.2.2.2⟩

theorem State.fileLead_windows {s : State} (h : s.windowsOk) (slot : Nat) {l : Lecture} (hl : l.sized) {g : Segment}
    (hg : g ∈ l.window) (u : FiledUnit) : (s.fileLead slot l g u).windowsOk := by
  unfold State.fileLead
  extract_lets due _ g1 l1 s1 limit
  have hl1 : l1.sized := Lecture.sized_modSegment hl g.number _ fun _ _ => hl.2.2.1 g hg
  have h1 : s1.windowsOk := State.setLecture_windows h slot hl1
  split
  · rename_i hc
    exact State.leadCut_windows h slot hl hg (by simpa using (Bool.and_eq_true _ _ ▸ hc).2) u
  · split
    · exact State.startStretch_windows h1 slot hl1 _
    · exact h1

theorem State.fileOther_windows {s : State} (h : s.windowsOk) (slot : Nat) {l : Lecture} (hl : l.sized) {g : Segment}
    (hg : g ∈ l.window) (u : FiledUnit) : (s.fileOther slot l g u).windowsOk := by
  unfold State.fileOther
  extract_lets l1
  have hl1 : l1.sized := Lecture.sized_modSegment hl g.number _ fun _ _ => hl.2.2.1 g hg
  split
  · split
    · rename_i hc
      refine State.setLecture_windows h slot (Lecture.sized_modPart hl1 _ _ ?_)
      show ((l.parts.get u.role).candidates ++ [_]).length ≤ 256
      rw [List.length_append]
      exact hc
    · exact State.setLecture_windows (l := { l1 with forcedCut := true }) h slot hl1
  · exact State.setLecture_windows h slot hl1

theorem State.fileOpen_windows {s : State} (h : s.windowsOk) (slot : Nat) (u : FiledUnit) :
    (s.fileOpen slot u).windowsOk := by
  unfold State.fileOpen
  split
  · exact h
  · rename_i l e
    have hl := h.1 slot l e
    split
    · exact h
    · rename_i g hg
      have hm := Lecture.openSegment_mem hg
      split
      · exact State.setLecture_windows h slot (Lecture.sized_modSegment hl _ _ fun d hd => by
          rw [Segment.fileStart_renditions]
          exact hl.2.2.1 d hd)
      · split
        · exact State.fileLead_windows h slot hl hm u
        · exact State.fileOther_windows h slot hl hm u

theorem State.fileUnit_windows {s : State} (h : s.windowsOk) (slot : Nat) (u : FiledUnit) :
    (s.fileUnit slot u).windowsOk := by
  unfold State.fileUnit
  split
  · exact h
  · rename_i l e
    split
    · exact State.fileOpen_windows h slot u
    · rename_i g hg
      have h1 := State.fileCutting_windows h slot (h.1 slot l e) (Lecture.cuttingSegment_mem hg) u
      split
      · dsimp only
        split
        · exact State.fileOpen_windows h1 slot u
        · exact h1
      · exact State.fileOpen_windows h slot u

/-! ### A unit notice (R7 to R13) -/

theorem State.openDue_windows {s : State} (h : s.windowsOk) (slot : Nat) : (s.openDue slot).windowsOk := by
  unfold State.openDue
  split
  · exact h
  · rename_i l e
    split
    · rename_i ho
      refine State.openNext_windows h (fun k hk => ?_) ..
      rw [e] at hk
      cases hk
      simp only [Lecture.opensNext, Bool.and_eq_true, beq_iff_eq, decide_eq_true_eq] at ho
      exact ⟨ho.2, by rw [ho.1.1.1]; decide⟩
    · exact h

theorem State.resume_windows {s : State} (h : s.windowsOk) (slot : Nat) : (s.resume slot).windowsOk := by
  unfold State.resume
  split
  · exact h
  · rename_i l e
    split
    · have h1 : ((s.setLecture slot { l with state := .running }).lectureEvent slot).windowsOk :=
        State.windowsOk_of (State.setLecture_windows h slot (Lecture.sized_state (h.1 slot l e) .running (by decide))) rfl
      dsimp only
      split
      · exact State.enterEnding_windows h1 _
      · exact State.openDue_windows h1 _
    · exact h

theorem State.startLecture_windows {s : State} (h : s.windowsOk) {slot : Nat} {l : Lecture}
    (e : s.lecture? slot = some l) (hs : l.state = .loaded) (u : FiledUnit) : (s.startLecture slot u).windowsOk := by
  have h1 : (s.modLecture slot (fun l => { l with base := some u.stamp, state := .running })).windowsOk :=
    State.modLecture_windows h slot fun x hl => Lecture.sized_state (l := { x with base := some u.stamp })
      ⟨hl.1, hl.2.1, hl.2.2.1, hl.2.2.2⟩ .running (by decide)
  refine State.windowsOk_of (State.openNext_windows h1 (slot := slot) (fun k hk => ?_) (some u.stamp)
    ((PerRole.all RoleRange.fresh).set u.role (startRange u.stamp u.start))) rfl
  unfold State.modLecture at hk
  rw [e] at hk
  dsimp only at hk
  rw [State.lecture?_setLecture_same] at hk
  cases hk
  refine ⟨?_, by dsimp only; decide⟩
  show l.window.length < 8
  rw [(h.1 slot l e).2.1 hs]
  decide

theorem State.useNotice_windows {s : State} (h : s.windowsOk) (slot : Nat) (n : UnitNotice) :
    (s.useNotice slot n).windowsOk := by
  unfold State.useNotice
  split
  · rename_i l u e _
    split
    · exact h
    · split
      · rename_i hs
        split
        · exact State.startLecture_windows h e hs u
        · exact h
      · exact State.fileUnit_windows h slot u
  · exact h

theorem State.takeNotice_windows {s : State} (h : s.windowsOk) (n : UnitNotice) : (s.takeNotice n).windowsOk := by
  unfold State.takeNotice
  split
  · exact h
  · rename_i l e
    split
    · exact h
    · exact State.presentMarks_windows (State.useNotice_windows (State.resume_windows (State.failover_windows
        (State.setLecture_windows h _ (Lecture.sized_noted (Lecture.sized_heard (h.1 _ l e) _) n)) _) _) _ n) _

/-! ### Publication, release, archive and abort (R17, R46, R47, R146, R148) -/

theorem entriesOf_length (slot : Nat) (l : Lecture) (g : Segment) : (entriesOf slot l g).length = g.renditions.length := by
  simp [entriesOf]

theorem State.publishHead_windows {s : State} (h : s.windowsOk) (slot : Nat) {l : Lecture} (hl : l.sized) {g : Segment}
    (hg : g ∈ l.window) (hf : l.profiles.length ≤ s.freeEntries) : (s.publishHead slot l g).windowsOk := by
  unfold State.publishHead
  extract_lets entries s1 s2
  have e1 : s1.sgc = s.sgc := foldl_keeps State.sgc _ (fun q e => by split <;> simp) _ _
  have h2 : s2.windowsOk := State.setLecture_windows (State.windowsOk_of h e1) slot (by
    refine ⟨Nat.le_trans ?_ hl.1, fun e => ?_, fun d hd => hl.2.2.1 d (List.mem_of_mem_tail hd), hl.2.2.2⟩
    · simp
    · show l.window.tail = []
      rw [hl.2.1 e]
      rfl)
  refine ⟨h2.1, ?_⟩
  show (s2.sgc.catalogue ++ entries).length ≤ 4096
  have e2 : s2.sgc.catalogue = s.sgc.catalogue :=
    Eq.trans (b := s1.sgc.catalogue) rfl (congrArg Sgc.catalogue e1)
  rw [List.length_append, e2, entriesOf_length, hl.2.2.1 g hg]
  have h3 := h.2
  unfold State.freeEntries Config.catalogue at hf
  omega

theorem State.joinWaiting_windows {s : State} (h : s.windowsOk) (slot : Nat) : (s.joinWaiting slot).windowsOk := by
  unfold State.joinWaiting
  split
  · exact h
  · exact State.windowsOk_tables h rfl rfl

theorem Lecture.publishable_mem {l : Lecture} {g : Segment} (h : l.publishable = some g) : g ∈ l.window :=
  List.mem_of_head? (Option.filter_eq_some_iff.1 h).1

theorem State.publishLoop_windows (slot fuel : Nat) {s : State} (h : s.windowsOk) :
    (State.publishLoop slot fuel s).windowsOk := by
  induction fuel generalizing s with
  | zero => exact h
  | succ n ih =>
    unfold State.publishLoop
    split
    · exact h
    · rename_i l e
      split
      · exact h
      · rename_i g hg
        split
        · rename_i hf
          exact ih (State.publishHead_windows h slot (h.1 slot l e) (Lecture.publishable_mem hg) hf)
        · exact State.joinWaiting_windows h slot

theorem State.publishFrom_windows {s : State} (h : s.windowsOk) (slot : Nat) : (s.publishFrom slot).windowsOk := by
  unfold State.publishFrom State.afterPublication
  refine State.testClosed_windows (State.presentMarks_windows (State.moveStretch_windows (State.openDue_windows ?_ _) _) _) _
  exact State.windowsOk_of (State.publishLoop_windows slot 9 h) rfl

theorem State.tryPublish_windows {s : State} (h : s.windowsOk) (slot : Nat) : (s.tryPublish slot).windowsOk := by
  unfold State.tryPublish
  (repeat' split) <;> first | exact h | exact State.publishFrom_windows h _ | exact State.joinWaiting_windows h _

theorem State.serveWaiting_windows (fuel : Nat) {s : State} (h : s.windowsOk) : (State.serveWaiting fuel s).windowsOk := by
  induction fuel generalizing s with
  | zero => exact h
  | succ n ih =>
    unfold State.serveWaiting
    (repeat' split) <;> first | exact h | exact ih (State.publishFrom_windows h _)

theorem State.entriesFreed_windows {s : State} (h : s.windowsOk) : s.entriesFreed.windowsOk :=
  State.serveWaiting_windows _ h

theorem Segment.outcome_renditions (g : Segment) (i : Nat) (v : RenditionState) :
    (g.outcome i v).renditions.length = g.renditions.length := by
  simp [Segment.outcome, setRendition]

theorem State.takeOutcome_windows {s : State} (h : s.windowsOk) (slot segment rendition : Nat) (v : RenditionState) :
    (s.takeOutcome slot segment rendition v).windowsOk := by
  unfold State.takeOutcome
  split
  · exact h
  · rename_i l e
    split
    · exact h
    · have hl := h.1 slot l e
      have h1 := State.presentMarks_windows (State.setLecture_windows h slot (Lecture.sized_modSegment hl segment
        (fun g => g.outcome rendition v) fun g hg => by rw [Segment.outcome_renditions]; exact hl.2.2.1 g hg)) slot
      dsimp only
      split
      · exact State.tryPublish_windows h1 _
      · exact h1

theorem State.removeEntries_windows {s : State} (h : s.windowsOk) (p : CatalogueEntry → Bool) :
    (s.removeEntries p).windowsOk := by
  unfold State.removeEntries
  extract_lets s1
  have e1 : s1.sgc = s.sgc := foldl_keeps State.sgc _ (fun q e => by split <;> simp) _ _
  have h1 := State.windowsOk_of h e1
  exact ⟨h1.1, Nat.le_trans (List.length_filter_le ..) h1.2⟩

theorem State.vacate_windows {s : State} (h : s.windowsOk) (slot : Nat) : (s.vacate slot).windowsOk := by
  refine ⟨fun m l e => ?_, h.2⟩
  replace e : (s.sgc.lectures.del slot).at? m = some l := e
  by_cases hm : m = slot
  · subst hm
    simp at e
  · exact h.1 m l (by rwa [Table.at?_del_ne _ hm] at e)

theorem State.archive_windows {s : State} (h : s.windowsOk) (slot : Nat) (l : Lecture) :
    (s.archive slot l).windowsOk :=
  State.vacate_windows (foldl_windows _ _ (fun _ _ hq => State.windowsOk_of hq (by simp))
    (State.removeEntries_windows h _)) _

theorem State.dropJobs_sgc (s : State) (slot : Nat) : (s.dropJobs slot).sgc = s.sgc :=
  foldl_keeps State.sgc _ (fun q e => by unfold State.dropJob; split <;> simp) _ _

theorem State.giveUpExtents_sgc (s : State) (slot : Nat) : (s.giveUpExtents slot).sgc = s.sgc :=
  foldl_keeps State.sgc _ (fun q e => by simp) _ _

theorem State.abortRecord_windows {s : State} (h : s.windowsOk) (slot : Nat) {l : Lecture} (hl : l.sized) :
    (s.abortRecord slot l).windowsOk := by
  refine State.windowsOk_tables (State.setLecture_windows h slot (l := { l.stopGaps.clearLists with
    state := .closed, aborted := true, window := [], forcedCut := false, stretch := .off }) ?_) rfl rfl
  exact ⟨Nat.zero_le _, fun _ => rfl, fun _ hg => (by cases hg),
    (Lecture.sized_clearLists (Lecture.sized_stopGaps hl)).2.2.2⟩

theorem State.abort_windows {s : State} (h : s.windowsOk) (slot : Nat) {l : Lecture} (hl : l.sized) :
    (s.abort slot l).windowsOk := by
  unfold State.abort
  extract_lets s1 s2 s3
  have h2 : s2.windowsOk := State.windowsOk_of (State.abortRecord_windows h slot hl)
    ((State.giveUpExtents_sgc ..).trans (State.dropJobs_sgc ..))
  have h3 : s3.windowsOk := foldl_windows _ _ (fun _ _ hq => State.windowsOk_of hq (by simp)) h2
  exact State.windowsOk_of h3 (by rw [State.settle_sgc]; rfl)

/-! ### Timers, messages and directives of a lecture (R5, R7, R14, R15, R36, R37, R40, R61, R146) -/

theorem State.gapExpire_windows {s : State} (h : s.windowsOk) (slot : Nat) (r : Role) :
    (s.gapExpire slot r).windowsOk := by
  unfold State.gapExpire
  split
  · exact h
  · rename_i l e
    split
    · exact h
    · have h1 := State.failover_windows (State.setLecture_windows h slot (Lecture.sized_modPart (h.1 slot l e) r
        (fun p => { p with silent := true, gapRunning := false, gapLeft := 0 }) ((h.1 slot l e).2.2.2 r))) slot
      dsimp only
      split
      · exact State.presentMarks_windows (State.stall_windows h1 _) _
      · exact h1

theorem State.skewExpire_windows {s : State} (h : s.windowsOk) (slot : Nat) : (s.skewExpire slot).windowsOk := by
  unfold State.skewExpire
  split
  · exact h
  · rename_i l e
    split
    · exact h
    · rename_i g hg
      split
      · exact h
      · extract_lets late g1 l1 l2
        have hl := h.1 slot l e
        have h1 : l1.sized := Lecture.sized_modSegment hl g.number _ fun _ _ =>
          hl.2.2.1 g (Lecture.cuttingSegment_mem hg)
        have h2 : l2.sized := Lecture.sized_parts h1 _ fun q => by
          rw [PerRole.get_map]
          split <;> exact hl.2.2.2 q
        exact State.presentMarks_windows (State.sealSegment_windows (State.setLecture_windows h slot h2) _ _) _

theorem State.endCuttingRole_windows {s : State} (h : s.windowsOk) (slot : Nat) (r : Role) :
    (s.endCuttingRole slot r).windowsOk := by
  unfold State.endCuttingRole
  split
  · exact h
  · rename_i l e
    split
    · exact h
    · rename_i g hg
      split
      · exact h
      · extract_lets g1 s1
        have h1 : s1.windowsOk :=
          State.setLecture_windows h slot (Lecture.sized_modSegment (h.1 slot l e) g.number _ fun _ _ =>
            (h.1 slot l e).2.2.1 g (Lecture.cuttingSegment_mem hg))
        split
        · exact State.sealSegment_windows h1 _ _
        · exact h1

theorem State.allEnded_windows {s : State} (h : s.windowsOk) (slot : Nat) (st : LectureState) :
    (s.allEnded slot st).windowsOk := by
  cases st
  · exact State.closeLecture_windows h slot
  · exact State.enterEnding_windows (State.endOpen_windows h slot) slot
  · exact State.enterEnding_windows h slot
  · exact h
  · exact h

theorem State.roleEnd_windows {s : State} (h : s.windowsOk) (slot : Nat) (r : Role) : (s.roleEnd slot r).windowsOk := by
  unfold State.roleEnd
  split
  · exact h
  · rename_i l e
    dsimp only
    split
    · exact h
    · have h1 := State.endCuttingRole_windows (State.failover_windows (State.setLecture_windows h slot
        (Lecture.sized_modPart (h.1 slot l e) r
          (fun p => { p with ended := true, silent := false, gapRunning := false, gapLeft := 0 })
          ((h.1 slot l e).2.2.2 r))) slot) slot r
      refine State.presentMarks_windows ?_ _
      split
      · exact State.allEnded_windows h1 _ _
      · exact h1

theorem State.lateDrop_windows {s : State} (h : s.windowsOk) (slot : Nat) (r : Role) :
    (s.lateDrop slot r).windowsOk := by
  unfold State.lateDrop
  split
  · exact h
  · rename_i l e
    split
    · exact h
    · refine State.failover_windows (State.setLecture_windows h slot ?_) _
      have hl := Lecture.sized_heard (h.1 slot l e) r
      split
      · exact hl
      · exact Lecture.sized_modSegment hl _ _ fun g hg => hl.2.2.1 g hg

theorem State.overrunDamage_windows {s : State} (h : s.windowsOk) (slot : Nat) : (s.overrunDamage slot).windowsOk :=
  State.modLecture_windows h slot fun l hl => by
    split
    · exact hl
    · exact Lecture.sized_modSegment hl _ _ fun g hg => hl.2.2.1 g hg

theorem State.load_windows {s : State} (h : s.windowsOk) (b : LoadBody) (cls : LectureClass) :
    (s.load b cls).windowsOk := by
  have h1 : (s.setLecture b.slot.toNat (loadedLecture b cls)).windowsOk :=
    State.setLecture_windows h _ ⟨Nat.zero_le _, fun _ => rfl, fun g hg => (by cases hg), fun r => by
      unfold loadedLecture
      rw [PerRole.get_map]
      exact Nat.zero_le _⟩
  refine State.windowsOk_of (s := State.setLecture _ _ _) h1 ?_
  exact foldl_keeps State.sgc _ (fun q r => by simp) _ _

theorem State.endLecture_windows {s : State} (h : s.windowsOk) (slot : Nat) : (s.endLecture slot).windowsOk :=
  State.presentMarks_windows (State.enterEnding_windows (State.endOpen_windows h slot) slot) slot

theorem State.release_windows {s : State} (h : s.windowsOk) (slot n : Nat) : (s.release slot n).1.windowsOk := by
  unfold State.release
  extract_lets gone segments s1
  have h1 : s1.windowsOk := State.modLecture_windows (State.removeEntries_windows h _) slot
    fun l hl => ⟨hl.1, hl.2.1, hl.2.2.1, hl.2.2.2⟩
  exact State.windowsOk_of (State.entriesFreed_windows h1) (by simp)

/-! ### A tick counting down (R7, R36) -/

theorem Lecture.sized_tick {l : Lecture} (h : l.sized) : l.tick.sized := by
  have hp := Lecture.sized_mapParts h RolePart.tick fun p hp => by
    unfold RolePart.tick
    split <;> exact hp
  refine ⟨?_, fun e => ?_, fun g hg => ?_, hp.2.2.2⟩
  · show (l.window.map _).length ≤ 8
    rw [List.length_map]
    exact h.1
  · show l.window.map _ = []
    rw [h.2.1 e]
    rfl
  · obtain ⟨d, hd, rfl⟩ := List.mem_map.1 hg
    unfold Segment.tick
    split <;> exact h.2.2.1 d hd

theorem Table.at?_map {α β : Type} (t : Table α) (f : α → β) (n : Nat) :
    Table.at? (t.map (fun e => (e.1, f e.2)) : Table β) n = (t.at? n).map f := by
  induction t with
  | nil => rfl
  | cons a t ih =>
    obtain ⟨k, v⟩ := a
    rw [List.map_cons, Table.at?_cons, Table.at?_cons, ih]
    split <;> rfl

theorem State.countDown_windows {s : State} (h : s.windowsOk) : s.countDown.windowsOk := by
  refine ⟨fun slot l e => ?_, h.2⟩
  replace e : (Table.at? (s.sgc.lectures.map (fun e => (e.1, e.2.tick)) : Table Lecture) slot) = some l := e
  rw [Table.at?_map] at e
  obtain ⟨k, hk, rfl⟩ := Option.map_eq_some_iff.1 e
  exact Lecture.sized_tick (h.1 slot k hk)

end Sys2Proof.Machine
end

