-- ==== Sys2Proof/Tests/Slice0.lean ====
section
/-! SUPPORT. Tests. Ill-formed commands the check refuses; check words and cells written out from spec 11_formats; for
every statement of the obligations that has hypotheses, a concrete state and operands that meet them; and a few single
steps. -/

namespace Sys2Proof.Tests

open Sys2Proof Sys2Proof.Machine

/-! ## Well-formedness: one ill-formed command for each check -/

/-- Every check refuses a command that breaks it. -/
theorem test_wf_refuses :
    ([.powerOnReset [64], .controlCell [], .reset 0 251, .cellmapSet 0 0 0 (List.replicate 83 ⟨2, 0, 0⟩),
      .profileSetWrite 0 0 0 0 0 0 0 0, .superframeSearchFrame ⟨0, 0, 0, 0, [], []⟩, .checkSearchFrame ⟨0, 0, 0, 0, [], []⟩,
      .inSyncFrame ⟨0, 0, 0, 0, [], []⟩, .payloadCell (.role 32 .camera) (List.replicate 256 0),
      .payloadCell .free [], .gapTimerExpiry 32 .voice, .skewTimerExpiry 32, .sanityTimerExpiry 12,
      .testChunkExpiry 12, .risingPhaseEnd 3, .fallingPhaseEnd 3, .supplyFault 3, .supplyMonitorNormal 3,
      .storeOpLimit 4 ⟨[], []⟩, .storeOpLimit 0 ⟨[64], []⟩, .storeOpLimit 0 ⟨[], List.replicate 513 0⟩, .suspendLimit 4, .eraseSuspendEffect 4,
      .readEnd 4 [], .readEnd 0 [64], .programEnd 4 true, .eraseEnd 4 true, .appendEnd false (List.replicate 513 0),
      .chunkEnd 12 [], .testChunkEnd 12 [], .sourceMalformed 12, .laneReadRequest 12 .camera 0 1,
      .laneReadRequest 0 .camera 0 0, .laneBufferRequest 12 [], .laneBlockRequest 12 [],
      .unitNotice ⟨32, .camera, 0, false, none⟩, .unitNotice ⟨0, .camera, 0, false, some ⟨true, 5, 4⟩⟩,
      .roleEndNotice 32 .camera, .lateDropReport 32 .camera 0, .overrunReport 32, .jobOutcome 32 0 0 (.failed .sanity),
      .jobOutcome 0 65536 0 (.failed .sanity), .jobOutcome 0 0 4 (.failed .sanity), .jobOutcome 0 0 0 (.done 4096),
      .channelWake 32, .sourceLowMark 32 .camera 0, .discardRequest 12 0, .discardRequest 0 256] : List Instr).all
      (fun i => !i.wf) = true := by decide +kernel

/-- A frame with a payload cell too short is refused, one with 62 cells of 256 bytes passes. -/
theorem test_wf_frames :
    (Instr.inSyncFrame ⟨0, 0, 0, 0, List.replicate 256 0, List.replicate 62 [0]⟩).wf = false
    ∧ (Instr.inSyncFrame ⟨0, 0, 0, 0, List.replicate 256 0, List.replicate 61 (List.replicate 256 0)⟩).wf = false
    ∧ (Instr.inSyncFrame ⟨0, 0, 0, 0, List.replicate 256 0, List.replicate 62 (List.replicate 256 0)⟩).wf = true := by
  decide +kernel

/-! ## Formats (spec 11) -/

/-- The digits 1 to 9 as ASCII bytes. -/
def nineDigits : List Byte := [0x31, 0x32, 0x33, 0x34, 0x35, 0x36, 0x37, 0x38, 0x39]

/-- The two check words over the digits 1 to 9 (R194). -/
theorem test_check_words : check16 nineDigits = 0x29B1 ∧ check32 nineDigits = 0xFC891918 := by decide +kernel

/-- Directives read from their codes and bodies (spec 11.3). -/
theorem test_directives_read :
    directiveOf 0x01 7 [] = some (.status 7)
    ∧ directiveOf 0x04 7 [] = some (.reset 7 0)
    ∧ directiveOf 0x10 7 [1, 0, 0x5A] = some (.trunkSet 7 1 0 0x5A)
    ∧ directiveOf 0x13 7 [0, 0xFF, 1, 2, 31, 2] = some (.cellmapSet 7 0 0xFF [⟨2, 31, 2⟩])
    ∧ directiveOf 0x20 7 [15, 1, 2, 4, 64, 0x07, 0xD0, 0x12, 0x34] = some (.profileSetWrite 7 15 1 2 4 64 2000 0x1234)
    ∧ directiveOf 0x20 7 [15, 0, 0, 0, 0, 0, 0, 0, 0] = some (.profileSetClear 7 15)
    ∧ directiveOf 0x30 7 [31, 1, 2, 3, 4, 5, 6, 0, 7, 20, 8, 60, 1, 3, 0, 0, 0]
        = some (.lectureLoad 7 31 0x01020304 0x0506 0 7 20 8 60 1 3 0 0 0)
    ∧ directiveOf 0x34 7 [31, 1, 0] = some (.lectureRelease 7 31 256)
    ∧ directiveOf 0x40 7 [12, 1] = some (.dispatchSet 7 12 1)
    ∧ directiveOf 0x50 7 [11, 0] = some (.laneRemove 7 11)
    ∧ directiveOf 0x50 7 [11, 1] = some (.laneRemoveForce 7 11)
    ∧ directiveOf 0x54 7 [2, 1] = some (.groupOffForce 7 2)
    ∧ directiveOf 0x60 7 [0x10, 0x00] = some (.storeSet 7 4096)
    ∧ directiveOf 0x70 7 [7, 31, 3, 0, 1, 0, 0, 2] = some (.fetch 7 7 31 3 1 0 2) := by decide

/-- A body whose length disagrees, or a count out of range, gives no directive (R179 step 6). -/
theorem test_directives_refused :
    directiveOf 0x01 7 [0] = none ∧ directiveOf 0x13 7 [0, 0xFF, 0] = none ∧ directiveOf 0x13 7 [0, 0xFF, 2, 2, 31, 2] = none
    ∧ directiveOf 0x30 7 [31, 1, 2, 3, 4, 5, 6, 0, 7, 20, 8, 60, 5, 3, 0, 0, 0] = none ∧ directiveOf 0x05 7 [] = none := by
  decide

/-- A control cell of one code, tag and body without its check. -/
theorem test_reset_arm_cell :
    (cellOfDirective (.resetArm 0x0102)).map (fun c => c.take 5) = some [0x03, 0x01, 0x02, 0x00, 0x00] := by decide

/-- An entry place naming block 0x1234 (R195). -/
theorem test_place_entry : (placeEntry 0x1234).take 6 = [0xB5, 0x00, 0x12, 0x34, 0xED, 0xCB]
    ∧ (placeEntry 0x1234).length = 512 := by decide +kernel

/-- Targets: exact half rounds up to the next multiple (R26). -/
theorem test_targets : targetStamp 0 0 4000 = 4000 ∧ targetStamp 0 2000 4000 = 4000 ∧ targetStamp 0 2001 4000 = 8000
    ∧ targetStamp 0xFFFFFF00#32 0 4000 = 0xEA0#32 := by decide

/-! ## Small states -/

/-- A Store Controller with nothing in any list, READY. -/
def quietStc : Stc := ⟨[], [], [], [], [], [], [], true, 0, 512, .normal, [], 0, [], 0⟩

/-- The part after reset with an empty store. -/
def quiet : State := { State.reset with stc := quietStc }

/-- A directive is accepted where nothing is under way and a reply place is free. -/
theorem accepts_of (s : State) (c : Instr) (h : s.sent = []) (p : s.placesInUse < 4) : s.accepts c :=
  ⟨by simp [h], p⟩

/-- The quiet part accepts every directive. -/
theorem quiet_accepts (c : Instr) : quiet.accepts c := accepts_of quiet c rfl (by decide)

/-- The quiet part has no claim to serve and no copy to go on with. -/
theorem quiet_atRest : quiet.atRest := ⟨rfl, fun _ h => by cases h⟩

/-- The quiet part with four filled reply places. -/
def full : State := { quiet with ccu := { quiet.ccu with replies := List.replicate 4 ⟨1, 0, .done, []⟩ } }

/-- The quiet part with the arm ARMED. -/
def armed : State := { quiet with ccu := { quiet.ccu with armed := true } }

/-- The quiet part with another receiver. -/
def atTrr (t : Trr) : State := { quiet with trr := t }

/-- The quiet part with a lane record. -/
def atLane (n : Nat) (l : Lane) : State := quiet.setLane n l

/-- The quiet part with a group record. -/
def atGroup (g : Nat) (x : Group) : State := quiet.setGroup g x

/-- The part of a role. -/
def part (present ended : Bool) : RolePart := ⟨present, ended, false, present, 16000, none, none, 0, none, 0, []⟩

/-- A lecture of CAMERA and VOICE in a state, with a window. -/
def lecture (st : LectureState) (w : List Segment) : Lecture :=
  ⟨7, 9, .live, .camera, 4, [0], 2, 10, st, some 0, w.length, 0, 0, false, false, false, .off,
    ⟨part true false, part true false, part false false⟩, w⟩

/-- A lecture of CAMERA alone. -/
def soloLecture (st : LectureState) (w : List Segment) : Lecture :=
  { lecture st w with parts := ⟨part true false, part false false, part false false⟩ }

/-- A segment with its lead started at stamp 0, offset 0. -/
def segment (n : Nat) (st : SegmentState) : Segment :=
  ⟨n, st, some 0, some 4000, none, none, none, 0, 1,
    ⟨startRange 0 0, startRange 0 0, RoleRange.fresh⟩, false, false, false, false, false, [.pending], false, 0⟩

/-- The quiet part with a lecture in a slot. -/
def atLecture (slot : Nat) (l : Lecture) : State := quiet.setLecture slot l

/-- A job for rendition 0 of segment 0 of slot 0 with two chunks. -/
def job : Job := ⟨0, 0, 0, 0, .live, 0, 2, 0, none, none, none⟩

/-- A BUSY lane that holds job 0 with its sanity timer running. -/
def busyLane : Lane := { Lane.reset with state := .busy, job := some 0, timer := .running 800 }

/-- Lane 0 BUSY with job 0. -/
def working : State := { (atLane 0 busyLane).setJob 0 { job with lane := some 0, order := some 1 } with sent := [] }

/-! ## Steps and resets -/

/-- IdleStep: a message under way, nothing under way, and a group that counts. -/
theorem witness_idle :
    (quiet.pending = [] ∧ (quiet.send .returnFrame).sent = .returnFrame :: [])
    ∧ quiet.sent = [] ∧ 1 < ((atGroup 2 { Group.reset with left := 2 }).group 2).left := by decide

/-- The quiet part with a running gap timer of CAMERA in slot 31 and a test timer of lane 0, with ticks left. -/
def ticking (gap test : Nat) : State :=
  (quiet.setLecture 31 { lecture .running [] with
    parts := ⟨{ part true false with gapLeft := gap }, part true false, part false false⟩ }).setLane 0
    { Lane.reset with state := .test, timer := .running test }

/-- IdleStep, the timers: none that runs out with this tick; the gap timer of slot 31 alone, and then no other; a
lane's timer alone. -/
theorem witness_timers_due :
    ((ticking 2 2).pending = [] ∧ (ticking 2 2).sent = [])
    ∧ ([.gap 31 .camera, .gap 31 .voice, .skew 31, .lane 0, .phase 2] : List Timer).map (ticking 2 2).countDown.due
        = [false, false, false, false, false]
    ∧ ([.gap 31 .camera, .gap 31 .voice, .skew 31, .lane 0, .phase 2] : List Timer).map (ticking 1 2).countDown.due
        = [true, false, false, false, false]
    ∧ ([.gap 31 .camera, .lane 0] : List Timer).map (ticking 2 1).countDown.due = [false, true]
    ∧ (ticking 2 1).countDown.expiry (.lane 0) = .testChunkExpiry 0
    ∧ (match exec (.gapTimerExpiry 31 .camera) (ticking 1 2).countDown with
        | .next u => ([.gap 31 .camera, .gap 31 .voice, .skew 31, .lane 0] : List Timer).any u.due
        | _ => true) = false := by decide

/-- ResetsBringUp: an armed part with no APPEND in progress. -/
theorem witness_resets : armed.ccu.armed = true ∧ ∀ g k, (quiet.bank 0).op ≠ some (.append g k) :=
  ⟨rfl, fun g k h => by simp [State.bank, quiet, quietStc, Table.atD, Table.at?, Bank.empty] at h⟩

/-- ArmAndRefusedReset: a disarmed part accepts each of the directives. -/
theorem witness_arm : quiet.accepts (.resetArm 1) ∧ (quiet.accepts (.reset 1 0) ∧ quiet.ccu.armed = false)
    ∧ (quiet.accepts (.reset 1 1) ∧ (1 : Byte) ≠ 0) :=
  ⟨quiet_accepts _, ⟨quiet_accepts _, rfl⟩, quiet_accepts _, by decide⟩

/-- StatusReports and AlarmRetire: accepted. -/
theorem witness_status : quiet.accepts (.status 1) ∧ quiet.accepts (.alarmRetire 1) :=
  ⟨quiet_accepts _, quiet_accepts _⟩

/-- ConditionsAndEvents: an active and an inactive condition; one pending event. -/
theorem witness_conditions :
    quiet.condition .trunkSync = true ∧ quiet.condition .jobFailed = false
    ∧ (quiet.ccu.events.map (fun e => e.object)).Nodup ∧ (∀ e ∈ quiet.ccu.events, e.object ≠ .store)
    ∧ quiet.ccu.events.map (fun e => e.object) = [.part] := by decide

/-- FullReplyPlacesDiscard: four places in use; a RESET of body length 0 while the arm is DISARMED among the
directives. -/
theorem witness_full :
    Instr.isDirective (.reset 1 0) = true ∧ Instr.reset 1 0 ∉ full.sent ∧ 4 ≤ full.placesInUse ∧ full.ccu.armed = false :=
  by decide

/-- 254 bytes of zero. -/
def zeros : List Byte := List.replicate 254 0

/-- The control cells of ControlCellNotHandedOver: a wrong check, code 0, an unknown code, a body that disagrees. -/
theorem witness_cells :
    cellCheckOk (zeros ++ be2 (check16 zeros + 1).toNat) = false
    ∧ (cellCheckOk (envelope 0 0 []) = true ∧ cellCode (envelope 0 0 []) = 0)
    ∧ (cellCheckOk (envelope 5 1 []) = true ∧ cellCode (envelope 5 1 []) ≠ 0
        ∧ (cellCode (envelope 5 1 [])).toNat ∉ knownCodes)
    ∧ (cellCheckOk (envelope 0x50 1 []) = true ∧ (cellCode (envelope 0x50 1 [])).toNat ∈ knownCodes
        ∧ directiveOfCell (envelope 0x50 1 []) = none)
    ∧ quiet.placesInUse < 4 ∧ quiet.sent = [] := by
  refine ⟨cellCheckOk_wrong zeros _ List.length_replicate (BitVec.isLt _) (fun h => ?_), ⟨cellCheckOk_envelope _ _ _, rfl⟩,
    ⟨cellCheckOk_envelope _ _ _, by decide, by decide⟩, ⟨cellCheckOk_envelope _ _ _, by decide, rfl⟩, by decide, rfl⟩
  have h1 := BitVec.eq_of_toNat_eq h
  bv_omega

/-- ControlCellHandsOver, CellThenDirective, DirectiveCellsReadBack: a directive of the lanes. -/
theorem witness_hand_over :
    (Instr.laneQuery 1 2).handedOver = true ∧ directiveParts (.laneQuery 1 2) = some (0x52, 1, [2])
    ∧ cellOfDirective (.laneQuery 1 2) = some (envelope 0x52 1 [2]) ∧ quiet.sent = [] ∧ quiet.placesInUse < 4 :=
  ⟨rfl, rfl, rfl, rfl, by decide⟩

/-- FieldsRefused: counts and numbers just outside their ranges. -/
theorem witness_fields :
    (([] : List RawMapEntry).length < 1 ∧ 62 < (List.replicate 63 (⟨2, 0, 0⟩ : RawMapEntry)).length)
    ∧ ((0 : Byte).toNat < 1 ∧ 4 < (5 : Byte).toNat) ∧ 32 ≤ (32 : Byte).toNat ∧ 16 ≤ (16 : Byte).toNat
    ∧ 12 ≤ (12 : Byte).toNat ∧ 3 ≤ (3 : Byte).toNat ∧ 4 ≤ (4 : Byte).toNat ∧ 8 ≤ (8 : Byte).toNat
    ∧ ((Instr.lectureArchive 1 32, 0x35) : Instr × Nat) ∈ [(Instr.lectureQuery 1 32, 0x31), (.lectureClose 1 32, 0x32),
        (.lectureAbort 1 32, 0x33), (.lectureArchive 1 32, 0x35)] := by decide

/-- QueriesOnlyReply: the highest numbers; a lecture in slot 31. -/
theorem witness_queries :
    (15 : Byte).toNat < 16 ∧ (31 : Byte).toNat < 32 ∧ (11 : Byte).toNat < 12 ∧ (3 : Byte).toNat < 4
    ∧ (7 : Byte).toNat < 8 ∧ (atLecture 31 (lecture .loaded [])).lecture? 31 = some (lecture .loaded [])
    ∧ quiet.accepts (.queueQuery 1 1 0) ∧ (atLecture 31 (lecture .loaded [])).accepts (.segmentQuery 1 31 0) :=
  ⟨by decide, by decide, by decide, by decide, by decide, rfl, quiet_accepts _, accepts_of _ _ rfl (by decide)⟩

/-- DirectivesFrame: FETCH is one of its directives. -/
theorem witness_directives :
    directiveParts (.fetch 1 7 31 3 0 1 0) = some (0x70, 1, [7, 31, 3, 0, 0, 1, 0, 0])
    ∧ quiet.accepts (.fetch 1 7 31 3 0 1 0) := ⟨by decide, quiet_accepts _⟩

/-! ## The capture trunk -/

/-- The receiver in a sync state with a frame count. -/
def inState (y : SyncState) (count : Option Nat) : Trr := { Trr.reset with sync := y, frameCount := count }

/-- A forward frame with a word, an index and flags. -/
def frame (word : Word32) (index flags : Byte) : ForwardFrame := ⟨word, index, flags, 0, [], []⟩

/-- TrunkSet: both settings, a value that is neither, and the change that leaves SEARCH_CHECK. -/
theorem witness_trunk_set :
    onOff 0 = some false ∧ onOff 1 = some true ∧ onOff 2 = none ∧ quiet.trr.checkEnable = true
    ∧ (atTrr (inState .searchCheck (some 3))).trr.sync = .searchCheck
    ∧ (atTrr (inState .searchCheck (some 3))).trr.checkEnable = true := by decide

/-- TrunkQuery: the three selectors, and a clear flag that is neither OFF nor ON. -/
theorem witness_trunk_query :
    (trunkQueryBytes quiet 0).isSome = true ∧ (trunkQueryBytes quiet 1).isSome = true
    ∧ (trunkQueryBytes quiet 2).isSome = true ∧ (2 : Byte) ≠ 0 ∧ (2 : Byte) ≠ 1 := by decide

/-- CellmapSet: the lowest and highest positions, slot and channel; a change pending and none pending. -/
theorem witness_cellmap :
    activationOf 0xFF = some .next ∧ activationOf 19 = some (.frame 19)
    ∧ positionsOk [⟨2, 31, 2⟩, ⟨63, 0xFF, 0⟩] = true
    ∧ (∀ e ∈ [(⟨2, 31, 2⟩ : RawMapEntry), ⟨63, 0xFF, 0⟩], (forwardAssignment e).isSome = true)
    ∧ positionsOk [⟨2, 7, 0⟩] = true ∧ (∀ e ∈ [(⟨2, 7, 0⟩ : RawMapEntry)], (returnAssignment e).isSome = true)
    ∧ quiet.trr.pendingMap = none ∧ (atTrr { Trr.reset with pendingMap := some ([], .next) }).trr.pendingMap ≠ none
    ∧ positionsOk ((List.range' 2 62).map (fun p => ⟨BitVec.ofNat 8 p, 0xFF, 0⟩)) = true := by decide

/-- The receiver with a candidate due at the next bit, the alignment word about to complete. -/
def nearPass : Trr :=
  { Trr.reset with shift := 0x26369D48#32 ||| 0x80000000#32, examined := 131999, candidates := [⟨132000, true⟩] }

/-- FrameSearch: a candidate that passes; a candidate that is not due; the alignment word after 32 bits; a candidate due
on the complement. -/
theorem witness_frame_search :
    ((nearPass.shift <<< 1) ||| 1#32 = 0x4C6D3A91#32
      ∧ ∃ c ∈ nearPass.candidates, c.due = nearPass.examined + 1 ∧ c.complementSeen = true)
    ∧ (32 ≤ ({ nearPass with candidates := [⟨140000, true⟩] } : Trr).examined + 1
      ∧ ∀ c ∈ ({ nearPass with candidates := [⟨140000, true⟩] } : Trr).candidates, c.due ≠ nearPass.examined + 1)
    ∧ ((0xD9C962B7#32 <<< 1) ||| 0#32 = 0xB392C56E#32) ∧ SyncState.inSync ≠ .searchFrame := by decide

/-- SearchFrames in SEARCH_SUPERFRAME: a wrong word; index 19 as the third of its run and the second; index 0 after
19; an index of the other parity; the 59th and the 60th frame. -/
theorem witness_superframe_search :
    (frame 0 0 0).word ≠ parityWord false
    ∧ ((frame 0xB392C56E 19 0).word = parityWord false ∧ (frame 0xB392C56E 19 0).index.toNat = (18 + 1) % 20
        ∧ ((frame 0xB392C56E 19 0).index.toNat % 2 = 0 ↔ false = true))
    ∧ ((frame 0x4C6D3A91 0 0).word = parityWord true ∧ (frame 0x4C6D3A91 0 0).index.toNat = (19 + 1) % 20
        ∧ ((frame 0x4C6D3A91 0 0).index.toNat % 2 = 0 ↔ true = true))
    ∧ isEven (frame 0x4C6D3A91 19 0).index.toNat ≠ true ∧ ¬ (frame 0x4C6D3A91 20 0).index.toNat < 20
    ∧ ({ inState .searchSuperframe none with indexRun := 2 } : Trr).indexRun = 2 ∧ 58 < 59 ∧ 59 ≤ 59 := by decide

/-- SearchFrames in SEARCH_CHECK: a right frame with two correct comparisons, and one with none, before the 160th
frame and at it; a wrong index; a pending map that comes into force with the frame delivered. -/
theorem witness_check_search :
    let t : Trr := { inState .searchCheck (some 19) with checkResults := [true, true] }
    let u := inState .searchCheck (some 18)
    ((frame 0x4C6D3A91 0 0).word = parityWord (isEven t.nextCount) ∧ (frame 0x4C6D3A91 0 0).index.toNat = t.nextCount
      ∧ 2 ≤ correctResults (addResult t.checkResults (superCompare t t.nextCount (frame 0x4C6D3A91 0 0)) 3))
    ∧ ((frame 0xB392C56E 19 0).word = parityWord (isEven u.nextCount) ∧ (frame 0xB392C56E 19 0).index.toNat = u.nextCount
      ∧ correctResults (addResult u.checkResults (superCompare u u.nextCount (frame 0xB392C56E 19 0)) 3) < 2
      ∧ u.searchFrames < 159 ∧ 159 ≤ ({ u with searchFrames := 159 } : Trr).searchFrames)
    ∧ (frame 0xB392C56E 18 0).index.toNat ≠ u.nextCount
    ∧ (({ t with pendingMap := some ([(2, .role 0 .voice)], .frame 0) } : Trr).activate t.nextCount).map
        = [(2, .role 0 .voice)] := by decide

/-- InSyncDelivers: no resync condition, with a right word and each far-end flag, and with a wrong word. -/
theorem witness_in_sync :
    let t := inState .inSync (some 18)
    t.sync = .inSync ∧ resyncCondition (t.tested (frame 0xB392C56E 19 0)) = none
    ∧ resyncCondition (t.tested (frame 0 19 1)) = none
    ∧ (frame 0xB392C56E 19 0).flags.getLsbD 0 = (atTrr t).condition .returnLost
    ∧ (frame 0xB392C56E 19 1).flags.getLsbD 0 ≠ (atTrr t).condition .returnLost
    ∧ 1 ≤ ({ t with farEndRun := 1 } : Trr).farEndRun ∧ t.farEndRun = 0
    ∧ ((frame 0 19 1).word != parityWord (isEven t.nextCount)) = true := by decide

/-- A receiver in IN_SYNC at the end of a computed superframe, with a check history. -/
def checking (history : List Bool) : Trr :=
  { inState .inSync (some 19) with superCheck := some 7, history := history }

/-- InSyncDelivers and InSyncLosesSync, the check history: a comparison with 43 and with 44 wrong results behind it, and
with 50 results, the oldest of them wrong; checking off. -/
theorem witness_check_history :
    let f := frame 0x4C6D3A91 0 1
    (f.word = parityWord (isEven (checking []).nextCount) ∧ f.index.toNat = (checking []).nextCount
      ∧ (checking []).checkEnable = true ∧ (checking []).superCheck = some 7 ∧ (7 : Word16) ≠ f.check)
    ∧ resyncCondition ((checking (List.replicate 43 false)).tested f) = none
    ∧ resyncCondition ((checking (List.replicate 44 false)).tested f) = some .check
    ∧ (false :: List.replicate 49 true).length ≤ 50
    ∧ resyncCondition (({ checking (List.replicate 50 false) with checkEnable := false } : Trr).tested f) = none := by
  decide +kernel

/-- InSyncLosesSync: the fourth wrong word, and the second index out of sequence. -/
theorem witness_loses_sync :
    let t : Trr := { inState .inSync (some 18) with alignmentRun := 3 }
    let u : Trr := { inState .inSync (some 18) with indexRunInSync := 1 }
    t.autoResync = true ∧ 3 ≤ t.alignmentRun ∧ (frame 0 19 0).word ≠ parityWord (isEven t.nextCount)
    ∧ resyncCondition (t.tested (frame 0 19 0)) = some .alignment
    ∧ (frame 0xB392C56E 18 0).word = parityWord (isEven u.nextCount) ∧ 1 ≤ u.indexRunInSync
    ∧ (frame 0xB392C56E 18 0).index.toNat ≠ u.nextCount := by decide

/-- A channel that sends the body of segment 4 in FOLLOW: 5000 bytes, page 1 full, 4200 bytes placed. -/
def bodyChannel : Channel :=
  { Channel.reset with
    state := .sending, fetch := some ⟨0, 0, .follow, 4⟩, current := some 4, item := some .body, hasBody := true
    extent := some 3, bodyLength := 5000, placed := 4200, nextPage := 2, place1 := .full 1 (List.replicate 904 7) }

/-- The quiet part with channel 7 mapped to return cell 63. -/
def mapped (x : Channel) : State :=
  (quiet.setChannel 7 x).setLecture 0 (lecture .running []) |> fun s => { s with trt := { s.trt with map := [(63, .channel 7)] } }

/-- ReturnFrame, the frame: a reply waits; events and no reply; neither; a FREE cell and a mapped one in one map. -/
theorem witness_return_frame :
    (full.ccu.replies.length = 4 ∧ full.ccu.replies.head? = some ⟨1, 0, .done, []⟩)
    ∧ (quiet.ccu.replies = [] ∧ quiet.ccu.events.length = 1)
    ∧ ({ quiet.ccu with events := [] } : Ccu).events = []
    ∧ ((mapped bodyChannel).trt.activate quiet.trt.nextIndex).map = [(63, .channel 7)]
    ∧ Table.atD ([(63, .channel 7)] : Table ReturnEntry) 2 .free = .free
    ∧ Table.atD ([(63, .channel 7)] : Table ReturnEntry) 63 .free = .channel 7 := by decide

/-- ReturnFrame, the events: a map in force with no channel in it, with an event pending and a reply waiting, and with
no reply; one with a channel. -/
theorem witness_return_events :
    (∀ p < 64, Table.atD (full.trt.activate full.trt.nextIndex).map p .free = .free)
    ∧ (full.ccu.replies ≠ [] ∧ full.ccu.events.length = 1)
    ∧ ((∀ p < 64, Table.atD (quiet.trt.activate quiet.trt.nextIndex).map p .free = .free)
      ∧ quiet.ccu.replies = [] ∧ quiet.ccu.events.length = 1)
    ∧ Table.atD ((mapped bodyChannel).trt.activate quiet.trt.nextIndex).map 63 .free ≠ .free := by decide

/-- A catalogue entry of segment 5 of slot 0 with an extent or none. -/
def entry (extent : Option Nat) : CatalogueEntry :=
  ⟨0, 5, 0, extent, some 0, 4000, false, false, false, false, false⟩

/-- The quiet part with that entry. -/
def catalogued (extent : Option Nat) : State := { quiet with sgc := { quiet.sgc with catalogue := [entry extent] } }

/-- The look-ups by which a channel begins a segment (State.begins): an entry with an extent and one without (ABSENT),
RELEASED, DROPPED, not yet published, and NEVER_OPENED in FOLLOW and in RANGE. -/
theorem witness_begins :
    (catalogued (some 3)).lookUp 0 5 0 (lecture .running []) = .entry (entry (some 3))
    ∧ (catalogued none).lookUp 0 5 0 (lecture .running []) = .entry (entry none)
    ∧ quiet.lookUp 0 5 0 { lecture .running [] with nextPublish := 6 } = .released
    ∧ quiet.lookUp 0 5 0 { lecture .closed [] with nextSegment := 6 } = .dropped
    ∧ quiet.lookUp 0 5 0 { lecture .running [] with nextPublish := 5 } = .notYet
    ∧ quiet.lookUp 0 5 0 { lecture .closed [] with nextSegment := 5 } = .neverOpened
    ∧ modeOf 0 9 = some (.range 9) ∧ modeOf 1 9 = some .follow := by decide

/-- ReturnFrame, the channel: no item; a body with its page full, with no byte ready, and padded; an END header. -/
theorem witness_return_channel :
    ((mapped bodyChannel).channel 7 = bodyChannel ∧ bodyChannel.cutDue = false ∧ bodyChannel.padFrom = none
      ∧ bodyChannel.place (bodyChannel.placed / 4096) = .full (bodyChannel.placed / 4096) (List.replicate 904 7)
      ∧ bodyChannel.placed % 4096 + 256 < (List.replicate 904 (7 : Byte)).length
      ∧ bodyChannel.placed + 256 < bodyChannel.bodyLength)
    ∧ Channel.reset.item = none ∧ ({ bodyChannel with place1 := .requested 1 } : Channel).readyBody = []
    ∧ (({ bodyChannel with padFrom := some 4096 } : Channel).padFrom = some 4096 ∧ 4096 ≤ bodyChannel.placed)
    ∧ (Channel.reset.build .ending (List.replicate 64 1)).bytes.length ≤ 256 := by decide +kernel

/-- ReturnFrame, the segments: one before the last of a RANGE and the last; in FOLLOW a segment not yet published, and
one that a CLOSED lecture never opened; a page that a READ brings, well and with an error. -/
theorem witness_return_segments :
    bodyChannel.fetch = some ⟨0, 0, .follow, 4⟩ ∧ bodyChannel.current = some 4 ∧ bodyChannel.stopRequested = false
    ∧ FetchMode.range 5 ≠ .range 4 ∧ FetchMode.follow ≠ .range 4
    ∧ (mapped bodyChannel).lecture? 0 = some (lecture .running [])
    ∧ quiet.lookUp 0 5 0 (lecture .running []) = .notYet ∧ quiet.lookUp 0 5 0 (lecture .closed []) = .neverOpened
    ∧ ({ bodyChannel with place0 := .requested 0 } : Channel).place 0 = .requested 0
    ∧ ((quiet.setBank 1 { Bank.empty with op := some (.read ⟨.channel 7 0, 4099, [0], 0, 4096⟩ true) }).bank 1).op
        = some (.read ⟨.channel 7 0, 4099, [0], 0, 4096⟩ true)
    ∧ (0 ∉ ([] : List Nat) ∧ 0 ∉ (quiet.block 4099).lost ∧ 0 ∈ [0]) := by decide

/-! ## Stream intake -/

/-- Slot 0 RUNNING, its CAMERA role in the body of a unit of 10 bytes, 100 bytes of its page written. -/
def inBody : State :=
  { (atLecture 0 (lecture .running [segment 0 .opened])).setIntake 0 .camera { IntakeRec.reset with
      parse := .body, declared := 10, unitStart := some 84, writePos := 100 } with
    stc := { quietStc with buffers := [(0, ⟨.filling, .own (.run 0 .camera), 5, 0, List.replicate 100 0, 84, false, false⟩)] } }

/-- PayloadCell: a free cell; a vacant slot; a closed lecture; nine body bytes of ten. -/
theorem witness_payload_cell :
    takesCells (quiet.lecture? 31) .voice = false
    ∧ takesCells ((atLecture 0 (lecture .closed [])).lecture? 0) .voice = false
    ∧ takesCells ((atLecture 0 (lecture .running [])).lecture? 0) .screen = false
    ∧ (takesCells (inBody.lecture? 0) .camera = true ∧ (inBody.intake 0 .camera).overrun = .clear
      ∧ (inBody.intake 0 .camera).parse = .body ∧ (inBody.intake 0 .camera).disposition = .append
      ∧ (inBody.intake 0 .camera).received + 9 < (inBody.intake 0 .camera).declared
      ∧ inBody.fillingOf (.run 0 .camera) = some 0
      ∧ (inBody.buf? 0).any (fun b => b.state == .filling && decide (b.data.length + 9 < 4096)
          && b.owner == .own (.run 0 .camera)
          && b.data.length == (inBody.intake 0 .camera).writePos % 4096) = true) := by decide

/-- Slot 0's CAMERA in overrun at a write position, with a broken unit or none, its run waiting for a page buffer, all
160 of them in use, one by the PROGRAM under way in bank 0. -/
def overrun (broken : Option BrokenUnit) (pos : Nat) : State :=
  let u := (atLecture 0 (lecture .running [segment 0 .opened])).setIntake 0 .camera
    { IntakeRec.reset with overrun := .waiting, broken := broken, writePos := pos }
  { u with stc := { quietStc with
      runs := [(0, ⟨[5], 0, some 0, 0, false⟩)], claims := [⟨.run 0 .camera, .buffer⟩]
      buffers := (List.range 160).map (fun i => (i, ⟨.programming, .own (.extent i), 7, 0, [1], 1, false, false⟩))
      banks := [(0, { Bank.empty with op := some (.program ⟨159, 7, 0⟩) })] } }

/-- A broken unit from offset 4090 on with a declared length, three of its body bytes received. -/
def heldUnit (declared : Nat) : BrokenUnit := ⟨false, 4090, List.replicate 16 0, 5, true, declared, 3⟩

/-- What is left of that unit from a position on. -/
def leftOf (declared pos : Nat) : Nat :=
  (((heldUnit declared).header ++ List.replicate declared 0 ++ suffixBytes false 3).drop (pos - 4090)).length

/-- PayloadCell, the end of an overrun: no broken unit; one of which its header, pad and suffix are left, and the last
four bytes of its suffix; one that needs another page; a run that waits for a block. -/
theorem witness_overrun_end :
    let s := overrun (some (heldUnit 100)) 4096
    ((s.bank 0).op = some (.program ⟨159, 7, 0⟩) ∧ (s.buf? 159).isSome = true
      ∧ s.stc.buffers.map (fun e => e.1) = List.range 160 ∧ s.stc.buffers.length = 160 ∧ s.stc.relocations = []
      ∧ s.stc.claims = [⟨.run 0 .camera, .buffer⟩] ∧ (s.run? 0 .camera).isSome = true
      ∧ s.fillingOf (.run 0 .camera) = none ∧ (s.lecture? 0).any (fun l => l.state == .running) = true)
    ∧ ((overrun none 4096).intake 0 .camera).broken = none
    ∧ ((s.intake 0 .camera).broken = some (heldUnit 100) ∧ (heldUnit 100).header.length = 16 ∧ 4090 ≤ 4096
      ∧ 4096 % 4096 = 0 ∧ leftOf 100 4096 = 118)
    ∧ leftOf 4082 8192 = 4 ∧ 4096 < leftOf 6000 4096 ∧ 4096 + 4096 < 0 + [5].length * 262144
    ∧ (let v := overrun none 262144
      let u : State := { v with stc := { v.stc with
        claims := [⟨.run 0 .camera, .block⟩]
        banks := [(2, { Bank.empty with erase := some ⟨8200, .running, 0, false⟩ }),
          (3, { Bank.empty with free := List.range' 12300 32 })] } }
      (u.bank 2).erase = some ⟨8200, .running, 0, false⟩ ∧ 32 ≤ u.freeBlocks ∧ u.stc.relocations = []
        ∧ u.run? 0 .camera = some ⟨[5], 0, some 0, 0, false⟩ ∧ (u.intake 0 .camera).broken = none
        ∧ (u.intake 0 .camera).writePos = 0 + [5].length * 262144 ∧ 0 < 0 + 262144) := by decide +kernel

/-- A unit header of a kind and a stamp, with no body. -/
def header (kind stamp : Byte) : List Byte := [0x4C, 0x55, kind, 0, 0, 0, 0, stamp, 0, 0, 0, 0, 0, 0, 0, 0]

/-- The part of `inBody` has no claim to serve and no copy to go on with. -/
theorem inBody_atRest : inBody.atRest := ⟨rfl, fun _ h => by cases h⟩

/-- A header with its check. -/
def checked (kind stamp : Byte) : List Byte := withCheck16 ((header kind stamp).take 14)

/-- HeaderFates, the byte stream: a record in overrun; hunting with and without 0x4C seen; 14 and 15 header bytes
held; a header that is accepted and one that is not. -/
theorem witness_header_bytes :
    ({ IntakeRec.reset with overrun := .waiting } : IntakeRec).overrun ≠ .clear
    ∧ ({ IntakeRec.reset with seen4C := true } : IntakeRec).seen4C = true ∧ IntakeRec.reset.seen4C = false
    ∧ ((checked 1 5).take 14).length < 15 ∧ 15 ≤ ((checked 1 5).take 15).length
    ∧ headerAccepted ((checked 1 5).take 15 ++ [(checked 1 5).getD 15 0]) = true
    ∧ headerAccepted ((checked 4 5).take 15 ++ [(checked 4 5).getD 15 0]) = false := by decide +kernel

/-- HeaderFates, a rejected header: its other 14 bytes with a marker in them, without one, and with 0x4C as the last. -/
theorem witness_rehunt :
    rehunt [1, 0x4C, 0x4C, 0x55, 7] = ([0x4C, 0x55, 7], false)
    ∧ ([1, 0x4C, 0x4C, 0x55, 7] : List Byte) = [1, 0x4C] ++ 0x4C :: 0x55 :: [7]
    ∧ rehunt [1, 0x55, 0x4C, 7] = ([], false) ∧ rehunt [1, 7, 0x4C] = ([], true)
    ∧ headerAccepted ((checked 4 5).take 15 ++ [0x4C]) = false := by decide

/-- Slot 0 with the last of ten body bytes to come, its buffer there or no page buffer free. -/
def lastByte (buffers : Table Buf) : State :=
  { (inBody.setIntake 0 .camera { (inBody.intake 0 .camera) with received := 9, writePos := 109 }) with
    stc := { quietStc with buffers := buffers, runs := [(0, ⟨[5], 0, some 0, 0, false⟩)] } }

/-- The FILLING buffer of the CAMERA run of slot 0 with 109 bytes. -/
def fillingBuf : Buf := ⟨.filling, .own (.run 0 .camera), 5, 0, List.replicate 109 0, 84, false, false⟩

/-- HeaderFates, the body: the last byte with room for the suffix; a byte that finds every page buffer in use. -/
theorem witness_header_body :
    let s := lastByte [(0, fillingBuf)]
    let full := lastByte ((List.range 160).map (fun i => (i, { fillingBuf with owner := .own (.extent i) })))
    (takesCells (s.lecture? 0) .camera = true ∧ (s.intake 0 .camera).received + 1 = (s.intake 0 .camera).declared
      ∧ (s.intake 0 .camera).unitStart = some 84 ∧ s.fillingOf (.run 0 .camera) = some 0 ∧ s.buf? 0 = some fillingBuf
      ∧ fillingBuf.data.length + 9 < 4096 ∧ fillingBuf.data.length = (s.intake 0 .camera).writePos % 4096)
    ∧ (full.fillingOf (.run 0 .camera) = none ∧ full.freeBuffers = 0
      ∧ (full.run? 0 .camera).any (fun x => decide ((full.intake 0 .camera).writePos
          < x.headOffset + x.blocks.length * 262144)) = true) := by decide +kernel

/-- HeaderFates, the fates: END, FILLER, a MEDIA unit below the last noticed stamp, one that the discard excludes, and
one that is appended behind 109 bytes of its page. -/
theorem witness_header_fates :
    headerKind (header 2 0) = 2 ∧ headerKind (header 3 0) = 3 ∧ headerKind (header 1 4) = 1
    ∧ lateUnit none (some 5) (headerStamp (header 1 4)) = true ∧ lateUnit none (some 5) (headerStamp (header 1 5)) = false
    ∧ excluded .all .camera (headerKey .camera (header 1 5)) = true
    ∧ (quiet.setDiscard 0 .all).discard 0 = .all ∧ excluded .off .camera true = false
    ∧ (header 1 5).length = 16 ∧ headerLength ((header 1 5).set 9 10) ≠ 0 ∧ fillingBuf.data.length + 16 < 4096
    ∧ fillingBuf.data.length = ((lastByte [(0, fillingBuf)]).intake 0 .camera).writePos % 4096 := by decide

/-- HeaderFates, the loss: a record in overrun, one that hunts, and one in a body of ten bytes with nine received. -/
theorem witness_header_loss :
    let x := (lastByte [(0, fillingBuf)]).intake 0 .camera
    (IntakeRec.reset.parse ≠ .body ∧ IntakeRec.reset.overrun = .clear)
    ∧ (x.parse = .body ∧ x.disposition = .append ∧ x.unitStart = some 84 ∧ x.received ≤ x.declared
      ∧ x.writePos = 84 + 16 + x.received ∧ fillingBuf.data.length + (x.declared - x.received) + 8 < 4096) := by decide

/-! ## Profiles and lectures -/

/-- ProfileSet: fields at both ends of their ranges; a profile in use; an operation that is neither. -/
theorem witness_profile_set :
    quiet.profileUsers 15 = 0 ∧ profileKindOf 2 = some .slides ∧ rolesFit .slides (rolesOfByte 4) = true
    ∧ profileKindOf 1 = some .audio ∧ rolesFit .audio (rolesOfByte 2) = true
    ∧ (1 ≤ (64 : Byte).toNat ∧ (64 : Byte).toNat ≤ 64) ∧ (20 ≤ (2000 : Word16).toNat ∧ (2000 : Word16).toNat ≤ 2000)
    ∧ (20 ≤ (20 : Word16).toNat) ∧ 0 < (atLecture 31 (lecture .closed [])).profileUsers 0
    ∧ (2 : Byte) ≠ 0 ∧ (2 : Byte) ≠ 1 := by decide

/-- The body of a LECTURE_LOAD of slot 31 with CAMERA and VOICE, one rendition of profile 3. -/
def loadBody : LoadBody := ⟨31, 8, 9, 1, 3, 20, 8, 60, 1, 3, 0, 0, 0⟩

/-- The part with profile 3 valid. -/
def withProfile : State :=
  { quiet with sgc := { quiet.sgc with profiles := [(3, ⟨.video, ⟨true, false, false⟩, 64, 2000, 1⟩)] } }

/-- LectureLoad: every check passes; a slot that is not VACANT; a lecture number in use. -/
theorem witness_lecture_load :
    (withProfile.lecture? loadBody.slot.toNat = none ∧ (∀ e ∈ withProfile.sgc.lectures, e.2.number ≠ loadBody.number)
      ∧ classOf loadBody.cls = some .backlog ∧ loadBody.limitsOk = true
      ∧ loadBody.profiles.all (withProfile.profileFits (rolesOfByte loadBody.roles)) = true ∧ loadBody.profiles.Nodup)
    ∧ (atLecture 31 (lecture .closed [])).lecture? loadBody.slot.toNat ≠ none
    ∧ (atLecture 0 { lecture .closed [] with number := 8 }).lecture? loadBody.slot.toNat = none
    ∧ (∃ e ∈ (atLecture 0 { lecture .closed [] with number := 8 }).sgc.lectures, e.2.number = loadBody.number) := by
  decide

/-- LectureClose and LectureAbort: each state of a lecture. -/
theorem witness_lecture_close :
    (lecture .loaded []).state = .loaded ∧ (lecture .stalled []).window = []
    ∧ (lecture .stalled [segment 0 .working]).window ≠ []
    ∧ (lecture .running [segment 0 .opened]).openSegment = some (segment 0 .opened)
    ∧ (lecture .ending []).state ≠ .closed ∧ quiet.lecture? 31 = none
    ∧ (atLecture 31 (lecture .ending [])).lecture? 31 = some (lecture .ending []) := by decide

/-- Slot 0 LOADED with the FILLING buffer of its CAMERA run in OPEN block 5, CAMERA hunting or in the body of a unit, and
VOICE hunting. -/
def closingSlot (hunting : Bool) : State :=
  let u := ((lastByte [(0, fillingBuf)]).setLecture 0 (lecture .loaded [])).setBlock 5 ⟨.opened, []⟩
  if hunting then u.setIntake 0 .camera (u.intake 0 .camera).hunt else u

/-- LectureClose, the runs: CAMERA hunting, and in the body of a unit that fits its page; no claim, no relocation, and no
bank with a request. -/
theorem witness_close_runs :
    ([true, false].all fun hunting =>
      let s := closingSlot hunting
      (s.lecture? 0 == some (lecture .loaded [])) && (lecture .loaded []).roles == [.camera, .voice]
        && s.run? 0 .camera == some ⟨[5], 0, some 0, 0, false⟩ && s.stc.claims == [] && s.stc.relocations == []
        && s.stc.buffers == [(0, fillingBuf)] && (s.intake 0 .camera).broken == none && (s.intake 0 .voice).parse == .hunt
        && s.fillingOf (.run 0 .camera) == some 0 && decide (fillingBuf.data.length ≤ 4096) && s.stc.banks == []
        && s.block 5 == ⟨.opened, []⟩) = true
    ∧ Bank.empty.dropPrograms (fun p => p.buffer == 0) = Bank.empty ∧ ((closingSlot true).intake 0 .camera).parse ≠ .body
    ∧ (let x := (closingSlot false).intake 0 .camera
       x.parse = .body ∧ x.disposition = .append ∧ x.overrun = .clear ∧ x.unitStart = some 84
        ∧ x.received ≤ x.declared ∧ x.writePos = 84 + 16 + x.received ∧ fillingBuf.data.length = x.writePos % 4096
        ∧ fillingBuf.data.length + (x.declared - x.received) + 8 < 4096) := by decide +kernel

/-- Slot 31 with a QUEUED job and a RUNNING one, a WRITING extent and a PUBLISHED one, a run, and their page buffers. -/
def busySlot : State :=
  { (((atLecture 31 (lecture .running [segment 0 .working])).setRun 31 .camera ⟨[7], 0, some 0, 0, false⟩).setLane 0
      { busyLane with job := some 1 }) with
    jdp := { Jdp.reset with
      live := [0], jobs := [(0, { job with slot := 31 }), (1, { job with slot := 31, lane := some 0, order := some 1 })] }
    stc := { ((atLecture 31 (lecture .running [])).setRun 31 .camera ⟨[7], 0, some 0, 0, false⟩).stc with
      extents := [(3, ⟨31, 0, 0, [9], 0, .writing⟩), (4, ⟨31, 0, 1, [10], 5, .published⟩)]
      buffers := [(0, ⟨.filling, .own (.extent 3), 9, 0, [1], 0, false, false⟩),
        (1, ⟨.programming, .own (.run 31 .camera), 7, 0, [1], 1, false, false⟩)] } }

/-- LectureAbort, the requests: the jobs, extents, run and buffers of `busySlot`, with no lane IDLE and nothing
waiting. -/
theorem witness_abort_requests :
    (busySlot.lecture? 31).any (fun l => l.state != .closed && l.roles.contains .camera) = true
    ∧ (busySlot.job? 0).any (fun j => j.slot == 31 && j.lane == none) = true
    ∧ ((busySlot.job? 1).any (fun j => j.slot == 31 && j.lane == some 0) = true
      ∧ busySlot.jdp.jobs.map (fun e => e.1) = [0, 1] ∧ 1 ∉ busySlot.jdp.live ∧ 1 ∉ busySlot.jdp.backlog)
    ∧ (busySlot.anyIdle = false ∧ busySlot.stc.claims = [] ∧ busySlot.stc.relocations = [])
    ∧ (busySlot.extent? 3).any (fun x => x.slot == 31 && x.state == .writing) = true
    ∧ (busySlot.extent? 4).any (fun x => x.slot == 31 && x.state == .published) = true
    ∧ (busySlot.run? 31 .camera).isSome = true
    ∧ ((busySlot.block 9).state ≠ .bad ∧ (busySlot.block 7).state ≠ .bad ∧ busySlot.stc.banks = [])
    ∧ (busySlot.buf? 1).any (fun b => b.owner == .own (.run 31 .camera) && b.state == .programming) = true := by
  decide

/-- Slot 0 with a catalogue entry for segment 0 and a channel on it. -/
def withEntry : State :=
  { atLecture 0 { lecture .closed [] with nextSegment := 1, nextPublish := 1, published := 1 } with
    sgc := { (atLecture 0 { lecture .closed [] with nextSegment := 1, nextPublish := 1, published := 1 }).sgc with
      catalogue := [⟨0, 0, 0, none, some 0, 4000, false, false, false, false, false⟩] } }

/-- The same with channel 7 waiting on segment 0. -/
def withChannel : State :=
  withEntry.setChannel 7 { Channel.reset with state := .waiting, fetch := some ⟨0, 0, .follow, 0⟩, current := some 0 }

/-- ReleaseAndArchive: no channel on the lecture, and one at the named segment; CLOSED and not. -/
theorem witness_release :
    withEntry.channelOn 0 (fun k => decide (k ≤ 0)) = false ∧ withEntry.sgc.waiting = []
    ∧ withChannel.channelOn 0 (fun k => decide (k ≤ 0)) = true
    ∧ withChannel.channelOn 0 (fun _ => true) = true ∧ withEntry.channelOn 0 (fun _ => true) = false
    ∧ (withEntry.lecture? 0).any (fun l => l.state == .closed) = true
    ∧ (lecture .running []).state ≠ .closed := by decide

/-- A CUTTING segment that waits for VOICE. -/
def cutting : Segment :=
  { segment 0 .cutting with
    cutRole := some .camera, cutStamp := some 4000, skewRunning := true, skewLeft := 1
    ranges := ⟨{ startRange 0 0 with endOffset := some 50, endStamp := some 4000, cut := .cut }, startRange 0 0,
      RoleRange.fresh⟩ }

/-- LectureTimers: a running gap timer in RUNNING with no other role live; another state; a skew timer with one role
PENDING and one that is not. -/
theorem witness_timers :
    ((soloLecture .running []).parts.get .camera).gapRunning = true
    ∧ (∀ q, q ≠ Role.camera → (soloLecture .running []).live q = false)
    ∧ (∃ q ∈ (soloLecture .running []).roles, ((soloLecture .running []).parts.get q).ended = false)
    ∧ (soloLecture .loaded []).state ≠ .running
    ∧ ((lecture .running [cutting]).cuttingSegment = some cutting ∧ cutting.skewRunning = true
      ∧ (cutting.ranges.get .voice).cut = .pending ∧ (cutting.ranges.get .camera).cut ≠ .pending
      ∧ ((lecture .running [cutting]).parts.get .screen).present = false) := by
  refine ⟨rfl, fun q h => ?_, ⟨.camera, by decide, rfl⟩, by decide, by decide, rfl, rfl, by decide, rfl⟩
  cases q with
  | camera => exact absurd rfl h
  | voice => rfl
  | screen => rfl

/-- LectureTimers and LectureClose, the sealing: an OPEN segment without B, a role with a start that is not its noticed end, one whose
start is it, and one without; a CUTTING segment with B, whose end stamp is later than the lead's start and not; a lead
without a start. -/
theorem witness_sealing :
    let l := { lecture .running [segment 0 .opened] with
      parts := ⟨{ part true false with noticedEnd := 50 }, part true false, part true false⟩ }
    l.openSegment = some (segment 0 .opened) ∧ (segment 0 .opened).cutStamp = none
    ∧ (∀ q, ((segment 0 .opened).ranges.get q).skewEnded = false)
    ∧ ((segment 0 .opened).ranges.get .camera).startOffset = some 0 ∧ (l.parts.get .camera).noticedEnd ≠ 0
    ∧ (l.parts.get .voice).noticedEnd = 0 ∧ ((segment 0 .opened).ranges.get .screen).startOffset = none
    ∧ (segment 0 .opened).leadStart = some 0 ∧ ({ segment 0 .opened with leadStart := none } : Segment).leadStart = none
    ∧ cutting.cutStamp = some 4000 ∧ (∀ q, (cutting.ranges.get q).skewEnded = false)
    ∧ stampLater 4000 0 = true ∧ stampLater 0 0 = false := by
  refine ⟨rfl, rfl, fun q => by cases q <;> rfl, rfl, by decide, rfl, rfl, rfl, rfl, rfl,
    fun q => by cases q <;> rfl, by decide, by decide⟩

/-- LectureTimers and IntakeReports, the failover from CAMERA: VOICE alone is live; SCREEN, which ranks before VOICE, is
live too; no other role is live; the lead is live, and another role falls silent. -/
theorem witness_failover :
    let l := { lecture .running [segment 0 .opened] with stretch := .keyOnly }
    let m := { l with parts := ⟨part true false, part true false, part true false⟩ }
    ((atLecture 31 l).lecture? 31 = some l ∧ (l.parts.get .camera).gapRunning = true ∧ l.lead = .camera
      ∧ (l.parts.get .camera).ended = false
      ∧ [Role.camera, .screen, .voice].find? (fun p => p != .camera && l.live p) = some .voice)
    ∧ [Role.camera, .screen, .voice].find? (fun p => p != .camera && m.live p) = some .screen
    ∧ (∀ q, q ≠ Role.camera → (soloLecture .running []).live q = false)
    ∧ (Role.voice ≠ l.lead ∧ l.live l.lead = true ∧ (l.parts.get .voice).gapRunning = true)
    ∧ (atLecture 31 l).atRest := by
  refine ⟨by decide, by decide, fun q h => ?_, by decide, ⟨rfl, fun _ h => by cases h⟩⟩
  cases q with
  | camera => exact absurd rfl h
  | voice => rfl
  | screen => rfl

/-- UnitNoticeStartsLecture: a LOADED lecture. -/
theorem witness_start :
    (lecture .loaded []).state = .loaded ∧ (lecture .loaded []).lead = .camera
    ∧ ((lecture .loaded []).parts.get .camera).present = true ∧ ((lecture .loaded []).parts.get .camera).ended = false
    ∧ (lecture .loaded []).window = [] ∧ (lecture .loaded []).nextSegment = 0 := by decide

/-- UnitNoticeStartsLecture, the resume: STALLED with the window one record short of full and none in OPEN or CUTTING;
the lead live and no role live but the unit's. -/
theorem witness_resume :
    let w := (List.range 7).map (fun n => segment n .working)
    let l := lecture .stalled w
    let m := { lecture .stalled w with
      parts := ⟨{ part true false with silent := true }, part true false, part false false⟩ }
    l.state = .stalled ∧ l.endMark = false ∧ l.window.length = 7 ∧ l.openSegment = none ∧ l.cuttingSegment = none
    ∧ (∀ h ∈ l.window, h.number ≠ l.nextSegment)
    ∧ ((l.parts.get .voice).present = true ∧ (l.parts.get .voice).ended = false ∧ Role.voice ≠ l.lead
      ∧ l.live l.lead = true)
    ∧ (Role.voice ≠ m.lead ∧ m.live .camera = false ∧ m.live .screen = false) := by decide

/-- A lecture whose VOICE list holds a number of candidates. -/
def withCandidates (n : Nat) : Lecture :=
  { lecture .running [segment 0 .opened] with
    parts := ⟨part true false, { part true false with candidates := List.replicate n ⟨4000, 10⟩ }, part false false⟩ }

/-- UnitNoticeFiled: a VOICE unit at the target with 255 and with 256 candidates; a lead KEY unit in segment 65534. -/
theorem witness_filed :
    (∀ n, (withCandidates n).live (withCandidates n).lead = true)
    ∧ (segment 0 .opened).target = some 4000 ∧ ((segment 0 .opened).ranges.get .voice).startOffset ≠ none
    ∧ stampFrom 4000 4000 = true ∧ Role.voice ≠ (withCandidates 0).lead
    ∧ ((withCandidates 255).parts.get .voice).candidates.length < 256
    ∧ 256 ≤ ((withCandidates 256).parts.get .voice).candidates.length
    ∧ (soloLecture .running [segment 65534 .opened]).roles = [.camera] ∧ (segment 65534 .opened).number < 65535 :=
  ⟨fun _ => rfl, rfl, by decide, by decide, by decide, by decide +kernel, by decide +kernel, by decide, by decide⟩

/-- A lecture of three roles with a part of VOICE and one of SCREEN, in the window some WORKING records and then a
segment in OPEN, in which SCREEN has no start. -/
def filing (voice screen : RolePart) (number count : Nat) : Lecture :=
  { lecture .running ((List.range count).map (fun n => segment n .working) ++ [segment number .opened]) with
    parts := ⟨part true false, voice, screen⟩, nextSegment := number + 1 }

/-- UnitNoticeFiled, the lead cut: a KEY unit at the target, and under a forced cut one that is not KEY, with 7 records
in the window and in segment 65534; VOICE with candidates before the unit and at it, with none there, and ended. -/
theorem witness_lead_cut :
    let listed := { part true false with candidates := [⟨3999, 5⟩, ⟨4000, 10⟩], noticedEnd := 90 }
    let l := filing listed (part true false) 6 6
    let m := { filing (part true true) (part false false) 65534 0 with forcedCut := true }
    let g := segment 6 .opened
    let d := segment 65534 .opened
    (l.state = .running ∧ l.live l.lead = true ∧ l.openSegment = some g ∧ (∀ h ∈ l.window, h.number = g.number → h = g)
      ∧ (g.ranges.get l.lead).startOffset ≠ none ∧ (l.forcedCut || (true && g.target.any (fun t => stampFrom 4000 t))) = true
      ∧ l.window.length = 7 ∧ l.cuttingSegment = none ∧ g.number < 65535 ∧ (∀ h ∈ l.window, h.number ≠ l.nextSegment)
      ∧ (∀ q, (g.ranges.get q).cut = .pending))
    ∧ (m.live m.lead = true ∧ m.openSegment = some d ∧ (m.forcedCut || (false && d.target.any (fun t => stampFrom 0 t))) = true
      ∧ m.cuttingSegment = none ∧ d.number < 65535 ∧ m.nextSegment = 65535 ∧ (∀ h ∈ m.window, h.number ≠ m.nextSegment))
    ∧ (listed.candidates.find? (fun c => stampFrom c.stamp 4000) = some ⟨4000, 10⟩
      ∧ (∀ c ∈ listed.candidates, stampFrom c.stamp 4001 = false) ∧ listed.ended = false
      ∧ (g.ranges.get .voice).startOffset = some 0 ∧ (g.ranges.get .screen).startOffset = none
      ∧ (m.parts.get .voice).ended = true) := by
  refine ⟨⟨by decide, by decide, by decide, by decide, by decide, by decide, by decide, by decide, by decide, by decide,
    fun q => by cases q <;> rfl⟩, by decide, by decide⟩

/-- UnitNoticeFiled, no cut: a unit that is due with 8 records in the window, and with a CUTTING record; one that is not
due; at four segment lengths and one below, with room and without. -/
theorem witness_no_cut :
    let l := filing (part true false) (part false false) 7 7
    let m := { lecture .running [cutting, segment 1 .opened] with nextSegment := 2 }
    let u := filing (part true false) (part false false) 0 0
    let g := segment 7 .opened
    (l.window.length = 8 ∧ l.openSegment = some g ∧ (∀ h ∈ l.window, h.number = g.number → h = g)
      ∧ l.cuttingSegment = none ∧ (l.forcedCut || (true && g.target.any (fun t => stampFrom 4000 t))) = true
      ∧ (decide (l.window.length < 8) || g.number == 65535) = false)
    ∧ (m.openSegment = some (segment 1 .opened) ∧ m.cuttingSegment = some cutting ∧ (cutting.ranges.get m.lead).cut ≠ .pending
      ∧ (∀ h ∈ m.window, h.number = 1 → h = segment 1 .opened))
    ∧ ((u.forcedCut || (false && (segment 0 .opened).target.any (fun t => stampFrom 16000 t))) = false
      ∧ (decide (u.window.length < 8) || (segment 0 .opened).number == 65535) = true ∧ u.cuttingSegment = none)
    ∧ (u.stretch = .off ∧ (segment 0 .opened).leadStart = some 0
      ∧ stampFrom 16000 (0 + BitVec.ofNat 32 (4 * (1000 * u.segLength))) = true
      ∧ stampFrom 15999 (0 + BitVec.ofNat 32 (4 * (1000 * u.segLength))) = false) := by decide

/-- The CUTTING segment of `cutting` with a role range of VOICE and one of SCREEN, PENDING or CUT. -/
def cuttingWith (voice screen : CutState) : Segment :=
  { cutting with ranges := ⟨cutting.ranges.camera, { startRange 0 0 with cut := voice },
      { startRange 0 5 with cut := screen }⟩ }

/-- A lecture of three roles with that segment in CUTTING and, begun at its B, segment 1 in OPEN; some roles ended. -/
def settling (screen : CutState) (camera ended : Bool) : Lecture :=
  { lecture .running [cuttingWith .pending screen, { segment 1 .opened with
      leadStart := some 4000, ranges := ⟨startRange 4000 50, RoleRange.fresh, RoleRange.fresh⟩ }] with
    parts := ⟨part true camera, part true false, part true ended⟩ }

/-- UnitNoticeFiled, segment 65535: a unit that is due with 8 records in the window. -/
theorem witness_last_cut :
    let l := { filing (part true false) (part false false) 65535 7 with nextSegment := 65535, endMark := true }
    l.window.length = 8 ∧ l.openSegment = some (segment 65535 .opened) ∧ l.cuttingSegment = none
    ∧ (∀ h ∈ l.window, h.number = 65535 → h = segment 65535 .opened)
    ∧ (l.forcedCut || (true && (segment 65535 .opened).target.any (fun t => stampFrom 4000 t))) = true
    ∧ (∀ q, ((segment 65535 .opened).ranges.get q).cut = .pending) := by
  refine ⟨by decide, by decide, by decide, by decide, by decide, fun q => by cases q <;> rfl⟩

/-- UnitNoticeFiled and IntakeReports, the CUTTING segment: VOICE PENDING in it, with another role PENDING and with none;
units at B and before it; an OPEN segment that VOICE has not started; the other roles ended and not. -/
theorem witness_settling :
    let l := settling .pending false false
    let c := cuttingWith .pending .pending
    (l.cuttingSegment = some c ∧ c.cutStamp = some 4000 ∧ (∀ h ∈ l.window, h.number = c.number → h = c)
      ∧ (c.ranges.get .voice).cut = .pending ∧ (c.ranges.get .camera).cut ≠ .pending
      ∧ (l.parts.get .voice).present = true ∧ (l.parts.get .voice).ended = false)
    ∧ (∃ q ∈ l.roles, q ≠ .voice ∧ (c.ranges.get q).cut = .pending)
    ∧ (∀ q ∈ l.roles, q ≠ .voice → ((cuttingWith .pending .cut).ranges.get q).cut ≠ .pending)
    ∧ stampFrom 4000 4000 = true ∧ stampFrom 3999 4000 = false
    ∧ l.openSegment.any (fun g => g.leadStart == some 4000 && (g.ranges.get .voice).startOffset == none) = true
    ∧ ((0, 0) ∉ (atLecture 0 l).admissions ∧ (0, 1) ∉ (atLecture 0 l).admissions)
    ∧ (∀ q ∈ (settling .cut true true).roles, q ≠ .voice → ((settling .cut true true).parts.get q).ended = true)
    ∧ (∃ q ∈ l.roles, q ≠ .voice ∧ (l.parts.get q).ended = false)
    ∧ ({ l with state := .ending } : Lecture).state = .ending := by decide

/-- TargetStamp and IntakeReports: a role not ended, one that has ended, and the OPEN segment. -/
theorem witness_intake_reports :
    0 < 2000 ∧ ((soloLecture .loaded []).parts.get .camera).present = true
    ∧ (∀ q ∈ (soloLecture .loaded []).roles, q ≠ .camera → ((soloLecture .loaded []).parts.get q).ended = true)
    ∧ (part true true).ended = true ∧ (soloLecture .running []).openSegment = none
    ∧ (soloLecture .stalled [segment 0 .working]).window ≠ [] ∧ (lecture .running [segment 0 .opened]).state ≠ .closed
    ∧ (lecture .running [segment 0 .opened]).openSegment = some (segment 0 .opened) := by decide

/-- JobOutcome: one of two renditions still PENDING; the last one, at the head and next to publish, before a record
that is not COMPLETE; a lecture that waits for room and one that does not; one in ENDING with its last record. -/
theorem witness_job_outcome :
    let l := lecture .running [segment 0 .working, segment 1 .opened]
    (∃ v ∈ (({ segment 0 .working with renditions := [.pending, .pending] } : Segment).outcome 1
        (outcomeState (.done 4095))).renditions, v = .pending)
    ∧ (∀ v ∈ ((segment 0 .working).outcome 0 (outcomeState (.failed .sanity))).renditions, v ≠ .pending)
    ∧ (∀ h ∈ [segment 1 .opened], h.number ≠ (segment 0 .working).number)
    ∧ (segment 0 .working).number = l.nextPublish ∧ quiet.sgc.waiting = []
    ∧ l.profiles.length + quiet.sgc.catalogue.length ≤ 4096
    ∧ (∀ d, [segment 1 .opened].head? = some d → d.state ≠ .complete)
    ∧ ({ l with window := [segment 1 .opened] } : Lecture).opensNext = false
    ∧ ({ l with window := (List.range' 1 7).map (fun n => segment n .working) } : Lecture).opensNext = true
    ∧ (lecture .ending [segment 0 .working]).state = .ending := by
  refine ⟨by decide, by decide, by decide, by decide, by decide, by decide, fun d h => ?_, by decide, by decide, rfl⟩
  obtain rfl := Option.some.inj h
  decide

/-- Extent 3 of segment 0 of slot 0, CLOSED, with blocks 9 and 10, a page buffer bound to block 10. -/
def closedExtent : State :=
  let u := atLecture 0 (lecture .running [segment 0 .working, segment 1 .opened])
  { u with stc := { u.stc with
      extents := [(3, ⟨0, 0, 0, [9, 10], 5, .closed⟩)]
      buffers := [(0, ⟨.pending, .own (.extent 3), 10, 0, [1], 1, false, false⟩)] } }

/-- JobOutcome, the protection: the extent of a DONE rendition, a block with no page buffer bound and one with one. -/
theorem witness_protect :
    closedExtent.atRest ∧ ((segment 0 .working).outcome 0 (outcomeState (.done 3))).renditions[0]? = some (.done 3)
    ∧ closedExtent.extentFor 3 0 0 0 = some ⟨0, 0, 0, [9, 10], 5, .closed⟩
    ∧ closedExtent.bufferBound 9 = false ∧ closedExtent.bufferBound 10 = true ∧ closedExtent.relocating 9 = false :=
  ⟨⟨rfl, fun _ h => by cases h⟩, by decide, by decide, by decide, by decide, by decide⟩

/-! ## Job queue and lanes -/

/-- DispatchSet: fields at the ends of their ranges and beyond. -/
theorem witness_dispatch_set :
    (12 : Byte).toNat ≤ 12 ∧ onOff 0 = some false ∧ onOff 1 = some true ∧ 12 < (13 : Byte).toNat ∧ onOff 2 = none
    ∧ ([0, 1, 2, 3, 4, 5, 6, 7, 8, 9, 10, 11] : List Nat).length ≤ 12 := by decide

/-- Slot 0 with segment 0 SEALED and waiting for admission, and a number of job records in use. -/
def waitingSegment (jobs : Nat) : State :=
  { atLecture 0 (lecture .running [segment 0 .sealed]) with
    sgc := { (atLecture 0 (lecture .running [segment 0 .sealed])).sgc with liveAdmission := [(0, 0)] }
    jdp := { Jdp.reset with jobs := (List.range jobs).map (fun k => (k, job)) } }

/-- Lane 11 IDLE and job 0 in the LIVE list. -/
def oneIdle : State :=
  { (atLane 11 { Lane.reset with state := .idle }).setJob 0 job with
    jdp := { ((atLane 11 Lane.reset).setJob 0 job).jdp with live := [0] } }

/-- FreedRecords: room for exactly one job, no room, and an IDLE lane with a candidate that has no extent. -/
theorem witness_freed :
    (waitingSegment 0).sgc.liveAdmission = [(0, 0)]
    ∧ (lecture .running [segment 0 .sealed]).segment 0 = some (segment 0 .sealed)
    ∧ (lecture .running []).profiles.length + (waitingSegment 255).jdp.jobs.length ≤ 256
    ∧ 256 < (lecture .running []).profiles.length + (waitingSegment 256).jdp.jobs.length
    ∧ (laneNumbers.find? (fun m => (oneIdle.lane m).state == .idle) = some 11 ∧ oneIdle.candidate = some 0
      ∧ oneIdle.job? 0 = some job ∧ job.extent = none ∧ oneIdle.freeExtent = some 0 ∧ oneIdle.emptySource job = false
      ∧ job.done = 0) := by decide +kernel

/-- FreedRecords, the jobs: no lane IDLE, and profiles for the renditions. -/
theorem witness_jobs_created :
    (waitingSegment 255).anyIdle = false ∧ (lecture .running [segment 0 .sealed]).profiles = [0]
    ∧ 1 + (waitingSegment 255).jdp.jobs.length = 256 ∧ (waitingSegment 255).job? 255 = none := by decide +kernel

/-- `oneIdle` with the job's segment in the window, its CAMERA range EMPTY, and a profile that consumes CAMERA. -/
def emptyRange : State :=
  { oneIdle with sgc := { (atLecture 0 (lecture .running [{ segment 0 .working with
      ranges := PerRole.all { RoleRange.fresh with status := .empty } }])).sgc with
    profiles := [(0, ⟨.video, ⟨true, false, false⟩, 2, 2000, 1⟩)] } }

/-- FreedRecords, the EMPTY source: the only job queued, an IDLE lane, a free extent record, and no claim. -/
theorem witness_empty_source :
    laneNumbers.find? (fun m => (emptyRange.lane m).state == .idle) = some 11
    ∧ emptyRange.jdp.live ++ emptyRange.jdp.backlog = [0] ∧ emptyRange.job? 0 = some job ∧ job.extent = none
    ∧ emptyRange.freeExtent = some 0 ∧ emptyRange.emptySource job = true ∧ emptyRange.jobRoles job = [.camera]
    ∧ emptyRange.stc.claims = [] := by decide +kernel

/-- LaneRemoval: a BUSY lane with its job, no other lane IDLE and no discard request; a state of each kind. -/
theorem witness_lane_removal :
    (working.lane 0).state = .busy ∧ (working.lane 0).job = some 0 ∧ (working.job? 0).isSome = true
    ∧ working.anyIdle = false ∧ working.sent.any (isDiscardOf 0) = false
    ∧ ((atLane 11 { busyLane with state := .draining }).lane (11 : Byte).toNat).state = .draining
    ∧ ((atLane 11 { Lane.reset with state := .failed }).lane (11 : Byte).toNat).state = .failed
    ∧ (quiet.lane 11).state = .off ∧ quiet.accepts (.laneRemoveForce 1 11) :=
  ⟨by decide, by decide, by decide, by decide, by decide, by decide, by decide, by decide, quiet_accepts _⟩

/-- LaneTest: test chunks 2 and 3; a test output whose check is the expected one, and one whose check is not. -/
theorem witness_lane_test :
    ((atLane 0 { Lane.reset with state := .test, testChunk := 2 }).lane 0).testChunk < 3
    ∧ ¬ ((atLane 0 { Lane.reset with state := .test, testChunk := 3 }).lane 0).testChunk < 3
    ∧ check32Final (check32From
        ({ Lane.reset with testCheck := ~~~Config.expectedTestCheck } : Lane).testCheck []) = Config.expectedTestCheck
    ∧ check32Final (check32From
        ({ Lane.reset with testCheck := Config.expectedTestCheck } : Lane).testCheck []) ≠ Config.expectedTestCheck
    ∧ quiet.jdp.live = [] ∧ quiet.jdp.backlog = [] := by
  refine ⟨by decide, by decide, by simp [check32Final, check32From], fun h => ?_, rfl, rfl⟩
  have h1 : (~~~Config.expectedTestCheck).getLsbD 0 = Config.expectedTestCheck.getLsbD 0 := by
    rw [show ~~~Config.expectedTestCheck = Config.expectedTestCheck from h]
  simp at h1

/-- GroupOn, GroupOff and SupplyFault: each state and phase, with lanes free and not. -/
theorem witness_groups :
    (quiet.group 2).state = .off
    ∧ ((atGroup 2 { Group.reset with state := .rising, phase := some .supply }).group 2).phase = some .supply
    ∧ ((atGroup 2 { Group.reset with state := .rising, phase := some .supply }).group 2).monitorFault = false
    ∧ ((atGroup 2 { Group.reset with state := .rising, phase := some .supply, monitorFault := true }).group 2).monitorFault
        = true
    ∧ ({ Group.reset with state := .rising, phase := some .clock } : Group).watches = true
    ∧ ({ Group.reset with state := .rising, phase := some .supply } : Group).watches = false
    ∧ ({ Group.reset with state := .on } : Group).watches = true
    ∧ ({ quiet with lanes := (List.range 12).map (fun n => (n, { Lane.reset with state := .out })) } : State).groupFree 2
        = true
    ∧ (atGroup 2 { Group.reset with state := .on }).groupFree 2 = false := by decide

/-- LaneLetsJobGo: a working lane with a running timer; a job on its second and third expiry; both lists empty. -/
theorem witness_lets_go :
    (working.lane 0).works = true ∧ (working.lane 0).timer = .running 800 ∧ (working.lane 0).job = some 0
    ∧ working.job? 0 = some { job with lane := some 0, order := some 1 } ∧ working.anyIdle = false
    ∧ ({ job with attempts := 1 } : Job).attempts < 2 ∧ 2 ≤ ({ job with attempts := 2 } : Job).attempts
    ∧ working.jdp.live = [] ∧ working.jdp.backlog = [] ∧ (1 : Nat) ≠ 0 := by decide

/-- Lane 0 runs BACKLOG job 0 to the end of a chunk, with a yield, and LIVE job 1 is queued. -/
def yielding : State :=
  { (working.setJob 0 { job with cls := .backlog, lane := some 0, order := some 1 }).setJob 1
      { job with extent := some 3 } with
    lanes := [(0, { busyLane with reads := ⟨some ⟨false, 5000, 8192, true⟩, none, none⟩ })]
    jdp := { ((working.setJob 0 { job with cls := .backlog, lane := some 0, order := some 1 }).setJob 1
      { job with extent := some 3 }).jdp with live := [1], yields := [0] } }

/-- ChunkEnd: all output written and every role read to the chunk's end, on the first of two chunks and on the last; a
yield for a queued LIVE job; a yield to be set on the one lane that runs a BACKLOG job. -/
theorem witness_chunk_end :
    (working.lane 0).held = .none ∧ 0 ∉ working.jdp.yields ∧ (working.lane 0).allReached = true
    ∧ ((working.laneWrites 0 [1, 2]).lane 0).output = []
    ∧ job.done + 1 ≠ job.total ∧ ({ job with done := 1 } : Job).done + 1 = job.total
    ∧ ((yielding.lane 0).allReached = true ∧ ((yielding.laneWrites 0 []).lane 0).output = []
      ∧ 0 ∈ yielding.jdp.yields ∧ (yielding.lane 0).state = .busy ∧ yielding.jdp.live = [1]
      ∧ yielding.jdp.backlog = [] ∧ yielding.job? 1 = some { job with extent := some 3 }
      ∧ (yielding.job? 0).any (fun j => j.cls == .backlog && j.done + 1 != j.total) = true
      ∧ yielding.emptySource { job with extent := some 3 } = false ∧ yielding.anyIdle = false
      ∧ yielding.sent.any (isDiscardOf 0) = false ∧ 1 ∉ yielding.jdp.waits)
    ∧ (({ yielding with jdp := { yielding.jdp with yields := [] } } : State).accepts (.dispatchSet 1 0 1)
      ∧ (0 : Byte).toNat < yielding.backlogCount ∧ yielding.laneRuns .backlog 0 = true ∧ yielding.discarding 0 = false
      ∧ (∀ q < 12, yielding.laneRuns .backlog q = true → (yielding.laneOrder q - 0).toNat < 2 ^ 31)) :=
  ⟨by decide, by decide, by decide, by decide, by decide, by decide, by decide,
    accepts_of _ _ rfl (by decide), by decide, by decide, by decide, by decide⟩

/-- The working part with its lane DRAINING. -/
def draining : State := working.setLane 0 { busyLane with state := .draining }

/-- ChunkEnd: a DRAINING lane with a chunk left, its output written, no lane IDLE. -/
theorem witness_draining :
    (draining.lane 0).works = true ∧ (draining.lane 0).held = .none ∧ (draining.lane 0).allReached = true
    ∧ (draining.lane 0).job = some 0 ∧ draining.job? 0 = some { job with lane := some 0, order := some 1 }
    ∧ ((draining.laneWrites 0 []).lane 0).output = [] ∧ 0 ∉ draining.jdp.yields ∧ (draining.lane 0).state = .draining
    ∧ draining.anyIdle = false ∧ draining.sent.any (isDiscardOf 0) = false := by decide

/-- A working lane whose job reads bytes 0 to 5000 of the CAMERA run of slot 0, with 4200 bytes read, in its chunk or in
the walk, and writes extent 3, which has a full block or none. -/
def onSource (walking : Bool) (blocks : List Nat) (committed : Nat) : State :=
  { (working.setJob 0 { job with lane := some 0, order := some 1, extent := some 3 }).setLecture 0
      (lecture .running [{ segment 0 .working with
        ranges := ⟨{ startRange 0 0 with endOffset := some 5000, cut := .cut }, RoleRange.fresh, RoleRange.fresh⟩ }]) with
    lanes := [(0, { busyLane with
      positions := ⟨some 0, none, none⟩, reads := ⟨some ⟨walking, 4200, 4200, false⟩, none, none⟩ })]
    stc := { quietStc with
      runs := [(0, ⟨[5], 0, some 0, 0, false⟩)]
      extents := [(3, ⟨0, 0, 0, blocks, committed, .writing⟩)] } }

/-- `onSource` at the end of its chunk, with chunks done: page 0 of its extent full and not committed, one byte of page 1
written. -/
def committing (done : Nat) : State :=
  let u := onSource false [9] 0
  { u.setJob 0 { job with lane := some 0, order := some 1, extent := some 3, done := done } with
    lanes := [(0, { busyLane with reads := ⟨some ⟨false, 5000, 8192, true⟩, none, none⟩ })]
    stc := { u.stc with buffers := [(0, ⟨.pending, .own (.extent 3), 9, 0, List.replicate 4096 1, 0, false, false⟩),
      (1, ⟨.filling, .own (.extent 3), 9, 1, [1], 0, false, false⟩)] } }

/-- ChunkEnd, the commit: on the first of two chunks and on the last, two bytes more to write. -/
theorem witness_commit :
    let s := committing 0
    let x : Extent := ⟨0, 0, 0, [9], 0, .writing⟩
    (s.lane 0).works = true ∧ (s.lane 0).held = .none ∧ (s.lane 0).allReached = true ∧ (s.lane 0).job = some 0
    ∧ (s.job? 0).any (fun j => j.done + 1 != j.total) = true
    ∧ ((committing 1).job? 0).any (fun j => j.done + 1 == j.total) = true
    ∧ ((s.laneWrites 0 [1, 2]).lane 0).output = [] ∧ 0 ∉ s.jdp.yields ∧ s.jdp.live = [] ∧ s.jdp.backlog = []
    ∧ (s.lane 0).state = .busy ∧ (s.laneWrites 0 [1, 2]).laneExtent 0 = some (3, x) ∧ s.stc.claims = []
    ∧ (s.laneWrites 0 [1, 2]).extentEnd 3 x = 4099
    ∧ s.stc.relocations = [] ∧ s.stc.buffers.map (fun e => e.1) = [0, 1]
    ∧ ((s.laneWrites 0 [1, 2]).buf? 0).any (fun b => b.owner == .own (.extent 3) && !b.discarded && b.state == .pending
        && decide (b.committed < b.data.length)) = true
    ∧ ((s.laneWrites 0 [1, 2]).buf? 1).any (fun b => b.owner == .own (.extent 3) && b.data.length == 3) = true := by
  decide +kernel

/-- The lane of `onSource` waits for its next source bytes. -/
theorem onSource_awaits : (onSource false [9] 0).awaitsSource 0 := by
  intro j g r q hj hg hq _ _
  obtain rfl := Option.some.inj hj
  obtain rfl := Option.some.inj hg
  cases r with
  | camera =>
    obtain rfl := Option.some.inj hq
    decide
  | voice => cases hq
  | screen => cases hq

/-- LaneRequests, the read: the next header, its page not buffered and buffered. -/
theorem witness_lane_read :
    let s := onSource false [9] 0
    (s.lane 0).works = true ∧ (s.laneJob 0).isSome = true ∧ (s.run? 0 .camera).isSome = true
    ∧ (s.lane 0).reads.get .camera = some ⟨false, 4200, 4200, false⟩
    ∧ (s.lane 0).readFits .camera ⟨false, 4200, 4200, false⟩ 4200 16 = true
    ∧ pageAt (4200 + 16 - 1) = pageAt 4200 ∧ s.bufferedPage 5 (pageAt 4200) = none
    ∧ s.pageLost 5 (pageAt 4200) = false ∧ s.awaitsSource 0
    ∧ ((s.bank (bankOf 5)).canGrant = true ∧ (s.bank (bankOf 5)).erase = none
      ∧ (s.bank (bankOf 5)).intakeProgram = [] ∧ (s.bank (bankOf 5)).deliveryRead = [] ∧ (s.bank (bankOf 5)).laneRead = [])
    ∧ ({ s with stc := { s.stc with buffers := [(0, ⟨.filling, .own (.run 0 .camera), 5, 1, [1], 1, false, false⟩)] }
        } : State).bufferedPage 5 (pageAt 4200) = some [1] :=
  ⟨by decide, by decide, by decide, by decide, by decide, by decide, by decide, by decide, onSource_awaits,
    by decide, by decide⟩

/-- A lane to which a page of zeros has been returned, with a unit at offset 104. -/
def atUnit (unit : List Byte) : Lane :=
  { busyLane with received := [⟨.camera, 0, List.replicate 104 0 ++ unit⟩] }

/-- LaneRequests, reading on: past the range's end; no page returned; no unit; a unit at the limit; a unit of no body
before the limit, in the walk and in the chunk. -/
theorem witness_read_step :
    let x : RoleRange := { startRange 0 0 with endOffset := some 128 }
    x.endOffset = some 128 ∧ 128 ≤ 128 ∧ 104 + 24 ≤ 128
    ∧ busyLane.has .camera 104 (104 + 16) = false
    ∧ ((atUnit [0, 0]).has .camera 104 (104 + 16) = true ∧ ((atUnit [0, 0]).headerAt .camera 104).take 2 ≠ [0x4C, 0x55])
    ∧ ((atUnit (header 1 9)).headerAt .camera 104).take 2 = [0x4C, 0x55]
    ∧ stampFrom (headerStamp ((atUnit (header 1 9)).headerAt .camera 104)) 9 = true
    ∧ stampFrom (headerStamp ((atUnit (header 1 9)).headerAt .camera 104)) 10 = false
    ∧ (let next := 104 + 24 + headerLength ((atUnit (header 1 9)).headerAt .camera 104)
      next ≤ 128 ∧ (atUnit (header 1 9)).has .camera (next - 8) next = true
        ∧ (atUnit (header 1 9)).has .camera 104 next = true) := by decide

/-- `onSource` with a reading of CAMERA alone and pages returned. -/
def readingOn (q : SourceRead) (received : List SourcePage) : State :=
  let u := onSource false [9] 0
  { u with lanes := [(0, { u.lane 0 with reads := (PerRole.all none).set .camera (some q), received := received })] }

/-- The next step of that reading. -/
def nextStep (q : SourceRead) (received : List SourcePage) : Option ReadStep :=
  let s := readingOn q received
  ((s.laneJob 0).bind s.jobSegment).map (fun g => (s.lane 0).readStep .camera (g.ranges.get .camera)
    (some (chunkStart g (if q.walking then 0 else 1))) q)

/-- LaneRequests, a reading of one role: it waits; it stops, in the walk and in the chunk; it finds no unit. -/
theorem witness_read_on :
    ((readingOn ⟨false, 4200, 4200, false⟩ []).laneJob 0).any (fun j => j.total == 2) = true
    ∧ nextStep ⟨false, 4200, 4200, false⟩ [] = some .waits ∧ nextStep ⟨true, 5000, 8192, false⟩ [] = some .stops
    ∧ nextStep ⟨false, 5000, 8192, false⟩ [] = some .stops
    ∧ nextStep ⟨false, 4200, 8192, false⟩ [⟨.camera, 4096, []⟩] = some .unfit := by decide

/-- LaneRequests, the output: room in the last block with buffers free and with 40, a full last block below the bound
with a block free and with none. -/
theorem witness_lane_output :
    let s := onSource false [9] 0
    let u : State := { onSource false [9] 262144 with sgc := { (onSource false [9] 0).sgc with
      profiles := [(0, ⟨.video, ⟨true, false, false⟩, 2, 2000, 1⟩)] } }
    let x : Extent := ⟨0, 0, 0, [9], 262144, .writing⟩
    (s.lane 0).inChunk = true
    ∧ (s.laneExtent 0).any (fun p => decide (s.extentEnd p.1 p.2 < p.2.blocks.length * 262144)) = true
    ∧ (s.lane 0).held = .none ∧ s.fillingOf (.extent 3) = none ∧ (s.lane 0).output ++ [1] ≠ [] ∧ 40 < s.freeBuffers
    ∧ ¬ 40 < ({ s with stc := { s.stc with buffers := (List.range 120).map (fun i =>
        (i, ⟨.programming, .own (.run 31 .voice), 7, 0, [], 0, false, false⟩)) } } : State).freeBuffers
    ∧ (u.laneExtent 0 = some (3, x) ∧ u.extentEnd 3 x = x.blocks.length * 262144
      ∧ (u.laneJob 0).any (fun j => x.blocks.length != u.blockBound j) = true ∧ u.freeHead (extentStart x) = none
      ∧ ({ u with stc := { u.stc with banks := [(1, { Bank.empty with free := [4096] })] } } : State).freeHead
          (extentStart x) = some 4096) := by decide +kernel

/-- LaneRequests, the bound: the only block of a profile of one block is full, with no job queued and no claim. -/
theorem witness_output_limit :
    let s : State := { onSource false [9] 262144 with sgc := { (onSource false [9] 0).sgc with
      profiles := [(0, ⟨.video, ⟨true, false, false⟩, 1, 2000, 1⟩)] } }
    let x : Extent := ⟨0, 0, 0, [9], 262144, .writing⟩
    (s.lane 0).inChunk = true ∧ (s.lane 0).held = .none ∧ s.laneExtent 0 = some (3, x)
    ∧ s.fillingOf (.extent 3) = none ∧ (s.lane 0).output ++ [1] ≠ [] ∧ (s.lane 0).job = some 0
    ∧ (s.job? 0).any (fun j => x.blocks.length == s.blockBound j) = true
    ∧ s.extentEnd 3 x = x.blocks.length * 262144 ∧ s.jdp.live = [] ∧ s.jdp.backlog = [] ∧ s.stc.claims = []
    ∧ x.state ≠ .published := by decide +kernel

/-! ## The store -/

/-- StoreSet: both ends of the range and a value outside each. -/
theorem witness_store_set :
    32 ≤ (32 : Word16).toNat ∧ (4096 : Word16).toNat ≤ 4096 ∧ (31 : Word16).toNat < 32
    ∧ 4096 < (4097 : Word16).toNat := by decide

/-- A bank 0 with an operation. -/
def atOp (o : BankOp) : State := quiet.setBank 0 { Bank.empty with op := some o }

/-- A bank 0 with an erase in a state. -/
def atErase (y : EraseState) : State := quiet.setBank 0 { Bank.empty with erase := some ⟨7, y, 3, false⟩ }

/-- ProgramAndAppendEndsWrite: a program of a buffer, and an APPEND at the last place. -/
theorem witness_program :
    ((atOp (.program ⟨159, 7, 63⟩)).bank 0).op = some (.program ⟨159, 7, 63⟩)
    ∧ (quiet.setBuf 159 ⟨.programming, .own (.extent 3), 7, 63, [1], 1, false, false⟩).buf? 159
        = some ⟨.programming, .own (.extent 3), 7, 63, [1], 1, false, false⟩
    ∧ ((atOp (.append 7 511)).bank 0).op = some (.append 7 511) ∧ ([1] : List Byte).length ≤ 512 := by decide

/-- EraseEndFreesBlock: an erase running, and the store at rest. -/
theorem witness_erase :
    ((atErase .running).bank 0).erase = some ⟨7, .running, 3, false⟩ ∧ EraseState.running ≠ .suspended
    ∧ (atErase .running).atRest ∧ 7 ∉ ((atErase .running).bank 0).eraseQueue :=
  ⟨rfl, by decide, ⟨rfl, fun _ h => by cases h⟩, by decide⟩

/-- `atErase` SCRUBBING, some blocks left to scrub, its erase the scrub's or not. -/
def scrubbing (left : Nat) (scrub : Bool) : State :=
  let u := quiet.setBank 0 { Bank.empty with erase := some ⟨7, .running, 0, scrub⟩ }
  { u with stc := { u.stc with ready := false, scrubRemaining := left } }

/-- EraseEndFreesBlock, the scrub: the last block and the last but one, and an erase that is not the scrub's. -/
theorem witness_scrub :
    ((scrubbing 1 true).bank 0).erase = some ⟨7, .running, 0, true⟩ ∧ (scrubbing 1 true).stc.scrubRemaining ≤ 1
    ∧ (scrubbing 1 true).stc.ready = false ∧ 1 < (scrubbing 2 true).stc.scrubRemaining
    ∧ ((scrubbing 1 false).bank 0).erase = some ⟨7, .running, 0, false⟩ ∧ (scrubbing 1 true).atRest :=
  ⟨rfl, by decide, rfl, by decide, rfl, ⟨rfl, fun _ h => by cases h⟩⟩

/-- A working lane whose next unit lies across pages 1 and 2 of its run, with a READ of page 1 under way. -/
def reading : State :=
  (((onSource false [9] 0).setLecture 0 (lecture .running [{ segment 0 .working with
      ranges := ⟨{ startRange 0 0 with endOffset := some 9000, cut := .cut }, RoleRange.fresh, RoleRange.fresh⟩ }])).setLane 0
    { busyLane with reads := ⟨some ⟨false, 8190, 8192, false⟩, none, none⟩ }).setBank 0
    { Bank.empty with op := some (.read ⟨.lane 0 .camera 0, 5, [1], 8190, 8192⟩ true) }

/-- With page 1 the lane still waits: the unit's header ends in page 2. -/
theorem reading_awaits : (reading.laneReceives 0 [⟨.camera, 4096, reading.bankPage 5 1⟩]).awaitsSource 0 := by
  intro j g r q hj hg hq _ _
  obtain rfl := Option.some.inj hj
  obtain rfl := Option.some.inj hg
  cases r with
  | camera =>
    obtain rfl := Option.some.inj hq
    decide
  | voice => cases hq
  | screen => cases hq

/-- BankLimits: a READ of a lane whose pages are well, in error and lost; one that returned a page before its limit; an
APPEND; an erase being suspended. -/
theorem witness_bank_limits :
    (reading.bank 0).op = some (.read ⟨.lane 0 .camera 0, 5, [1], 8190, 8192⟩ true)
    ∧ ((∀ p ∈ [1], p ∉ ([] : List Nat) ∧ p ∉ (reading.block 5).lost)
      ∧ (reading.laneReceives 0 ([1].map (fun p => ⟨.camera, 0 + p * 4096, reading.bankPage 5 p⟩))).awaitsSource 0)
    ∧ ((∃ p ∈ [1], p ∈ [1] ∨ p ∈ (reading.block 5).lost) ∧ (reading.lane 0).works = true ∧ (reading.lane 0).job = some 0
      ∧ (reading.job? 0).isSome = true ∧ reading.jdp.live = [] ∧ reading.jdp.backlog = [])
    ∧ 1 ∈ ((reading.setBlock 5 ⟨.opened, [1]⟩).block 5).lost
    ∧ ((atOp (.append 7 511)).bank 0).op = some (.append 7 511) ∧ (⟨[1], [0xFF]⟩ : Unfinished).returned = [1]
    ∧ ((atErase .commanded).bank 0).erase = some ⟨7, .commanded, 3, false⟩ ∧ ((atErase .commanded).bank 0).op = none :=
  ⟨rfl, ⟨by decide, reading_awaits⟩, by decide, by decide, rfl, rfl, rfl, rfl⟩

/-- Bank 0 at the end of its operation with a suspended erase or none, and requests in its queues. -/
def queued (o : BankOp) (erase : Option Erase) (x : Bank) (places : List Nat) : State :=
  let u := quiet.setBank 0 { x with op := some o, erase := erase }
  { u with stc := { u.stc with emptyPlaces := places } }

/-- BankLimits, the next grant: a READ that is withdrawn, a PROGRAM and an APPEND as the operation that ends; a request
in each class; an APPEND with a place and, before another request, with none; a suspended erase and a queued one. -/
theorem witness_grants :
    let suspended : Erase := ⟨7, .suspended, 1, false⟩
    let r : ReadReq := ⟨.channel 0 0, 5, [1], 0, 4096⟩
    let p : ProgramReq := ⟨0, 9, 1⟩
    (([.read r false, .program p, .append 7 511] : List BankOp).all fun o =>
      let s := queued o (some suspended) { Bank.empty with intakeProgram := [p], deliveryRead := [r] } []
      (s.bank 0).op == some o && (s.bank 0).erase.all (fun e => e.state == .suspended) && s.stc.claims == []
        && s.stc.relocations == [] && (s.bank 0).intakeProgram == [p] && (s.bank 0).deliveryRead == [r]) = true
    ∧ Bank.copyQueue { Bank.empty with copy := [.append 7, .read r, .program p] } [] = [.read r, .program p]
    ∧ Bank.copyQueue { Bank.empty with copy := [.append 7, .program p] } [3] = [.append 7, .program p]
    ∧ Bank.copyQueue { Bank.empty with copy := [.append 7] } [] = []
    ∧ ((queued (.read r false) none { Bank.empty with eraseQueue := [11] } []).bank 0).eraseQueue = [11]
    ∧ ((atErase .running).bank 0).op = none ∧ (atErase .running).stc.claims = []
    ∧ (atErase .running).stc.relocations = [] := by decide

/-- A run of two blocks from offset 0. -/
def twoBlocks : Run := ⟨[7, 8], 0, some 0, 0, false⟩

/-- SourceLowMark, the mark: one below the end of the head block, at it, and beyond both blocks. -/
theorem witness_low_mark :
    (quiet.setRun 31 .screen twoBlocks).run? 31 .screen = some twoBlocks
    ∧ min twoBlocks.blocks.length ((max twoBlocks.lowMark 262143 - 0) / 262144) = 0
    ∧ min twoBlocks.blocks.length ((max twoBlocks.lowMark 262144 - 0) / 262144) = 1
    ∧ min twoBlocks.blocks.length ((max twoBlocks.lowMark 1000000 - 0) / 262144) = 2
    ∧ (quiet.block 7).state ≠ .bad ∧ (∀ b, 7 ∉ (quiet.bank b).eraseQueue)
    ∧ quiet.stc.claims = [] ∧ quiet.stc.relocations = [] := by
  refine ⟨by decide, by decide, by decide, by decide, by decide, fun b => ?_, rfl, rfl⟩
  show 7 ∉ ([] : List Nat)
  decide

/-- Page buffer 0 of the run of slot 0's CAMERA, with page 1 of a block, and its PROGRAM under way in bank 0, with a
relocation of block 7 or none, and blocks free in bank 1. -/
def programming (block : Nat) (relocations : List Relocation) (free : List Nat) : State :=
  { ((quiet.setRun 0 .camera ⟨[7], 0, some 0, 0, false⟩).setBuf 0
      ⟨.programming, .own (.run 0 .camera), block, 1, [1], 1, false, false⟩) with
    stc := { ((quiet.setRun 0 .camera ⟨[7], 0, some 0, 0, false⟩).setBuf 0
        ⟨.programming, .own (.run 0 .camera), block, 1, [1], 1, false, false⟩).stc with
      relocations := relocations
      banks := [(0, { Bank.empty with op := some (.program ⟨0, block, 1⟩) }), (1, { Bank.empty with free := free })] } }

/-- A relocation of block 7 to block 9 that programs its failed page last. -/
def lastPage : Relocation := ⟨.run 0 .camera, 7, 1, true, some 9, 1, [], true⟩

/-- SourceLowMark, the relocation: no other relocation, with a block free and with none; the failed page in its
target. -/
theorem witness_relocation :
    (let s := programming 7 [] [4097]
     (s.bank 0).op = some (.program ⟨0, 7, 1⟩)
      ∧ s.buf? 0 = some ⟨.programming, .own (.run 0 .camera), 7, 1, [1], 1, false, false⟩
      ∧ s.stc.buffers.map (fun e => e.1) = [0] ∧ s.stc.claims = [] ∧ s.stc.relocations = []
      ∧ s.freeHead ((bankOf 7 + 1) % 4) = some 4097 ∧ (∀ c < 4, 4097 ∉ (s.bank c).eraseQueue))
    ∧ (programming 7 [] []).freeHead ((bankOf 7 + 1) % 4) = none
    ∧ (let s := programming 9 [lastPage] [4097]
       s.stc.relocations = [lastPage] ∧ lastPage.target = some 9 ∧ lastPage.failed ≠ 9
      ∧ s.freeHead ((bankOf lastPage.failed + 1) % 4) = some 4097 ∧ s.run? 0 .camera = some ⟨[7], 0, some 0, 0, false⟩
      ∧ s.inPublished 9 = false ∧ (∀ c < 4, 7 ∉ (s.bank c).eraseQueue ∧ 9 ∉ (s.bank c).eraseQueue)) := by
  decide

/-- The failed page of `programming` alone, PENDING and held, in a block whose relocation stands at a next page with some
pages under way, and a bank with an operation. -/
def copying (next : Nat) (pages : List Nat) (buffers : Table Buf) (b : Nat) (o : BankOp) : State :=
  let u := programming 7 [⟨.run 0 .camera, 7, 20, true, some 4097, next, pages, false⟩] []
  { u with stc := { u.stc with
      buffers := (0, ⟨.pending, .own (.run 0 .camera), 7, 20, [1], 1, true, false⟩) :: buffers
      banks := [(b, { Bank.empty with op := some o })] } }

/-- A buffer of that relocation for a page. -/
def copyBuf (st : BufState) (page : Nat) : Buf := ⟨st, .relocation (.run 0 .camera), 4097, page, [], 0, false, false⟩

/-- SourceLowMark, the start of a copy: the failed page alone bound, with pages before it. -/
theorem witness_copy_start :
    let s := programming 7 [] [4097]
    s.solelyBound 0 (.own (.run 0 .camera)) 7 1 ∧ (s.block 7).lost = [] ∧ 8 ≤ s.freeBuffers ∧ 0 < 1 := by
  refine ⟨⟨⟨_, rfl, rfl, rfl, rfl, rfl⟩, fun j c h _ _ _ => ?_⟩, by decide, by decide, by decide⟩
  by_cases hj : j = 0
  · exact hj
  · simp [programming, State.buf?, State.setBuf, State.setRun, quiet, quietStc, Table.put, Table.at?, Ne.symm hj] at h

/-- SourceLowMark, the copy: the end of a READ of two pages, one of them in error; the program of the last page of a
burst, with pages left and with none. -/
theorem witness_copying :
    let r : ReadReq := ⟨.relocation (.run 0 .camera), 7, [1, 2], 0, 262144⟩
    let s := copying 3 [1, 2] [(1, copyBuf .filling 1), (2, copyBuf .filling 2)] 0 (.read r true)
    let u := copying 3 [2] [(2, copyBuf .programming 2)] 1 (.program ⟨2, 4097, 2⟩)
    let v := copying 20 [2] [(2, copyBuf .programming 2)] 1 (.program ⟨2, 4097, 2⟩)
    ((s.bank 0).op = some (.read r true) ∧ s.stc.relocations.length = 1 ∧ s.stc.claims = []
      ∧ s.stc.buffers.map (fun e => e.1) = [0, 1, 2] ∧ [1, 2].Nodup ∧ (∀ k ∈ [1, 2], k ∈ [1, 2])
      ∧ s.buf? 1 = some (copyBuf .filling 1) ∧ s.buf? 2 = some (copyBuf .filling 2) ∧ 1 ∈ [1] ∧ 2 ∉ [1]
      ∧ (4097 : Nat) ≠ 7)
    ∧ ((u.bank 1).op = some (.program ⟨2, 4097, 2⟩) ∧ u.buf? 2 = some (copyBuf .programming 2)
      ∧ u.stc.relocations.all (fun q => q.copying == [2] && decide (q.next < q.page)) = true ∧ (u.block 7).lost = []
      ∧ 8 ≤ u.freeBuffers)
    ∧ (v.stc.relocations.all (fun q => decide (q.page ≤ q.next) && q.failed == 7 && q.page == 20) = true
      ∧ (v.buf? 0).any (fun c => c.owner == .own (.run 0 .camera) && c.block == 7 && c.page == 20) = true) := by decide

/-- SourceLowMark, the abandonment: a mark that takes the head block alone, in a relocation with its target and without. -/
theorem witness_abandon :
    let r : ReadReq := ⟨.relocation (.run 0 .camera), 7, [1, 2], 0, 262144⟩
    let s := copying 3 [1, 2] [(1, copyBuf .filling 1), (2, copyBuf .programming 2)] 0 (.read r true)
    s.run? 0 .camera = some ⟨[7], 0, some 0, 0, false⟩ ∧ s.stc.relocations.map Relocation.failed = [7]
    ∧ s.stc.relocations.map Relocation.target = [some 4097] ∧ s.stc.claims = []
    ∧ (∀ c ∈ [(⟨.relocation (.run 0 .camera) 7, .block⟩ : Claim)], c.who = .relocation (.run 0 .camera) 7)
    ∧ 0 + 262144 ≤ max 0 300000 ∧ max 0 300000 < 0 + 524288
    ∧ (∀ b < 4, 7 ∉ (s.bank b).eraseQueue ∧ 4097 ∉ (s.bank b).eraseQueue) := by decide

/-- SourceLowMark, the claims: a run and then lane 0 wait for a block, and an erase of bank 0 is about to end. -/
theorem witness_claims :
    let s := (onSource false [9] 262144).setBank 0 { Bank.empty with erase := some ⟨11, .running, 0, false⟩ }
    let u : State := { s with stc := { s.stc with claims := [⟨.run 31 .voice, .block⟩, ⟨.lane 0, .block⟩] } }
    (u.bank 0).erase = some ⟨11, .running, 0, false⟩ ∧ bankOf 11 = 0 ∧ 11 ∉ (u.bank 0).eraseQueue ∧ 11 ∉ [9]
    ∧ (∀ c < 4, (u.bank c).free = []) ∧ u.stc.relocations = []
    ∧ u.laneExtent 0 = some (3, ⟨0, 0, 0, [9], 262144, .writing⟩) := by decide

/-! ## Delivery and invariants -/

/-- FetchBeginsSegment: a range upside down, a channel not IDLE, a VACANT slot; a segment not yet published, and one in
the catalogue with an extent. -/
theorem witness_fetch :
    modeOf 0 2 = some (.range 2) ∧ modeOf 1 0 = some .follow ∧ modeOk (.range 2) 3 = false ∧ modeOk (.range 2) 2 = true
    ∧ (withChannel.channel (7 : Byte).toNat).state ≠ .idle ∧ (quiet.channel 7).state = .idle ∧ quiet.lecture? 31 = none
    ∧ (3 : Byte).toNat < ({ lecture .running [] with profiles := [0, 1, 2, 3] } : Lecture).profiles.length
    ∧ quiet.lookUp 0 0 0 (lecture .running []) = .notYet
    ∧ ({ quiet with sgc := { quiet.sgc with
        catalogue := [⟨0, 0, 0, some 3, some 0, 4000, false, false, false, false, false⟩] } } : State).lookUp 0 0 0
        (lecture .running []) = .entry ⟨0, 0, 0, some 3, some 0, 4000, false, false, false, false, false⟩ := by decide

/-- StopAndWake: a WAITING channel without an item, one in its body, one that was stopped; the only channel not IDLE
waits on a segment in the catalogue. -/
theorem witness_stop :
    (withChannel.channel 7).state ≠ .idle ∧ (withChannel.channel 7).item = none
    ∧ (withChannel.channel 7).stopRequested = false ∧ (withChannel.channel 7).current = some 0
    ∧ (∀ d < 8, d ≠ 7 → (withChannel.channel d).state = .idle)
    ∧ ({ Channel.reset with state := .sending, item := some .body } : Channel).item = some .body
    ∧ ({ Channel.reset with state := .sending, stopRequested := true } : Channel).stopRequested = true := by decide

/-- A channel of `withEntry` that sends an item, some bytes of it placed. -/
def sendingItem (item : Item) (body : Bool) (position : Nat) : Channel :=
  { Channel.reset with
    state := .sending, fetch := some ⟨0, 0, .follow, 0⟩, current := some 0, item := some item, hasBody := body
    position := position, bytes := List.replicate 64 1, place0 := .requested 0 }

/-- StopAndWake, the items: a header, an END header and a trailer not begun and begun; the items of a channel that was
stopped as they end. -/
theorem witness_stop_items :
    ([Item.header, .ending, .trailer].all fun i =>
      (sendingItem i true 0).position == 0 && (sendingItem i true 10).position != 0 && (sendingItem i true 0).item == some i
        && (sendingItem i true 0).state != .idle && !(sendingItem i true 0).stopRequested) = true
    ∧ (({ sendingItem .header true 64 with stopRequested := true } : Channel).hasBody = true
      ∧ ({ sendingItem .header false 64 with stopRequested := true } : Channel).hasBody = false)
    ∧ (sendingItem .ending false 64).fetch = some ⟨0, 0, .follow, 0⟩ ∧ (sendingItem .ending false 64).current = some 0 := by
  decide

/-- The invariants hold in states that a step leaves: a reserved place with its directive under way, a count of 19, a
job, a page buffer and an extent in use with an erase. -/
theorem witness_invariants :
    State.placesOk { quiet.send (.stop 1 7) with ccu := { quiet.ccu with reserved := [⟨0x71, 1⟩] } }
    ∧ (atTrr (inState .inSync (some 19))).receiverOk ∧ quiet.returnIndexOk ∧ Memory.wf [(7, 1), (9, 0)] = true :=
  ⟨⟨by decide, .refl _⟩, ⟨by decide, by decide, by decide, by decide, by decide, by decide⟩,
    Nat.lt_of_sub_pos (by decide), by decide⟩

/-- The sizes hold with a window of 8 records and a candidate list of 256 entries, beside a LOADED lecture. -/
theorem witness_windows :
    let l := { lecture .running ((List.range 8).map (fun n => segment n .working)) with
      parts := (withCandidates 256).parts }
    l.sized ∧ (lecture .loaded []).sized ∧ ((quiet.setLecture 0 l).setLecture 31 (lecture .loaded [])).windowsOk := by
  have h1 : Lecture.sized { lecture .running ((List.range 8).map (fun n => segment n .working)) with
      parts := (withCandidates 256).parts } :=
    ⟨by decide, by decide, by decide, fun r => by cases r <;> decide +kernel⟩
  have h2 : (lecture .loaded []).sized := ⟨by decide, by decide, by decide, fun r => by cases r <;> decide⟩
  refine ⟨h1, h2, State.setLecture_windows (State.setLecture_windows ⟨fun m k e => ?_, by decide⟩ 0 h1) 31 h2⟩
  cases e

/-- The lanes meet their invariant with a BUSY lane, a DRAINING one and one in TEST. -/
theorem witness_lanes :
    State.lanesOk { quiet with lanes :=
      [(0, busyLane), (1, { busyLane with state := .draining }), (11, { Lane.reset with state := .test })] } := by
  intro n
  by_cases h0 : n = 0
  · subst h0
    decide
  by_cases h1 : n = 1
  · subst h1
    decide
  by_cases h2 : n = 11
  · subst h2
    decide
  simp [State.lane, Table.atD, Table.at?, Ne.symm h0, Ne.symm h1, Ne.symm h2, Lane.reset]

/-- The receiver's counts at the ends of their ranges. -/
theorem witness_receiver :
    State.receiverOk (atTrr { inState .inSync (some 19) with
      searchFrames := 160, alignmentRun := 255, indexRunInSync := 255, indexRun := 3, checkResults := [true, false, true]
      farEndRun := 1, alignmentErrors := 65535 })
    ∧ State.receiverOk (atTrr { inState .searchSuperframe none with indexRun := 2, searchFrames := 59 }) := by
  unfold State.receiverOk
  decide

/-- The pools hold in a part with a job, a page buffer and an extent in use, and a bank with a free block and an
erase. -/
theorem witness_pools :
    let b : Buf := ⟨.filling, .own (.extent 4095), 7, 0, [], 0, false, false⟩
    let y : Bank := { Bank.empty with free := [4096], erase := some ⟨4097, .running, 0, false⟩ }
    ({ quiet with
      jdp := { quiet.jdp with jobs := [(0, job), (255, job)] }
      stc := { quiet.stc with
        buffers := [(0, b), (159, b)], extents := [(4095, ⟨0, 0, 0, [7], 0, .writing⟩)], banks := [(1, y)] } }
      : State).poolsOk := by
  refine ⟨⟨by simp [Table.sorted], by simp⟩, ⟨by simp [Table.sorted], by simp⟩, ⟨by simp [Table.sorted], by simp⟩,
    fun n => ?_⟩
  by_cases h : n = 1
  · subst h
    exact ⟨by decide, by decide, fun e he => by obtain rfl := Option.some.inj he; rfl⟩
  · have hb : ∀ y : Bank, Table.atD [(1, y)] n Bank.empty = Bank.empty := fun y => by
      simp [Table.atD, Table.at?, Ne.symm h]
    simp only [State.bank, hb]
    exact ⟨nofun, nofun, nofun⟩

end Sys2Proof.Tests
end

section
/-! PROOF. Directives that answer and change nothing else (O15). -/

namespace Sys2Proof.Machine

/-! ## Taking a directive whose envelope is right -/

/-- A directive that arrives with a reply place free and a right envelope: its owner acts on the taken state, and the
answer is what the owner made (R179, R181). -/
theorem State.directive_acts {s : State} {c : Instr} (h : s.accepts c) (code : Nat) (tag : Word16)
    (act : State → Answered) {a : Answered} (ha : act (s.taken code tag) = a) :
    s.directive c code tag true act = State.answer code tag a := by
  rw [State.directive_of_accepts h, if_pos rfl, ha]

/-- A directive that its owner answers without touching its state leaves `State.answered`. -/
theorem State.directive_replies {s : State} {c : Instr} (h : s.accepts c) {code : Nat} {tag : Word16}
    {act : State → Answered} {result : ReplyCode} {fields : List Byte}
    (ha : act (s.taken code tag) = (s.taken code tag, result, fields)) :
    (.next (s.directive c code tag true act) : Result) = .next (s.answered code tag result fields) := by
  rw [State.directive_acts h code tag act ha, State.answer_taken]

/-! ## What each query answers -/

/-- A number below its limit is not refused RANGE. -/
theorem in_range {α : Type} {n limit : Nat} (h : n < limit) (a b : α) : (if limit ≤ n then a else b) = b :=
  if_neg (by omega)

theorem exec_profileQuery {s : State} {tag : Word16} {n : Byte} (hn : n.toNat < 16)
    (h : s.accepts (.profileQuery tag n)) :
    exec (.profileQuery tag n) s
      = .next (s.answered 0x21 tag .done (profileBytes (s.profile? n.toNat) ++ be1 (s.profileUsers n.toNat))) :=
  State.directive_replies h (in_range hn _ _)

theorem exec_lectureQuery {s : State} {tag : Word16} {n : Byte} (hn : n.toNat < 32)
    (h : s.accepts (.lectureQuery tag n)) :
    exec (.lectureQuery tag n) s = .next (s.answered 0x31 tag .done (match s.lecture? n.toNat with
      | none => List.replicate 76 0
      | some l => lectureBytes l)) := by
  refine State.directive_replies h ?_
  rw [actLectureQuery, in_range hn, State.taken_lecture?]
  cases s.lecture? n.toNat <;> rfl

theorem exec_segmentQuery {s : State} {tag : Word16} {n : Byte} {m : Word16} {l : Lecture} (hn : n.toNat < 32)
    (hl : s.lecture? n.toNat = some l) (h : s.accepts (.segmentQuery tag n m)) :
    exec (.segmentQuery tag n m) s
      = .next (s.answered 0x36 tag .done (segmentQueryBytes s n.toNat m.toNat l)) := by
  refine State.directive_replies h ?_
  rw [actSegmentQuery, in_range hn, State.taken_lecture?, hl]
  rfl

/-- QUEUE_QUERY of the LIVE list (selector 0). -/
theorem exec_queueQuery_live {s : State} {tag : Word16} {first : Byte} (h : s.accepts (.queueQuery tag 0 first)) :
    exec (.queueQuery tag 0 first) s
      = .next (s.answered 0x41 tag .done (queueSummary s ++ queuePage s s.jdp.live first.toNat)) :=
  State.directive_replies h (if_pos rfl)

/-- QUEUE_QUERY of the BACKLOG list (selector 1). -/
theorem exec_queueQuery_backlog {s : State} {tag : Word16} {first : Byte} (h : s.accepts (.queueQuery tag 1 first)) :
    exec (.queueQuery tag 1 first) s
      = .next (s.answered 0x41 tag .done (queueSummary s ++ queuePage s s.jdp.backlog first.toNat)) :=
  State.directive_replies h ((if_neg (by decide)).trans (if_pos rfl))

theorem exec_laneQuery {s : State} {tag : Word16} {n : Byte} (hn : n.toNat < 12) (h : s.accepts (.laneQuery tag n)) :
    exec (.laneQuery tag n) s = .next (s.answered 0x52 tag .done (laneQueryBytes s n.toNat)) :=
  State.directive_replies h (in_range hn _ _)

theorem exec_storeQuery {s : State} {tag : Word16} {n : Byte} (hn : n.toNat < 4) (h : s.accepts (.storeQuery tag n)) :
    exec (.storeQuery tag n) s = .next (s.answered 0x61 tag .done (storeQueryBytes s n.toNat)) :=
  State.directive_replies h (in_range hn _ _)

theorem exec_channelQuery {s : State} {tag : Word16} {n : Byte} (hn : n.toNat < 8)
    (h : s.accepts (.channelQuery tag n)) :
    exec (.channelQuery tag n) s = .next (s.answered 0x72 tag .done (channelQueryBytes s n.toNat)) :=
  State.directive_replies h (in_range hn _ _)

/-- Settles O15: each query's own lemma. -/
theorem queriesOnlyReply : Obligations.QueriesOnlyReply := fun _ _ _ =>
  ⟨exec_profileQuery, exec_lectureQuery, fun _ _ => exec_segmentQuery, fun _ => exec_queueQuery_live,
    fun _ => exec_queueQuery_backlog, exec_laneQuery, exec_storeQuery, exec_channelQuery⟩

end Sys2Proof.Machine
end

section
/-! PROOF. Reading one record after writing another, and LECTURE_LOAD (O30). -/

namespace Sys2Proof.Machine

/-! ## Records by slot and role -/

theorem roleCode_inj {r q : Role} (h : roleCode r = roleCode q) : r = q := by
  cases r <;> cases q <;> first | rfl | cases h

theorem roleCode_lt (r : Role) : roleCode r < 3 := by
  cases r <;> decide

/-- Two pairs of slot and role with one key are one pair. -/
theorem roleKey_inj {a b : Nat} {r q : Role} (h : roleKey a r = roleKey b q) : a = b ∧ r = q := by
  have hr := roleCode_lt r
  have hq := roleCode_lt q
  unfold roleKey at h
  exact ⟨by omega, roleCode_inj (by omega)⟩

theorem roleKey_ne {slot : Nat} {r q : Role} (h : q ≠ r) : roleKey slot q ≠ roleKey slot r :=
  fun e => h (roleKey_inj e).2

@[simp] theorem State.run?_setRun_same (s : State) (slot : Nat) (r : Role) (x : Run) :
    (s.setRun slot r x).run? slot r = some x :=
  Table.at?_put_same _ _ _

theorem State.run?_setRun_ne (s : State) (slot : Nat) {r q : Role} (x : Run) (h : q ≠ r) :
    (s.setRun slot r x).run? slot q = s.run? slot q :=
  Table.at?_put_ne _ _ (roleKey_ne h)

@[simp] theorem State.intake_setIntake_same (s : State) (slot : Nat) (r : Role) (x : IntakeRec) :
    (s.setIntake slot r x).intake slot r = x :=
  Table.atD_put_same _ _ _ _

theorem State.intake_setIntake_ne (s : State) (slot : Nat) {r q : Role} (x : IntakeRec) (h : q ≠ r) :
    (s.setIntake slot r x).intake slot q = s.intake slot q :=
  Table.atD_put_ne _ _ _ (roleKey_ne h)

@[simp] theorem State.discard_setDiscard_same (s : State) (slot : Nat) (d : DiscardSetting) :
    (s.setDiscard slot d).discard slot = d :=
  Table.atD_put_same _ _ _ _

/-! ## Presence -/

theorem mem_allRoles (r : Role) : r ∈ allRoles := by
  cases r <;> decide

theorem Lecture.mem_roles {l : Lecture} {r : Role} : r ∈ l.roles ↔ (l.parts.get r).present = true := by
  simp [Lecture.roles, mem_allRoles]

/-! ## LECTURE_LOAD (R4, R5) -/

/-- What LECTURE_LOAD gives one present role: an empty run and a fresh intake record (R5, R49). -/
def State.freshRole (slot : Nat) (s : State) (r : Role) : State :=
  (s.setRun slot r Run.fresh).setIntake slot r IntakeRec.reset

theorem State.load_eq (s : State) (b : LoadBody) (cls : LectureClass) :
    s.load b cls
      = ((loadedLecture b cls).roles.foldl (State.freshRole b.slot.toNat)
          ((s.setLecture b.slot.toNat (loadedLecture b cls)).setDiscard b.slot.toNat .off)).lectureEvent b.slot.toNat :=
  rfl

/-- One round of `freshRole` sets its own role and keeps the others, so a fold over roles sets each of them. -/
theorem State.freshRole_fold (slot : Nat) (rs : List Role) (s : State) {r : Role}
    (h : r ∈ rs ∨ (s.run? slot r = some Run.fresh ∧ s.intake slot r = IntakeRec.reset)) :
    (rs.foldl (State.freshRole slot) s).run? slot r = some Run.fresh
      ∧ (rs.foldl (State.freshRole slot) s).intake slot r = IntakeRec.reset := by
  induction rs generalizing s with
  | nil => exact h.resolve_left List.not_mem_nil
  | cons q rs ih =>
    refine ih (State.freshRole slot s q) ?_
    by_cases hq : r = q
    · subst hq
      exact .inr ⟨State.run?_setRun_same .., State.intake_setIntake_same ..⟩
    · refine h.imp (fun hm => (List.mem_cons.1 hm).resolve_left hq) (fun ⟨hr, hi⟩ => ⟨?_, ?_⟩)
      · exact (State.run?_setRun_ne s slot Run.fresh hq).trans hr
      · exact (State.intake_setIntake_ne (s.setRun slot q Run.fresh) slot IntakeRec.reset hq).trans hi

/-- What `freshRole` leaves alone: the records above the store, and the discard settings. -/
theorem State.freshRole_fold_keeps (slot : Nat) (rs : List Role) (s : State) :
    (rs.foldl (State.freshRole slot) s).above = s.above
      ∧ (rs.foldl (State.freshRole slot) s).iku.discard = s.iku.discard :=
  ⟨foldl_keeps State.above (State.freshRole slot) (fun _ _ => rfl) rs s,
    foldl_keeps (fun q => q.iku.discard) (State.freshRole slot) (fun _ _ => rfl) rs s⟩

theorem State.load_sgc (s : State) (b : LoadBody) (cls : LectureClass) :
    (s.load b cls).sgc = (s.setLecture b.slot.toNat (loadedLecture b cls)).sgc := by
  rw [State.load_eq, State.lectureEvent_sgc, State.sgc_of_above (State.freshRole_fold_keeps ..).1]
  rfl

theorem State.load_jdp (s : State) (b : LoadBody) (cls : LectureClass) : (s.load b cls).jdp = s.jdp := by
  rw [State.load_eq, State.lectureEvent_jdp, State.jdp_of_above (State.freshRole_fold_keeps ..).1]
  rfl

theorem State.load_lanes (s : State) (b : LoadBody) (cls : LectureClass) : (s.load b cls).lanes = s.lanes := by
  rw [State.load_eq, State.lectureEvent_lanes, State.lanes_of_above (State.freshRole_fold_keeps ..).1]
  rfl

theorem State.load_discard (s : State) (b : LoadBody) (cls : LectureClass) :
    (s.load b cls).discard b.slot.toNat = .off := by
  have hd := (State.freshRole_fold_keeps b.slot.toNat (loadedLecture b cls).roles
    ((s.setLecture b.slot.toNat (loadedLecture b cls)).setDiscard b.slot.toNat .off)).2
  exact (congrArg (fun t : Table DiscardSetting => t.atD b.slot.toNat .off) hd).trans (State.discard_setDiscard_same ..)

/-- The roles of a loaded lecture are those of the roles byte. -/
theorem loadedLecture_roles {b : LoadBody} {cls : LectureClass} {r : Role} (h : (rolesOfByte b.roles).get r = true) :
    r ∈ (loadedLecture b cls).roles := by
  rw [Lecture.mem_roles, loadedLecture, PerRole.get_map]
  exact h

theorem State.load_role (s : State) {b : LoadBody} {cls : LectureClass} {r : Role}
    (h : (rolesOfByte b.roles).get r = true) :
    (s.load b cls).run? b.slot.toNat r = some Run.fresh ∧ (s.load b cls).intake b.slot.toNat r = IntakeRec.reset :=
  State.freshRole_fold b.slot.toNat _ _ (.inl (loadedLecture_roles h))

/-- LECTURE_LOAD past the checks of R4. -/
theorem actLectureLoad_loads {s : State} {b : LoadBody} {cls : LectureClass} (hs : b.slot.toNat < 32)
    (hv : s.lecture? b.slot.toNat = none) (hn : ∀ e ∈ s.sgc.lectures, e.2.number ≠ b.number)
    (hc : classOf b.cls = some cls) (hl : b.limitsOk = true)
    (hp : b.profiles.all (s.profileFits (rolesOfByte b.roles)) = true) (hd : b.profiles.Nodup) :
    actLectureLoad b s = (s.load b cls, .done, []) := by
  have hu : s.sgc.lectures.any (fun e => e.2.number == b.number) = false := by
    simpa using hn
  simp [actLectureLoad, in_range hs, hv, hu, hc, hl, hp, hd]

theorem actLectureLoad_occupied {s : State} {b : LoadBody} (hs : b.slot.toNat < 32)
    (hv : s.lecture? b.slot.toNat ≠ none) : actLectureLoad b s = s.refuse .state := by
  simp [actLectureLoad, in_range hs, Option.isSome_iff_ne_none.2 hv]

theorem actLectureLoad_numberUsed {s : State} {b : LoadBody} (hs : b.slot.toNat < 32)
    (hv : s.lecture? b.slot.toNat = none) (hn : ∃ e ∈ s.sgc.lectures, e.2.number = b.number) :
    actLectureLoad b s = s.refuse .inUse := by
  have hu : s.sgc.lectures.any (fun e => e.2.number == b.number) = true := by
    simpa using hn
  simp [actLectureLoad, in_range hs, hv, hu]

/-- LECTURE_LOAD with a rendition count in range passes the envelope (R179 step 6). -/
theorem exec_lectureLoad {s : State} {tag : Word16} {b : LoadBody} (h1 : 1 ≤ b.count.toNat) (h4 : b.count.toNat ≤ 4)
    (h : s.accepts (.lectureLoad tag b.slot b.number b.course b.cls b.roles b.segLength b.skew b.gap b.count b.p0 b.p1
      b.p2 b.p3)) {a : Answered} (ha : actLectureLoad b (s.taken 0x30 tag) = a) :
    exec (.lectureLoad tag b.slot b.number b.course b.cls b.roles b.segLength b.skew b.gap b.count b.p0 b.p1 b.p2 b.p3) s
      = .next (State.answer 0x30 tag a) := by
  have ok : (decide (1 ≤ b.count.toNat) && decide (b.count.toNat ≤ 4)) = true := by
    simp [h1, h4]
  show execLectureLoad .. = _
  rw [execLectureLoad, ok, State.directive_acts h 0x30 tag _ ha]

/-- Settles O30: the state after the load, field by field, and the two refusals. -/
theorem lectureLoad : Obligations.LectureLoad := by
  intro s tag b hs h1 h4 c h
  refine ⟨fun cls hv hn hc hl hp hd => ?_, fun hv => ?_, fun hv hn => ?_⟩
  · have ha := exec_lectureLoad h1 h4 h (actLectureLoad_loads (s := s.taken 0x30 tag) hs hv hn hc hl hp hd)
    refine ⟨_, ha, ?_, fun m hm => ?_, fun r hr => ?_, ?_, ?_, ?_, ?_, ?_⟩
    · rw [State.answer_lecture?, State.lecture?_of_sgc (State.load_sgc ..), State.lecture?_setLecture_same]
    · rw [State.answer_lecture?, State.lecture?_of_sgc (State.load_sgc ..), State.lecture?_setLecture_ne _ _ hm]
      rfl
    · exact State.load_role (s.taken 0x30 tag) hr
    · exact State.load_discard (s.taken 0x30 tag) b cls
    · show ((s.taken 0x30 tag).load b cls).sgc.catalogue = _
      rw [State.load_sgc]
      rfl
    · exact State.load_jdp (s.taken 0x30 tag) b cls
    · exact State.load_lanes (s.taken 0x30 tag) b cls
    · exact State.answer_still (State.load_still ..) _ _
  · exact exec_lectureLoad h1 h4 h (actLectureLoad_occupied (s := s.taken 0x30 tag) hs hv)
  · exact exec_lectureLoad h1 h4 h (actLectureLoad_numberUsed (s := s.taken 0x30 tag) hs hv hn)

end Sys2Proof.Machine
end

section
/-! PROOF. What the operations of the Segment Controller make of the lecture record of their slot: one lemma for each
operation, on which the statements about lectures rest. -/

namespace Sys2Proof.Machine

/-! ## A step that changes one lecture record -/

/-- The SGC's tables and lists but the lecture records. -/
def Sgc.rest (g : Sgc) : Sgc := { g with lectures := [] }

/-- In `t` the record of `slot` is `k`; every other record, the catalogue and the lists of the SGC are those of `s`. -/
structure State.turns (s t : State) (slot : Nat) (k : Lecture) : Prop where
  record : t.lecture? slot = some k
  others : ∀ m, m ≠ slot → t.lecture? m = s.lecture? m
  rest : t.sgc.rest = s.sgc.rest

theorem State.turns.catalogue {s t : State} {slot : Nat} {k : Lecture} (h : s.turns t slot k) :
    t.sgc.catalogue = s.sgc.catalogue := by
  show t.sgc.rest.catalogue = s.sgc.rest.catalogue
  rw [h.rest]

theorem State.turns.admissions {s t : State} {slot : Nat} {k : Lecture} (h : s.turns t slot k) :
    t.admissions = s.admissions := by
  show t.sgc.rest.liveAdmission ++ t.sgc.rest.backlogAdmission
    = s.sgc.rest.liveAdmission ++ s.sgc.rest.backlogAdmission
  rw [h.rest]

theorem State.turns_refl {s : State} {slot : Nat} {l : Lecture} (h : s.lecture? slot = some l) : s.turns s slot l :=
  ⟨h, fun _ _ => rfl, rfl⟩

theorem State.turns.trans {s t u : State} {slot : Nat} {k j : Lecture} (h : s.turns t slot k) (h' : t.turns u slot j) :
    s.turns u slot j :=
  ⟨h'.record, fun m hm => (h'.others m hm).trans (h.others m hm), h'.rest.trans h.rest⟩

/-- What a state holds of the SGC depends on the SGC alone. -/
theorem State.turns.of_sgc {s t u : State} {slot : Nat} {k : Lecture} (h : s.turns t slot k) (e : u.sgc = t.sgc) :
    s.turns u slot k :=
  ⟨(State.lecture?_of_sgc e slot).trans h.record, fun m hm => (State.lecture?_of_sgc e m).trans (h.others m hm),
    (congrArg Sgc.rest e).trans h.rest⟩

theorem State.turns.from_sgc {s t u : State} {slot : Nat} {k : Lecture} (h : t.turns u slot k) (e : t.sgc = s.sgc) :
    s.turns u slot k :=
  ⟨h.record, fun m hm => (h.others m hm).trans (State.lecture?_of_sgc e m), h.rest.trans (congrArg Sgc.rest e)⟩

theorem State.setLecture_turns (s : State) (slot : Nat) (k : Lecture) : s.turns (s.setLecture slot k) slot k :=
  ⟨State.lecture?_setLecture_same .., fun _ hm => State.lecture?_setLecture_ne _ _ hm, rfl⟩

theorem State.modLecture_turns {s : State} {slot : Nat} {l : Lecture} (h : s.lecture? slot = some l)
    (f : Lecture → Lecture) : s.turns (s.modLecture slot f) slot (f l) := by
  simp only [State.modLecture, h]
  exact State.setLecture_turns ..

/-! ## The stretch discard (R33) -/

/-- A record with another stretch discard. -/
def Lecture.stretched (l : Lecture) (m : Stretch) : Lecture := { l with stretch := m }

theorem Lecture.stretched_self {l : Lecture} {m : Stretch} (h : l.stretch = m) : l.stretched m = l := by
  subst h
  rfl

theorem State.setStretch_eq {s : State} {slot : Nat} {l : Lecture} (h : s.lecture? slot = some l) (m : Stretch) :
    s.setStretch slot m = (s.setLecture slot (l.stretched m)).setDiscard slot (match m with
      | .off => .off
      | .all => .all
      | .keyOnly => .keyOnly l.lead false) := by
  simp only [State.setStretch, h]
  cases m <;> rfl

theorem State.setStretch_turns {s : State} {slot : Nat} {l : Lecture} (h : s.lecture? slot = some l) (m : Stretch) :
    s.turns (s.setStretch slot m) slot (l.stretched m) := by
  rw [State.setStretch_eq h]
  exact (State.setLecture_turns ..).of_sgc rfl

theorem State.endStretch_turns {s : State} {slot : Nat} {l : Lecture} (h : s.lecture? slot = some l) :
    s.turns (s.endStretch slot) slot (l.stretched .off) := by
  simp only [State.endStretch, h]
  split
  next e =>
    rw [Lecture.stretched_self e]
    exact State.turns_refl h
  next => exact State.setStretch_turns h .off

/-- Moving a stretch discard touches the record's stretch discard alone, and only one of ALL. -/
theorem State.moveStretch_turns {s : State} {slot : Nat} {l : Lecture} (h : s.lecture? slot = some l) :
    ∃ m, s.turns (s.moveStretch slot) slot (l.stretched m) ∧ (l.stretch ≠ .all → m = l.stretch) := by
  have stays : ∃ m, s.turns s slot (l.stretched m) ∧ (l.stretch ≠ .all → m = l.stretch) :=
    ⟨l.stretch, State.turns_refl h, fun _ => rfl⟩
  simp only [State.moveStretch, h]
  cases l.openSegment with
  | none => exact stays
  | some g =>
    dsimp only
    split
    next c => exact ⟨.keyOnly, State.setStretch_turns h .keyOnly, fun e => absurd c.1 e⟩
    next => exact stays

/-! ## Low marks (R42) -/

/-- A record with other low marks. -/
def Lecture.marked (l : Lecture) (f : Role → Nat) : Lecture :=
  { l with parts := l.parts.map (fun r p => { p with lowMark := f r }) }

@[simp] theorem Lecture.marked_part (l : Lecture) (f : Role → Nat) (r : Role) :
    (l.marked f).parts.get r = { l.parts.get r with lowMark := f r } :=
  PerRole.get_map ..

/-- The low marks of a record, changed for one role. -/
theorem Lecture.marked_modPart (l : Lecture) (f : Role → Nat) (r : Role) (m : Nat) :
    (l.marked f).modPart r (fun p => { p with lowMark := m }) = l.marked (fun q => if q = r then m else f q) := by
  cases r <;> rfl

theorem Lecture.marked_self (l : Lecture) : l.marked (fun r => (l.parts.get r).lowMark) = l := rfl

/-- One role's low mark presented: the record's low marks alone may differ. -/
theorem State.presentMark_turns {s : State} {slot : Nat} {l : Lecture} {f : Role → Nat}
    (h : s.lecture? slot = some (l.marked f)) (r : Role) :
    ∃ f, s.turns (State.presentMark slot s r) slot (l.marked f) := by
  simp only [State.presentMark, h]
  split
  next =>
    rw [Lecture.marked_modPart]
    exact ⟨_, (State.setLecture_turns ..).of_sgc rfl⟩
  next => exact ⟨f, State.turns_refl h⟩

theorem State.presentMark_fold {s : State} {slot : Nat} {l : Lecture} (rs : List Role) {t : State} {f : Role → Nat}
    (h : s.turns t slot (l.marked f)) : ∃ f, s.turns (rs.foldl (State.presentMark slot) t) slot (l.marked f) := by
  induction rs generalizing t f with
  | nil => exact ⟨f, h⟩
  | cons r rs ih =>
    obtain ⟨f', h'⟩ := State.presentMark_turns h.record r
    exact ih (h.trans h')

theorem State.presentMarks_turns {s : State} {slot : Nat} {l : Lecture} (h : s.lecture? slot = some l) :
    ∃ f, s.turns (s.presentMarks slot) slot (l.marked f) := by
  simp only [State.presentMarks, h]
  refine State.presentMark_fold l.roles (f := fun r => (l.parts.get r).lowMark) ?_
  rw [Lecture.marked_self]
  exact State.turns_refl h

/-! ## Failover (R8, R34) -/

/-- A record whose lead is another role, its candidate lists emptied. -/
def Lecture.ledBy (l : Lecture) (r : Role) : Lecture := { l.clearLists with lead := r }

/-- The record after a failover: the live role of highest rank takes the lead where the lead is not live. -/
def Lecture.failedOver (l : Lecture) : Lecture :=
  if (l.state = .ending ∨ l.state = .closed) ∨ l.live l.lead = true then l
  else match rankedRoles.find? l.live with
    | none => l
    | some r => l.ledBy r

theorem Lecture.failedOver_of_live {l : Lecture} (h : l.live l.lead = true) : l.failedOver = l :=
  if_pos (.inr h)

theorem Lecture.failedOver_of_none {l : Lecture} (h : rankedRoles.find? l.live = none) : l.failedOver = l := by
  simp only [Lecture.failedOver, h, ite_self]

theorem Lecture.failedOver_of_some {l : Lecture} {r : Role} (hs : ¬ (l.state = .ending ∨ l.state = .closed))
    (hl : l.live l.lead = false) (hf : rankedRoles.find? l.live = some r) : l.failedOver = l.ledBy r := by
  have hc : ¬ ((l.state = .ending ∨ l.state = .closed) ∨ l.live l.lead = true) := fun c =>
    c.elim hs (fun e => by rw [hl] at e; cases e)
  simp only [Lecture.failedOver, if_neg hc, hf]

/-- A failover touches the lead and the candidate lists alone. -/
theorem Lecture.failedOver_cases (l : Lecture) : l.failedOver = l ∨ ∃ r, l.failedOver = l.ledBy r := by
  unfold Lecture.failedOver
  split
  next => exact .inl rfl
  next =>
    split
    next => exact .inl rfl
    next r _ => exact .inr ⟨r, rfl⟩

theorem State.failover_turns {s : State} {slot : Nat} {l : Lecture} (h : s.lecture? slot = some l) :
    s.turns (s.failover slot) slot l.failedOver := by
  by_cases hc : (l.state = .ending ∨ l.state = .closed) ∨ l.live l.lead = true
  · simp only [State.failover, h, Lecture.failedOver, if_pos hc]
    exact State.turns_refl h
  simp only [State.failover, h, Lecture.failedOver, if_neg hc]
  cases rankedRoles.find? l.live with
  | none => exact State.turns_refl h
  | some r =>
    have led := State.setLecture_turns s slot (l.ledBy r)
    refine State.turns.of_sgc (t := if l.stretch = .keyOnly then _ else _) ?_ (State.lectureEvent_sgc ..)
    split
    next e =>
      have told := State.setStretch_turns led.record .keyOnly
      rw [Lecture.stretched_self (l := l.ledBy r) e] at told
      exact led.trans told
    next => exact led

/-! ## Opening the next segment (R13, R20, R25) -/

/-- A record in another state. -/
def Lecture.inState (l : Lecture) (st : LectureState) : Lecture := { l with state := st }

/-- The record once the next segment has opened. -/
def Lecture.opening (l : Lecture) (lead : Option Stamp) (ranges : PerRole RoleRange) : Lecture :=
  { l.clearLists with
    window := l.window ++ [freshSegment l lead ranges], forcedCut := false, stretch := .off
    nextSegment := min 65535 (l.nextSegment + 1), endMark := l.endMark || l.nextSegment == 65535 }

theorem State.openNext_turns {s : State} {slot : Nat} {l : Lecture} (h : s.lecture? slot = some l)
    (lead : Option Stamp) (ranges : PerRole RoleRange) :
    s.turns (s.openNext slot lead ranges) slot (l.opening lead ranges) := by
  simp only [State.openNext, h]
  have opened := State.setLecture_turns s slot { l.clearLists with
    window := l.window ++ [freshSegment l lead ranges], forcedCut := false,
    nextSegment := min 65535 (l.nextSegment + 1), endMark := l.endMark || l.nextSegment == 65535 }
  exact opened.trans (State.endStretch_turns opened.record)

/-- A STALLED lecture with segments left to open and room in its window resumes with the next segment open. -/
theorem State.resume_turns {s : State} {slot : Nat} {l : Lecture} (h : s.lecture? slot = some l)
    (hs : l.state = .stalled) (he : l.endMark = false) (hw : l.window.length < 8) (ho : l.openSegment = none) :
    s.turns (s.resume slot) slot ((l.inState .running).opening none (PerRole.all RoleRange.fresh)) := by
  have runs : s.turns ((s.setLecture slot (l.inState .running)).lectureEvent slot) slot (l.inState .running) :=
    (State.setLecture_turns ..).of_sgc (State.lectureEvent_sgc ..)
  have hn : (l.inState .running).opensNext = true := by
    show (LectureState.running == .running && l.openSegment.isNone && !l.endMark && decide (l.window.length < 8)) = true
    simp [ho, he, hw]
  have opens : (s.resume slot) = ((s.setLecture slot (l.inState .running)).lectureEvent slot).openDue slot := by
    simp only [State.resume, h, if_pos hs, if_neg (ne_true_of_eq_false he)]
    rfl
  rw [opens]
  simp only [State.openDue, runs.record, if_pos hn]
  exact runs.trans (State.openNext_turns runs.record ..)

theorem State.resume_of_not_stalled {s : State} {slot : Nat} {l : Lecture} (h : s.lecture? slot = some l)
    (hs : l.state ≠ .stalled) : s.resume slot = s := by
  simp only [State.resume, h, if_neg hs]

/-! ## ENDING and CLOSED (R14 to R16) -/

@[simp] theorem State.closeRoles_sgc (slot : Nat) (rs : List Role) (s : State) :
    (rs.foldl (fun q r => q.closeRole slot r) s).sgc = s.sgc :=
  foldl_keeps State.sgc (fun q r => q.closeRole slot r) (fun _ _ => State.closeRole_sgc ..) rs s

theorem State.closeLecture_turns {s : State} {slot : Nat} {l : Lecture} (h : s.lecture? slot = some l) :
    s.turns (s.closeLecture slot) slot (l.stopGaps.inState .closed) := by
  simp only [State.closeLecture, h]
  refine (State.setLecture_turns s slot (l.stopGaps.inState .closed)).of_sgc ?_
  rw [State.send_sgc, State.closeRoles_sgc, State.lectureEvent_sgc]
  rfl

/-- A lecture that ends is CLOSED at once where its window is empty (R14, R16). -/
theorem State.enterEnding_turns {s : State} {slot : Nat} {l : Lecture} (h : s.lecture? slot = some l) :
    s.turns (s.enterEnding slot) slot (l.stopGaps.inState (if l.window = [] then .closed else .ending)) := by
  have ends : s.turns ((s.modLecture slot (fun l => { l.stopGaps with state := .ending })).lectureEvent slot) slot
      (l.stopGaps.inState .ending) := (State.modLecture_turns h _).of_sgc (State.lectureEvent_sgc ..)
  simp only [State.enterEnding, State.testClosed, ends.record]
  by_cases hw : l.window = []
  · have hc : (l.stopGaps.inState .ending).state = .ending ∧ (l.stopGaps.inState .ending).window.isEmpty = true :=
      ⟨rfl, List.isEmpty_iff.2 hw⟩
    have closes := State.closeLecture_turns ends.record
    rw [if_pos hc, if_pos hw]
    exact ends.trans closes
  · rw [if_neg (fun c => hw (List.isEmpty_iff.1 c.2)), if_neg hw]
    exact ends

end Sys2Proof.Machine
end

section
/-! PROOF. A unit notice that starts a LOADED lecture or resumes a STALLED one (O35). -/

namespace Sys2Proof.Machine

/-! ## The record of a role that is heard (R2, R7, R9, R24) -/

/-- The record once a unit notice has been noted and its role is live again. -/
def Lecture.noticed (l : Lecture) (n : UnitNotice) : Lecture := (l.heard n.role).noted n

/-- The notice of a unit in a run. -/
def placed (slot : Nat) (r : Role) (stamp : Stamp) (key : Bool) (p : UnitPlace) : UnitNotice :=
  ⟨slot, r, stamp, key, some p⟩

/-- The unit that a notice files. -/
def placedUnit (r : Role) (stamp : Stamp) (key : Bool) (p : UnitPlace) : FiledUnit :=
  ⟨r, stamp, key, p.good, p.start, p.stop⟩

theorem Lecture.noticed_part_ne (l : Lecture) (n : UnitNotice) {q : Role} (h : q ≠ n.role) :
    (l.noticed n).parts.get q = l.parts.get q := by
  simp only [Lecture.noticed, Lecture.noted, Lecture.heard, Lecture.modPart, PerRole.get_set_ne _ _ h]

/-- The part of a role that has not ended, in a lecture that is neither ENDING nor CLOSED, after a unit of it. -/
theorem Lecture.noticed_part {l : Lecture} {slot : Nat} {r : Role} {stamp : Stamp} {key : Bool} {p : UnitPlace}
    (he : (l.parts.get r).ended = false) (hs : ¬ (l.state = .ending ∨ l.state = .closed)) :
    (l.noticed (placed slot r stamp key p)).parts.get r = { l.parts.get r with
      silent := false, gapRunning := true, gapLeft := l.gapLimit * 1000 * Config.ticksPerMs, lastStamp := some stamp
      noticedEnd := p.stop, noticedStamp := some stamp } := by
  simp only [Lecture.noticed, Lecture.noted, Lecture.heard, Lecture.modPart, placed, PerRole.get_set_same, he,
    Bool.false_eq_true, if_false, if_neg hs]

theorem Lecture.live_of_part {l k : Lecture} {q : Role} (h : l.parts.get q = k.parts.get q) : l.live q = k.live q := by
  rw [Lecture.live, Lecture.live, h]

theorem Lecture.noticed_live_ne (l : Lecture) (n : UnitNotice) {q : Role} (h : q ≠ n.role) :
    (l.noticed n).live q = l.live q :=
  Lecture.live_of_part (l.noticed_part_ne n h)

theorem Lecture.noticed_live {l : Lecture} {slot : Nat} {r : Role} {stamp : Stamp} {key : Bool} {p : UnitPlace}
    (hp : (l.parts.get r).present = true) (he : (l.parts.get r).ended = false)
    (hs : ¬ (l.state = .ending ∨ l.state = .closed)) : (l.noticed (placed slot r stamp key p)).live r = true := by
  simp [Lecture.live, Lecture.noticed_part he hs, hp, he]

/-- A notice goes by the failover, the resume, the unit's filing and the low marks (R28): what the middle two make of
the record is left to `hu`. -/
theorem exec_unitNotice_turns {s : State} {n : UnitNotice} {l k : Lecture} (h : s.lecture? n.slot = some l)
    (hc : l.state ≠ .closed) (hp : (l.parts.get n.role).present = true)
    (hu : ∀ t : State, t.lecture? n.slot = some (l.noticed n).failedOver →
      t.turns ((t.resume n.slot).useNotice n.slot n) n.slot k) :
    ∃ t f, exec (.unitNotice n) s = .next t ∧ s.turns t n.slot (k.marked f) := by
  have hn : ¬ (l.state = .closed ∨ (l.parts.get n.role).present = false) := by
    simp [hc, hp]
  have taken : (s.received (.unitNotice n)).takeNotice n = (((((s.received (.unitNotice n)).setLecture n.slot
      (l.noticed n)).failover n.slot).resume n.slot).useNotice n.slot n).presentMarks n.slot := by
    have h' : (s.received (.unitNotice n)).lecture? n.slot = some l := h
    simp only [State.takeNotice, h', if_neg hn]
    rfl
  have heard := State.setLecture_turns (s.received (.unitNotice n)) n.slot (l.noticed n)
  have led := heard.trans (State.failover_turns heard.record)
  have used := led.trans (hu _ led.record)
  obtain ⟨f, marks⟩ := State.presentMarks_turns used.record
  have final := used.trans marks
  rw [← taken] at final
  exact ⟨_, f, rfl, (final.of_sgc (State.serveClaims_sgc _)).from_sgc rfl⟩

/-- The ranked roles hold the one role that is live. -/
theorem ranked_find_only {f : Role → Bool} {r : Role} (hr : f r = true) (hq : ∀ q, q ≠ r → f q = false) :
    rankedRoles.find? f = some r := by
  cases r <;> simp [rankedRoles, hr, hq]

/-! ## The start (R11, R25) -/

/-- The record that the first KEY unit of the lead starts (R11). -/
def Lecture.started (l : Lecture) (u : FiledUnit) : Lecture :=
  Lecture.opening { l with base := some u.stamp, state := .running } (some u.stamp)
    ((PerRole.all RoleRange.fresh).set u.role (startRange u.stamp u.start))

theorem State.startLecture_turns {s : State} {slot : Nat} {l : Lecture} (h : s.lecture? slot = some l) (u : FiledUnit) :
    s.turns (s.startLecture slot u) slot (l.started u) := by
  have runs := State.modLecture_turns h (fun l => { l with base := some u.stamp, state := .running })
  exact (runs.trans (State.openNext_turns runs.record ..)).of_sgc (State.lectureEvent_sgc ..)

/-- In LOADED the first KEY unit of the lead starts the lecture (R11). -/
theorem State.useNotice_starts {s : State} {slot : Nat} {l : Lecture} (h : s.lecture? slot = some l) {r : Role}
    {stamp : Stamp} {p : UnitPlace} (hl : l.state = .loaded) (hr : r = l.lead) (he : (l.parts.get r).ended = false) :
    s.turns ((s.resume slot).useNotice slot (placed slot r stamp true p)) slot
      (l.started (placedUnit r stamp true p)) := by
  have hu : filedUnit (placed slot r stamp true p) = some (placedUnit r stamp true p) := rfl
  have hk : (placedUnit r stamp true p).role = l.lead ∧ (placedUnit r stamp true p).key = true := ⟨hr, rfl⟩
  have he' : ¬ (l.parts.get (placedUnit r stamp true p).role).ended = true := ne_true_of_eq_false he
  rw [State.resume_of_not_stalled h (by simp [hl])]
  simp only [State.useNotice, h, hu, if_neg he', if_pos hl, if_pos hk]
  exact State.startLecture_turns h _

/-! ## The resume (R13, R27) -/

theorem Lecture.openSegment_none {l : Lecture} : l.openSegment = none ↔ ∀ g ∈ l.window, g.state ≠ .opened := by
  simp [Lecture.openSegment]

theorem Lecture.cuttingSegment_none {l : Lecture} : l.cuttingSegment = none ↔ ∀ g ∈ l.window, g.state ≠ .cutting := by
  simp [Lecture.cuttingSegment]

/-- A unit is tried as the start of its role in the OPEN segment that stands last, where no record is CUTTING and no
other is OPEN (R27, R28). -/
theorem State.fileUnit_start {s : State} {slot : Nat} {l : Lecture} {w : List Segment} {g : Segment}
    (h : s.lecture? slot = some l) (hw : l.window = w ++ [g]) (ho : ∀ d ∈ w, d.state ≠ .opened)
    (hc : ∀ d ∈ w, d.state ≠ .cutting) (hn : ∀ d ∈ w, d.number ≠ g.number) (hg : g.state = .opened) (u : FiledUnit)
    (hu : (g.ranges.get u.role).startOffset = none) :
    s.turns (s.fileUnit slot u) slot { l with window := w ++ [g.fileStart l u] } := by
  have cutting : l.cuttingSegment = none := by
    rw [Lecture.cuttingSegment_none, hw]
    simpa [or_imp, forall_and, hg] using hc
  have opened : l.openSegment = some g := by
    have hf : w.find? (fun g => g.state == .opened) = none := by simpa using ho
    rw [Lecture.openSegment, hw, List.find?_append, hf]
    simp [hg]
  have filed : l.modSegment g.number (fun g => g.fileStart l u) = { l with window := w ++ [g.fileStart l u] } := by
    have hm : w.map (fun d => if d.number = g.number then d.fileStart l u else d) = w :=
      (List.map_congr_left (fun d hd => if_neg (hn d hd))).trans (List.map_id' w)
    rw [Lecture.modSegment, hw, List.map_append, hm]
    simp
  have isNone : (g.ranges.get u.role).startOffset.isNone = true := by rw [hu]; rfl
  simp only [State.fileUnit, h, cutting, State.fileOpen, opened, if_pos isNone, filed]
  exact State.setLecture_turns ..

/-- In a lecture that is not LOADED a unit of a role that has not ended is filed (R28). -/
theorem State.useNotice_files {s : State} {slot : Nat} {l : Lecture} (h : s.lecture? slot = some l) {r : Role}
    {stamp : Stamp} {key : Bool} {p : UnitPlace} (hl : l.state ≠ .loaded) (he : (l.parts.get r).ended = false) :
    s.useNotice slot (placed slot r stamp key p) = s.fileUnit slot (placedUnit r stamp key p) := by
  have hu : filedUnit (placed slot r stamp key p) = some (placedUnit r stamp key p) := rfl
  have he' : ¬ (l.parts.get (placedUnit r stamp key p).role).ended = true := ne_true_of_eq_false he
  simp only [State.useNotice, h, hu, if_neg he', if_neg hl]

/-- A record with another lead and other candidate lists. -/
def Lecture.relisted (l : Lecture) (lead : Role) (f : Role → List CutCandidate) : Lecture :=
  { l with lead := lead, parts := l.parts.map (fun r p => { p with candidates := f r }) }

@[simp] theorem Lecture.relisted_part (l : Lecture) (lead : Role) (f : Role → List CutCandidate) (r : Role) :
    (l.relisted lead f).parts.get r = { l.parts.get r with candidates := f r } :=
  PerRole.get_map ..

/-- A failover leaves all of a record but the lead and the candidate lists. -/
theorem Lecture.failedOver_relisted (l : Lecture) : ∃ lead f, l.failedOver = l.relisted lead f := by
  rcases l.failedOver_cases with e | ⟨r, e⟩
  · exact ⟨l.lead, fun q => (l.parts.get q).candidates, e⟩
  · exact ⟨r, fun _ => [], e⟩

/-- A role that is heard keeps the lead. -/
theorem Lecture.noticed_keeps_lead {l : Lecture} {slot : Nat} {r : Role} {stamp : Stamp} {key : Bool} {p : UnitPlace}
    (hs : ¬ (l.state = .ending ∨ l.state = .closed)) (hp : (l.parts.get r).present = true)
    (he : (l.parts.get r).ended = false) (hr : r = l.lead) :
    (l.noticed (placed slot r stamp key p)).failedOver.lead = r := by
  have live : (l.noticed (placed slot r stamp key p)).live r = true := Lecture.noticed_live hp he hs
  have lead : (l.noticed (placed slot r stamp key p)).lead = r := hr.symm
  rw [Lecture.failedOver_of_live (by rw [lead]; exact live)]
  exact lead

/-- A role that is heard takes the lead where no other role is live (R8, R9). -/
theorem Lecture.noticed_takes_lead {l : Lecture} {slot : Nat} {r : Role} {stamp : Stamp} {key : Bool} {p : UnitPlace}
    (hs : ¬ (l.state = .ending ∨ l.state = .closed)) (hp : (l.parts.get r).present = true)
    (he : (l.parts.get r).ended = false) (hq : ∀ q, q ≠ r → l.live q = false) :
    (l.noticed (placed slot r stamp key p)).failedOver.lead = r := by
  by_cases hr : r = l.lead
  · exact Lecture.noticed_keeps_lead hs hp he hr
  have others : ∀ q, q ≠ r → (l.noticed (placed slot r stamp key p)).live q = false := fun q h => by
    rw [Lecture.noticed_live_ne _ _ h, hq q h]
  rw [Lecture.failedOver_of_some (l := l.noticed (placed slot r stamp key p)) hs (others _ (Ne.symm hr))
    (ranked_find_only (Lecture.noticed_live hp he hs) others)]
  rfl

/-- A live lead stays when another role is heard. -/
theorem Lecture.noticed_leaves_lead {l : Lecture} {n : UnitNotice} (hr : n.role ≠ l.lead)
    (hl : l.live l.lead = true) : (l.noticed n).failedOver.lead = l.lead := by
  have live : (l.noticed n).live l.lead = true := (l.noticed_live_ne n (Ne.symm hr)).trans hl
  rw [Lecture.failedOver_of_live (l := l.noticed n) live]
  rfl

theorem Lecture.opening_part (l : Lecture) (lead : Option Stamp) (ranges : PerRole RoleRange) (r : Role) :
    (l.opening lead ranges).parts.get r = { l.parts.get r with candidates := [] } :=
  PerRole.get_map ..

/-- The record that a unit resumes: the next segment open, with the unit tried as the lead's start (R13, R27). -/
def Lecture.resumed (l : Lecture) (u : FiledUnit) : Lecture :=
  { (l.inState .running).opening none (PerRole.all RoleRange.fresh) with
    window := l.window ++ [(freshSegment l none (PerRole.all RoleRange.fresh)).fileStart l u] }

theorem Lecture.resumed_nextSegment (l : Lecture) (u : FiledUnit) :
    (l.resumed u).nextSegment = min 65535 (l.nextSegment + 1) := rfl

theorem Lecture.resumed_base (l : Lecture) (u : FiledUnit) (n : UnitNotice) (lead : Role)
    (c : Role → List CutCandidate) (f : Role → Nat) :
    ((((l.noticed n).relisted lead c).resumed u).marked f).base = l.base := by
  unfold Lecture.marked Lecture.resumed Lecture.opening Lecture.clearLists Lecture.mapParts Lecture.inState
    Lecture.relisted
  rfl

theorem State.resume_files {s : State} {slot : Nat} {l : Lecture} (h : s.lecture? slot = some l)
    (hs : l.state = .stalled) (he : l.endMark = false) (hw : l.window.length < 8) (ho : l.openSegment = none)
    (hc : l.cuttingSegment = none) (hn : ∀ d ∈ l.window, d.number ≠ l.nextSegment) {r : Role} (stamp : Stamp)
    (key : Bool) (p : UnitPlace) (hr : (l.parts.get r).ended = false) :
    s.turns ((s.resume slot).useNotice slot (placed slot r stamp key p)) slot
      (l.resumed (placedUnit r stamp key p)) := by
  have resumes := State.resume_turns h hs he hw ho
  have hr' : (((l.inState .running).opening none (PerRole.all RoleRange.fresh)).parts.get r).ended = false := by
    rw [Lecture.opening_part]
    exact hr
  have files := State.fileUnit_start (w := l.window) (g := freshSegment l none (PerRole.all RoleRange.fresh))
    resumes.record rfl (Lecture.openSegment_none.1 ho) (Lecture.cuttingSegment_none.1 hc) hn rfl
    (placedUnit r stamp key p) (by cases r <;> rfl)
  rw [State.useNotice_files resumes.record (by exact LectureState.noConfusion) hr']
  exact resumes.trans files

/-! ## The start that is tried (R27) -/

/-- A KEY unit of the lead starts it in the segment that opened with nothing started. -/
theorem freshSegment_fileStart_key {l k : Lecture} {r : Role} (stamp : Stamp) (p : UnitPlace) (h : r = k.lead) :
    (freshSegment l none (PerRole.all RoleRange.fresh)).fileStart k (placedUnit r stamp true p)
      = { freshSegment l none ((PerRole.all RoleRange.fresh).set r (startRange stamp p.start)) with
          leadStart := some stamp, target := k.base.map (fun b => targetStamp b stamp k.segMs) } := by
  simp [Segment.fileStart, freshSegment, placedUnit, Segment.modRange, h]

/-- A unit of the lead that is not KEY leaves the segment waiting for its start. -/
theorem freshSegment_fileStart_wait {l k : Lecture} {r : Role} (stamp : Stamp) (p : UnitPlace) (h : r = k.lead) :
    (freshSegment l none (PerRole.all RoleRange.fresh)).fileStart k (placedUnit r stamp false p)
      = { freshSegment l none (PerRole.all RoleRange.fresh) with leadWait := true } := by
  simp [Segment.fileStart, freshSegment, placedUnit, h]

/-- A unit of another role than the lead starts nothing. -/
theorem freshSegment_fileStart_other {l k : Lecture} {r : Role} (stamp : Stamp) (key : Bool) (p : UnitPlace)
    (h : r ≠ k.lead) :
    (freshSegment l none (PerRole.all RoleRange.fresh)).fileStart k (placedUnit r stamp key p)
      = freshSegment l none (PerRole.all RoleRange.fresh) := by
  simp [Segment.fileStart, freshSegment, placedUnit, h]

/-- Trying the start keeps the segment's number, state and renditions. -/
theorem Segment.fileStart_keeps (g : Segment) (l : Lecture) (u : FiledUnit) :
    (g.fileStart l u).number = g.number ∧ (g.fileStart l u).state = g.state
      ∧ (g.fileStart l u).renditions = g.renditions := by
  unfold Segment.fileStart
  repeat' split
  all_goals exact ⟨rfl, rfl, rfl⟩

/-! ## The statement -/

theorem unitNotice_starts {s : State} {slot : Nat} {stamp : Stamp} {p : UnitPlace} {l : Lecture}
    (h : s.lecture? slot = some l) (hl : l.state = .loaded) (hp : (l.parts.get l.lead).present = true)
    (he : (l.parts.get l.lead).ended = false) :
    ∃ t f, exec (.unitNotice (placed slot l.lead stamp true p)) s = .next t
      ∧ s.turns t slot (((l.noticed (placed slot l.lead stamp true p)).started
          (placedUnit l.lead stamp true p)).marked f) := by
  have hs : ¬ (l.state = .ending ∨ l.state = .closed) := by simp [hl]
  have part := Lecture.noticed_part (slot := slot) (stamp := stamp) (key := true) (p := p) he hs
  refine exec_unitNotice_turns (n := placed slot l.lead stamp true p) h (by simp [hl]) hp fun q hq => ?_
  rw [Lecture.failedOver_of_live (Lecture.noticed_live hp he hs)] at hq
  exact State.useNotice_starts hq hl rfl (by rw [part]; exact he)

theorem unitNotice_resumes {s : State} {slot : Nat} {r : Role} {stamp : Stamp} {key : Bool} {p : UnitPlace}
    {l : Lecture} (h : s.lecture? slot = some l) (hl : l.state = .stalled) (hp : (l.parts.get r).present = true)
    (he : (l.parts.get r).ended = false) (hm : l.endMark = false) (hw : l.window.length < 8)
    (ho : l.openSegment = none) (hc : l.cuttingSegment = none) (hn : ∀ d ∈ l.window, d.number ≠ l.nextSegment) :
    ∃ t f, exec (.unitNotice (placed slot r stamp key p)) s = .next t
      ∧ s.turns t slot (((l.noticed (placed slot r stamp key p)).failedOver.resumed
          (placedUnit r stamp key p)).marked f) := by
  have hs : ¬ (l.state = .ending ∨ l.state = .closed) := by simp [hl]
  have part := Lecture.noticed_part (slot := slot) (stamp := stamp) (key := key) (p := p) he hs
  refine exec_unitNotice_turns (n := placed slot r stamp key p) h (by simp [hl]) hp fun q hq => ?_
  obtain ⟨lead, f, e⟩ := (l.noticed (placed slot r stamp key p)).failedOver_relisted
  rw [e] at hq ⊢
  refine State.resume_files hq hl hm hw ho hc hn stamp key p ?_
  rw [Lecture.relisted_part, part]
  exact he

/-- Settles O35: the composed step, with the failover's choice of the lead and the start that is tried. -/
theorem unitNoticeStartsLecture : Obligations.UnitNoticeStartsLecture := by
  refine ⟨fun s slot r stamp p l h hl hr hp he hw hn => ?_,
    fun s slot r stamp key p l h hl hp he hm hw ho hc hn => ?_⟩
  · subst hr
    have hs : ¬ (l.state = .ending ∨ l.state = .closed) := by simp [hl]
    have part := Lecture.noticed_part (slot := slot) (stamp := stamp) (key := true) (p := p) he hs
    obtain ⟨t, f, ht, turned⟩ := unitNotice_starts (stamp := stamp) (p := p) h hl hp he
    refine ⟨t, _, freshSegment { l.noticed (placed slot l.lead stamp true p) with base := some stamp, state := .running }
      (some stamp) ((PerRole.all RoleRange.fresh).set l.lead (startRange stamp p.start)), ht, turned.record, rfl, rfl,
      ?_, rfl, ?_, hn, rfl, rfl, ?_, PerRole.get_set_same .., rfl, ?_, ?_, turned.others, turned.catalogue⟩
    · show min 65535 (l.nextSegment + 1) = 1
      rw [hn]
      rfl
    · show l.window ++ _ = _
      rw [hw]
      rfl
    · show some (targetStamp stamp stamp (l.segLength * 1000)) = _
      rw [Nat.mul_comm]
    all_goals
      simp only [Lecture.marked_part, Lecture.started, Lecture.opening, Lecture.clearLists, Lecture.mapParts,
        PerRole.get_map, part]
  · have hs : ¬ (l.state = .ending ∨ l.state = .closed) := by simp [hl]
    have part := Lecture.noticed_part (slot := slot) (stamp := stamp) (key := key) (p := p) he hs
    obtain ⟨t, f, ht, turned⟩ := unitNotice_resumes (stamp := stamp) (key := key) (p := p) h hl hp he hm hw ho hc hn
    have takes : (r = l.lead ∨ ∀ q, q ≠ r → l.live q = false) →
        (l.noticed (placed slot r stamp key p)).failedOver.lead = r := fun c =>
      c.elim (Lecture.noticed_keeps_lead hs hp he) (Lecture.noticed_takes_lead hs hp he)
    have leaves : r ≠ l.lead → l.live l.lead = true →
        (l.noticed (placed slot r stamp key p)).failedOver.lead = l.lead :=
      fun hr hlive => Lecture.noticed_leaves_lead (n := placed slot r stamp key p) hr hlive
    obtain ⟨lead, c, e⟩ := (l.noticed (placed slot r stamp key p)).failedOver_relisted
    rw [e] at turned takes leaves
    obtain ⟨number, opened, renditions⟩ := Segment.fileStart_keeps (freshSegment
        ((l.noticed (placed slot r stamp key p)).relisted lead c) none (PerRole.all RoleRange.fresh))
        ((l.noticed (placed slot r stamp key p)).relisted lead c) (placedUnit r stamp key p)
    refine ⟨t, _, (freshSegment ((l.noticed (placed slot r stamp key p)).relisted lead c) none
        (PerRole.all RoleRange.fresh)).fileStart ((l.noticed (placed slot r stamp key p)).relisted lead c)
        (placedUnit r stamp key p), ht, turned.record, rfl, rfl,
      Lecture.resumed_nextSegment _ (placedUnit r stamp key p), Lecture.resumed_base .., ?_, ?_, ?_, number, opened, renditions, fun c => ⟨takes c, fun hk => ?_, fun hk => ?_⟩,
      fun hr hlive => ⟨leaves hr hlive, ?_⟩, turned.others, turned.catalogue⟩
    case refine_4 =>
      subst hk
      rw [freshSegment_fileStart_key stamp p (takes c).symm]
      refine ⟨rfl, rfl, ?_, rfl⟩
      show l.base.map (fun b => targetStamp b stamp (l.segLength * 1000)) = _
      rw [Nat.mul_comm]
    case refine_5 =>
      subst hk
      rw [freshSegment_fileStart_wait stamp p (takes c).symm]
      exact ⟨rfl, rfl, rfl, rfl⟩
    case refine_6 =>
      rw [freshSegment_fileStart_other stamp key p (fun x => hr (x.trans (leaves hr hlive)))]
      exact ⟨rfl, rfl, rfl, rfl⟩
    all_goals
      simp only [Lecture.marked_part, Lecture.resumed, Lecture.opening, Lecture.inState, Lecture.clearLists,
        Lecture.mapParts, PerRole.get_map, Lecture.relisted_part, part]

end Sys2Proof.Machine
end

section
/-! PROOF. Sealing a segment, the admissions that follow it, and the end of the OPEN segment (R38, R39, R43). -/

namespace Sys2Proof.Machine

/-! ## Admission (R43, R44) -/

/-- A segment record that is WORKING where it has been admitted. -/
def Segment.admittedIf (g : Segment) (b : Bool) : Segment := if b then { g with state := .working } else g

theorem Segment.admittedIf_cases (g : Segment) (b : Bool) :
    g.admittedIf b = g ∨ g.admittedIf b = { g with state := .working } := by
  cases b
  · exact .inl rfl
  · exact .inr rfl

@[simp] theorem Segment.admittedIf_number (g : Segment) (b : Bool) : (g.admittedIf b).number = g.number := by
  cases b <;> rfl

@[simp] theorem Segment.admittedIf_twice (g : Segment) (b c : Bool) :
    (g.admittedIf b).admittedIf c = g.admittedIf (b || c) := by
  cases b <;> cases c <;> rfl

/-- A record whose segments with a number that `p` accepts have been admitted. -/
def Lecture.admitted (l : Lecture) (p : Nat → Bool) : Lecture :=
  { l with window := l.window.map (fun g => g.admittedIf (p g.number)) }

theorem Lecture.admitted_none (l : Lecture) : l.admitted (fun _ => false) = l := by
  simp [Lecture.admitted, Segment.admittedIf]

theorem Lecture.admitted_twice (l : Lecture) (p q : Nat → Bool) :
    (l.admitted p).admitted q = l.admitted (fun n => p n || q n) := by
  simp [Lecture.admitted, Function.comp_def]

theorem Lecture.mem_admitted {l : Lecture} {g : Segment} (h : g ∈ l.window) (p : Nat → Bool) :
    g.admittedIf (p g.number) ∈ (l.admitted p).window :=
  List.mem_map.2 ⟨g, h, rfl⟩

/-- From `s` to `t` segments that wait in `s` may have been admitted, and nothing has joined a list; the record of `slot`
is `k` but for its admitted segments. -/
structure State.admits (s t : State) (slot : Nat) (k : Lecture) : Prop where
  record : ∃ p, t.lecture? slot = some (k.admitted p) ∧ ∀ j, p j = true → (slot, j) ∈ s.admissions
  waiting : ∀ e ∈ t.admissions, e ∈ s.admissions

theorem State.admits_refl {s : State} {slot : Nat} {l : Lecture} (h : s.lecture? slot = some l) : s.admits s slot l :=
  ⟨⟨_, h.trans (congrArg some l.admitted_none.symm), fun _ e => nomatch e⟩, fun _ he => he⟩

theorem State.admissions_of_sgc {s t : State} (h : s.sgc = t.sgc) : s.admissions = t.admissions := by
  rw [State.admissions, State.admissions, h]

theorem State.admitSegment_sgc {s : State} {m n : Nat} {l : Lecture} {g : Segment} (h : s.lecture? m = some l)
    (hg : l.segment n = some g) :
    (s.admitSegment m n).sgc = (s.setLecture m (l.modSegment n (fun g => { g with state := .working }))).sgc := by
  simp only [State.admitSegment, h, hg]
  rw [State.settle_sgc, State.createJobs_sgc]

/-- Admitting a segment that its slot does not hold does nothing. -/
theorem State.admitSegment_cases (s : State) (m n : Nat) :
    s.admitSegment m n = s ∨ ∃ l g, s.lecture? m = some l ∧ l.segment n = some g := by
  unfold State.admitSegment
  split
  next => exact .inl rfl
  next l h =>
    split
    next => exact .inl rfl
    next g hg => exact .inr ⟨l, g, h, hg⟩

theorem State.admitSegment_admissions (s : State) (m n : Nat) : (s.admitSegment m n).admissions = s.admissions := by
  rcases s.admitSegment_cases m n with e | ⟨l, g, h, hg⟩
  · rw [e]
  · exact (State.admissions_of_sgc (State.admitSegment_sgc h hg)).trans rfl

theorem State.admitSegment_record {s : State} {slot : Nat} {l : Lecture} (h : s.lecture? slot = some l) (m n : Nat) :
    ∃ p, (s.admitSegment m n).lecture? slot = some (l.admitted p) ∧ ∀ j, p j = true → (slot, j) = (m, n) := by
  have stays : ∀ t : State, t.lecture? slot = some l →
      ∃ p, t.lecture? slot = some (l.admitted p) ∧ ∀ j, p j = true → (slot, j) = (m, n) := fun t ht =>
    ⟨fun _ => false, ht.trans (congrArg some l.admitted_none.symm), fun _ e => nomatch e⟩
  rcases s.admitSegment_cases m n with e | ⟨k, g, hk, hg⟩
  · rw [e]
    exact stays s h
  have admits := State.lecture?_of_sgc (State.admitSegment_sgc hk hg) slot
  by_cases hm : slot = m
  · subst hm
    obtain rfl : k = l := Option.some.inj (hk.symm.trans h)
    refine ⟨fun j => decide (j = n), ?_, fun j hj => by rw [of_decide_eq_true hj]⟩
    rw [admits, State.lecture?_setLecture_same]
    simp [Lecture.modSegment, Lecture.admitted, Segment.admittedIf]
  · refine stays _ ?_
    rw [admits, State.lecture?_setLecture_ne _ _ hm, h]

/-- One round of the admission: the head of a list of `s` leaves it, for `q`, and is admitted. -/
theorem State.admits_step {s q t : State} {slot m n : Nat} {l : Lecture} (h : q.lecture? slot = some l)
    (hm : (m, n) ∈ s.admissions) (hq : ∀ e ∈ q.admissions, e ∈ s.admissions)
    (ht : ∀ k, (q.admitSegment m n).lecture? slot = some k → (q.admitSegment m n).admits t slot k) :
    s.admits t slot l := by
  obtain ⟨p, hp, only⟩ := State.admitSegment_record h m n
  obtain ⟨⟨p', hp', waits⟩, waiting⟩ := ht _ hp
  rw [State.admitSegment_admissions] at waits waiting
  refine ⟨⟨_, hp'.trans (congrArg some (l.admitted_twice p p')), fun j hj => ?_⟩, fun e he => hq e (waiting e he)⟩
  rcases Bool.or_eq_true_iff.1 hj with hj | hj
  · rw [only j hj]
    exact hm
  · exact hq _ (waits j hj)

theorem State.admitLoop_admits {slot : Nat} (fuel : Nat) {s : State} {l : Lecture} (h : s.lecture? slot = some l) :
    s.admits (State.admitLoop fuel s) slot l := by
  induction fuel generalizing s l with
  | zero => exact State.admits_refl h
  | succ fuel ih =>
    unfold State.admitLoop
    split
    next e rest hl =>
      split
      next =>
        refine State.admits_step (q := { s with sgc := { s.sgc with liveAdmission := rest } }) h ?_ (fun e he => ?_)
          (fun k hk => ih hk)
        · exact List.mem_append_left _ (hl ▸ List.mem_cons_self)
        · exact (List.mem_append.1 he).elim (fun h => List.mem_append_left _ (hl ▸ List.mem_cons_of_mem _ h))
            (List.mem_append_right _)
      next => exact State.admits_refl h
    next hl =>
      split
      next e rest hb =>
        split
        next =>
          refine State.admits_step (q := { s with sgc := { s.sgc with backlogAdmission := rest } }) h ?_ (fun e he => ?_)
            (fun k hk => ih hk)
          · exact List.mem_append_right _ (hb ▸ List.mem_cons_self)
          · exact (List.mem_append.1 he).elim (List.mem_append_left _)
              (fun h => List.mem_append_right _ (hb ▸ List.mem_cons_of_mem _ h))
        next => exact State.admits_refl h
      next => exact State.admits_refl h

/-! ## Sealing (R39) -/

/-- A record with the segments of a number sealed. -/
def Lecture.sealing (l : Lecture) (n : Nat) : Lecture := l.modSegment n (fun g => g.fixed l)

theorem State.joinAdmission_admissions (s : State) (c : LectureClass) (slot n : Nat) :
    ∀ e, e ∈ (s.joinAdmission c slot n).admissions → e = (slot, n) ∨ e ∈ s.admissions := by
  intro e he
  cases c <;> simp [State.joinAdmission, State.admissions] at he ⊢ <;> tauto

theorem State.joinAdmission_lecture? (s : State) (c : LectureClass) (slot n m : Nat) :
    (s.joinAdmission c slot n).lecture? m = s.lecture? m := by
  cases c <;> rfl

/-- Sealing fixes the segments of the number; a stretch discard of ALL may move, and segments that wait, with the
sealed one, may be admitted. -/
theorem State.sealSegment_record {s : State} {slot : Nat} {l : Lecture} (h : s.lecture? slot = some l) (n : Nat) :
    ∃ m p, (s.sealSegment slot n).lecture? slot = some (((l.sealing n).stretched m).admitted p)
      ∧ (l.stretch ≠ .all → m = l.stretch) ∧ ∀ j, p j = true → j = n ∨ (slot, j) ∈ s.admissions := by
  have fixes := State.setLecture_turns s slot (l.sealing n)
  obtain ⟨m, moves, off⟩ := State.moveStretch_turns fixes.record
  have moved := fixes.trans moves
  have joined := (State.joinAdmission_lecture? ((s.setLecture slot (l.sealing n)).moveStretch slot) l.cls slot n
    slot).trans moved.record
  obtain ⟨⟨p, hp, waits⟩, _⟩ := State.admitLoop_admits (_ + _) joined
  refine ⟨m, p, ?_, off, fun j hj => ?_⟩
  · simp only [State.sealSegment, h]
    exact hp
  · refine (State.joinAdmission_admissions _ _ _ _ _ (waits j hj)).imp (fun e => (Prod.mk.inj e).2) fun e => ?_
    rw [← moved.admissions]
    exact e

/-- Segments that are not of the number, and wait in no list, stand after a sealing as they stood. -/
theorem Lecture.sealing_keeps {l : Lecture} {d : Segment} {n : Nat} {m : Stretch} {p : Nat → Bool} (h : d ∈ l.window)
    (hn : d.number ≠ n) (hp : p d.number = false) : d ∈ (((l.sealing n).stretched m).admitted p).window := by
  have hd : d ∈ ((l.sealing n).stretched m).window := List.mem_map.2 ⟨d, h, if_neg hn⟩
  have ha := Lecture.mem_admitted hd p
  rwa [hp] at ha

/-- A segment of the number is fixed by a sealing, and may be admitted. -/
theorem Lecture.sealing_fixes {l : Lecture} {d : Segment} {n : Nat} (m : Stretch) (p : Nat → Bool) (h : d ∈ l.window)
    (hn : d.number = n) : (d.fixed l).admittedIf (p n) ∈ (((l.sealing n).stretched m).admitted p).window := by
  have hd : d.fixed l ∈ ((l.sealing n).stretched m).window := List.mem_map.2 ⟨d, h, if_pos hn⟩
  have ha := Lecture.mem_admitted hd p
  rwa [show (d.fixed l).number = n from hn] at ha

/-! ## What sealing fixes (R39) -/

theorem Segment.fixed_range (g : Segment) {l : Lecture} {r : Role} (h : (l.parts.get r).present = true) :
    (g.fixed l).ranges.get r = { g.ranges.get r with status := (g.ranges.get r).sealStatus } := by
  rw [Segment.fixed, PerRole.get_map, if_pos h]

theorem Segment.fixed_range_endStamp (g : Segment) (l : Lecture) (r : Role) :
    ((g.fixed l).ranges.get r).endStamp = (g.ranges.get r).endStamp := by
  rw [Segment.fixed, PerRole.get_map]
  split <;> rfl

theorem Segment.fixed_endStamp_cut {g : Segment} {b : Stamp} (h : g.cutStamp = some b) (l : Lecture) :
    (g.fixed l).endStamp = some b := by
  simp only [Segment.fixed, Segment.sealEnd, h]

theorem Segment.fixed_endStamp_uncut {g : Segment} (h : g.cutStamp = none) (l : Lecture) :
    (g.fixed l).endStamp
      = l.roles.foldl (fun a r => laterOf a ((g.fixed l).ranges.get r).endStamp) none := by
  simp only [Segment.fixed_range_endStamp]
  simp only [Segment.fixed, Segment.sealEnd, h]

theorem Segment.fixed_duration (g : Segment) (l : Lecture) :
    (g.fixed l).duration = sealDuration g.leadStart (g.fixed l).endStamp l.segMs := rfl

theorem Segment.fixed_chunkCount (g : Segment) (l : Lecture) :
    (g.fixed l).chunkCount = max 1 (((g.fixed l).duration + 999) / 1000) := rfl

theorem sealDuration_none {lead last : Option Stamp} (h : lead = none ∨ last = none) (ms : Nat) :
    sealDuration lead last ms = 0 := by
  rcases h with rfl | rfl
  · rfl
  · cases lead <;> rfl

/-- Present roles are the same where each part's presence is. -/
theorem Lecture.roles_of_present {l k : Lecture} (h : ∀ r, (k.parts.get r).present = (l.parts.get r).present) :
    k.roles = l.roles := by
  simp only [Lecture.roles, h]

/-! ## The end of the OPEN segment (R38) -/

/-- A segment with every present role ended at its current end. -/
def Lecture.endsRoles (l : Lecture) (g : Segment) : Segment :=
  { g with ranges := g.ranges.map (fun r x =>
      if (l.parts.get r).present then x.endAt (l.parts.get r).noticedEnd else x) }

theorem Lecture.endsRoles_range {l : Lecture} (g : Segment) {r : Role} (h : (l.parts.get r).present = true) :
    (l.endsRoles g).ranges.get r = (g.ranges.get r).endAt (l.parts.get r).noticedEnd := by
  rw [Lecture.endsRoles, PerRole.get_map, if_pos h]

/-- The record whose OPEN segment has its roles ended, and whose cuts have been cleared (R38 steps 1 and 3). -/
def Lecture.openEnded (l : Lecture) (g : Segment) : Lecture :=
  { (l.modSegment g.number (fun _ => l.endsRoles g)).clearLists with forcedCut := false, stretch := .off }

theorem Lecture.openEnded_part (l : Lecture) (g : Segment) (r : Role) :
    (l.openEnded g).parts.get r = { l.parts.get r with candidates := [] } :=
  PerRole.get_map ..

theorem Lecture.openEnded_roles (l : Lecture) (g : Segment) : (l.openEnded g).roles = l.roles :=
  Lecture.roles_of_present fun r => by rw [Lecture.openEnded_part]

/-- The record once its OPEN segment has been ended and sealed, but for admissions. -/
def Lecture.openSealed (l : Lecture) (g : Segment) : Lecture := (l.openEnded g).sealing g.number

theorem Lecture.openSealed_part (l : Lecture) (g : Segment) (p : Nat → Bool) (r : Role) :
    ((l.openSealed g).admitted p).parts.get r = { l.parts.get r with candidates := [] } :=
  l.openEnded_part g r

theorem Lecture.openSealed_state (l : Lecture) (g : Segment) (p : Nat → Bool) :
    ((l.openSealed g).admitted p).state = l.state := by
  rw [Lecture.admitted, Lecture.openSealed, Lecture.sealing, Lecture.modSegment, Lecture.openEnded]
  rfl

theorem Lecture.openSealed_lead (l : Lecture) (g : Segment) (p : Nat → Bool) :
    ((l.openSealed g).admitted p).lead = l.lead := by
  rw [Lecture.admitted, Lecture.openSealed, Lecture.sealing, Lecture.modSegment, Lecture.openEnded]
  rfl

theorem State.endOpen_none {s : State} {slot : Nat} {l : Lecture} (h : s.lecture? slot = some l)
    (hg : l.openSegment = none) : s.endOpen slot = s := by
  simp only [State.endOpen, h, hg]

theorem State.endOpen_record {s : State} {slot : Nat} {l : Lecture} (h : s.lecture? slot = some l) {g : Segment}
    (hg : l.openSegment = some g) :
    ∃ p, (s.endOpen slot).lecture? slot = some ((l.openSealed g).admitted p)
      ∧ ∀ j, p j = true → j = g.number ∨ (slot, j) ∈ s.admissions := by
  have ends := State.setLecture_turns s slot
    { (l.modSegment g.number (fun _ => l.endsRoles g)).clearLists with forcedCut := false }
  have ended : s.turns (State.endStretch _ slot) slot (l.openEnded g) :=
    ends.trans (State.endStretch_turns ends.record)
  obtain ⟨m, p, hp, off, waits⟩ := State.sealSegment_record ended.record g.number
  have hm : m = Stretch.off := off (by exact Stretch.noConfusion)
  subst hm
  rw [ended.admissions] at waits
  refine ⟨p, ?_, waits⟩
  simp only [State.endOpen, h, hg]
  exact hp

theorem Lecture.openSealed_cutCleared (l : Lecture) (g : Segment) (p : Nat → Bool) :
    ((l.openSealed g).admitted p).cutCleared :=
  ⟨rfl, fun r => congrArg RolePart.candidates (l.openEnded_part g r), rfl⟩

/-- Every segment keeps its number, of those that stand in an ended and sealed record. -/
theorem Lecture.openSealed_numbers (l : Lecture) (g : Segment) (p : Nat → Bool) :
    ((l.openSealed g).admitted p).window.map Segment.number = l.window.map Segment.number := by
  simp only [Lecture.admitted, Lecture.openSealed, Lecture.sealing, Lecture.openEnded, Lecture.clearLists,
    Lecture.mapParts, Lecture.modSegment, List.map_map]
  refine List.map_congr_left fun d _ => ?_
  by_cases hd : d.number = g.number <;> simp [hd, Lecture.endsRoles, Segment.fixed]

theorem RoleRange.endAt_unstarted {x : RoleRange} (h : x.startOffset = none) (stop : Nat) :
    x.endAt stop = { x with
      startOffset := some stop, startStamp := none, endOffset := some stop, endStamp := none, cut := .ended } := by
  simp only [RoleRange.endAt, h]

theorem RoleRange.endAt_started {x : RoleRange} {a : Nat} (h : x.startOffset = some a) (stop : Nat) :
    x.endAt stop = { x with endOffset := some stop, endStamp := x.lastUnit, cut := .ended } := by
  simp only [RoleRange.endAt, h]

/-- A role range taken to its current end (R24). -/
theorem RoleRange.endAt_takesEnd (x : RoleRange) (stop : Nat) : x.takesEnd (x.endAt stop) stop := by
  cases hx : x.startOffset with
  | none =>
    rw [RoleRange.endAt_unstarted hx]
    exact ⟨rfl, rfl, fun _ h => absurd (hx.symm.trans h) nofun, fun _ => ⟨rfl, rfl, rfl⟩⟩
  | some a =>
    rw [RoleRange.endAt_started hx]
    exact ⟨rfl, rfl, fun _ h => ⟨h, rfl, rfl⟩, fun h => absurd (hx.symm.trans h) nofun⟩

theorem RoleRange.endAt_skewEnded (x : RoleRange) (stop : Nat) : (x.endAt stop).skewEnded = x.skewEnded := by
  unfold RoleRange.endAt
  split <;> rfl

theorem RoleRange.endAt_empty_iff (x : RoleRange) (stop : Nat) :
    (x.endAt stop).startOffset = (x.endAt stop).endOffset ↔ x.startOffset = none ∨ x.startOffset = some stop := by
  cases hx : x.startOffset with
  | none => simp [RoleRange.endAt_unstarted hx]
  | some a => simp [RoleRange.endAt_started hx, hx]

theorem RoleRange.endAt_endsAt {x : RoleRange} (h : x.skewEnded = false) (stop : Nat) :
    x.endsAt { x.endAt stop with status := (x.endAt stop).sealStatus } stop := by
  refine ⟨x.endAt_takesEnd stop, ?_⟩
  simp only [RoleRange.sealStatus, RoleRange.endAt_skewEnded, h, RoleRange.endAt_empty_iff, Bool.false_eq_true, if_false]

/-- What serves a sealed segment does not depend on whether it has been admitted. -/
theorem Lecture.sealsOpen_admittedIf {l : Lecture} {g h : Segment} (H : l.sealsOpen g h) (b : Bool) :
    l.sealsOpen g (h.admittedIf b) := by
  rcases h.admittedIf_cases b with e | e
  · rw [e]
    exact H
  · rw [e]
    obtain ⟨hn, _, rest⟩ := H
    exact ⟨hn, .inr rfl, rest⟩

/-- The OPEN segment as it is ended and sealed (R38, R39). -/
theorem Lecture.fixed_sealsOpen (l : Lecture) {g : Segment} (hc : g.cutStamp = none)
    (hs : ∀ q, (g.ranges.get q).skewEnded = false) : l.sealsOpen g ((l.endsRoles g).fixed (l.openEnded g)) := by
  refine ⟨rfl, .inl rfl, fun q hq => ?_, ?_, fun h => ?_, fun a e ha he => ?_, rfl⟩
  · have hp := Lecture.mem_roles.1 hq
    rw [Segment.fixed_range _ (by rw [Lecture.openEnded_part]; exact hp), Lecture.endsRoles_range g hp]
    exact RoleRange.endAt_endsAt (hs q) _
  · rw [Segment.fixed_endStamp_uncut (g := l.endsRoles g) hc, Lecture.openEnded_roles]
  · exact sealDuration_none h _
  · rw [Segment.fixed_duration, show (l.endsRoles g).leadStart = some a from ha, he]
    rfl

theorem Lecture.openSealed_sealsOpen {l : Lecture} {g : Segment} (hg : g ∈ l.window) (p : Nat → Bool)
    (hc : g.cutStamp = none) (hs : ∀ q, (g.ranges.get q).skewEnded = false) :
    ∃ h ∈ ((l.openSealed g).admitted p).window, l.sealsOpen g h := by
  have hm : l.endsRoles g ∈ (l.openEnded g).window := List.mem_map.2 ⟨g, hg, if_pos rfl⟩
  exact ⟨_, Lecture.sealing_fixes .off p hm rfl, Lecture.sealsOpen_admittedIf (l.fixed_sealsOpen hc hs) _⟩

/-- A segment of another number than the OPEN one's, which waits in no list, stands as it stood. -/
theorem Lecture.openSealed_keeps {l : Lecture} {g d : Segment} {p : Nat → Bool} (h : d ∈ l.window)
    (hn : d.number ≠ g.number) (hp : p d.number = false) : d ∈ ((l.openSealed g).admitted p).window := by
  have hm : d ∈ (l.openEnded g).window := List.mem_map.2 ⟨d, h, if_neg hn⟩
  exact Lecture.sealing_keeps (m := .off) hm hn hp

end Sys2Proof.Machine
end

section
/-! PROOF. The gap timers of the roles and the skew timer of the CUTTING segment (O34). -/

namespace Sys2Proof.Machine

/-! ## Fields that the changes of a record leave alone -/

@[simp] theorem Lecture.marked_window (l : Lecture) (f : Role → Nat) : (l.marked f).window = l.window := rfl
@[simp] theorem Lecture.marked_state (l : Lecture) (f : Role → Nat) : (l.marked f).state = l.state := rfl
@[simp] theorem Lecture.marked_lead (l : Lecture) (f : Role → Nat) : (l.marked f).lead = l.lead := rfl

theorem Lecture.marked_cutCleared {l : Lecture} (h : l.cutCleared) (f : Role → Nat) : (l.marked f).cutCleared :=
  ⟨h.1, fun q => (congrArg RolePart.candidates (l.marked_part f q)).trans (h.2.1 q), h.2.2⟩

/-- Two records agree in what the end of a segment takes from them. -/
structure Lecture.alike (l k : Lecture) : Prop where
  present : ∀ q, (k.parts.get q).present = (l.parts.get q).present
  noticed : ∀ q, (k.parts.get q).noticedEnd = (l.parts.get q).noticedEnd
  length : k.segLength = l.segLength

theorem Lecture.alike.roles {l k : Lecture} (h : l.alike k) : k.roles = l.roles := Lecture.roles_of_present h.present

theorem Lecture.alike.trans {l k j : Lecture} (h : l.alike k) (h' : k.alike j) : l.alike j :=
  ⟨fun q => (h'.present q).trans (h.present q), fun q => (h'.noticed q).trans (h.noticed q), h'.length.trans h.length⟩

theorem Lecture.alike.sealsOpen {l k : Lecture} (H : l.alike k) {g h : Segment} (hs : k.sealsOpen g h) :
    l.sealsOpen g h := by
  obtain ⟨hn, hst, hr, he, h0, hd, hc⟩ := hs
  rw [H.roles] at hr he
  rw [H.length] at hd
  exact ⟨hn, hst, fun q hq => H.noticed q ▸ hr q hq, he, h0, hd, hc⟩

/-! ## The failover that a role's silence or end brings (R8, R34) -/

/-- Reading the ranked roles for a live one, with one role no longer live. -/
theorem ranked_find_without {l k : Lecture} {r : Role} (hr : k.live r = false) (hq : ∀ q, q ≠ r → k.live q = l.live q) :
    rankedRoles.find? k.live = [Role.camera, .screen, .voice].find? (fun p => p != r && l.live p) := by
  have e : k.live = fun p => p != r && l.live p := by
    funext p
    by_cases hp : p = r
    · subst hp
      rw [hr, bne_self_eq_false, Bool.false_and]
    · rw [hq p hp, bne_iff_ne.2 hp, Bool.true_and]
  rw [e]
  rfl

theorem ranked_find_none {f : Role → Bool} (h : ∀ q, f q = false) : rankedRoles.find? f = none := by
  simp [rankedRoles, h]

theorem Lecture.failedOver_state (l : Lecture) : l.failedOver.state = l.state := by
  obtain ⟨_, _, e⟩ := l.failedOver_relisted
  rw [e]
  rfl

theorem Lecture.failedOver_window (l : Lecture) : l.failedOver.window = l.window := by
  obtain ⟨_, _, e⟩ := l.failedOver_relisted
  rw [e]
  rfl

/-- A failover leaves the parts of the roles but their candidate lists. -/
theorem Lecture.failedOver_part (l : Lecture) (r : Role) :
    ∃ c, l.failedOver.parts.get r = { l.parts.get r with candidates := c } := by
  obtain ⟨_, f, e⟩ := l.failedOver_relisted
  rw [e]
  exact ⟨f r, l.relisted_part ..⟩

theorem Lecture.failedOver_alike (l : Lecture) : l.alike l.failedOver := by
  obtain ⟨_, _, e⟩ := l.failedOver_relisted
  rw [e]
  exact ⟨fun q => by rw [Lecture.relisted_part], fun q => by rw [Lecture.relisted_part], rfl⟩

theorem Lecture.ledBy_part (l : Lecture) (r q : Role) :
    (l.ledBy r).parts.get q = { l.parts.get q with candidates := [] } :=
  PerRole.get_map ..

theorem State.failover_of_some {s : State} {slot : Nat} {l : Lecture} {r : Role} (h : s.lecture? slot = some l)
    (hs : ¬ (l.state = .ending ∨ l.state = .closed)) (hl : l.live l.lead = false)
    (hf : rankedRoles.find? l.live = some r) :
    s.failover slot = (if l.stretch = .keyOnly then (s.setLecture slot (l.ledBy r)).setStretch slot .keyOnly
      else s.setLecture slot (l.ledBy r)).lectureEvent slot := by
  have hc : ¬ ((l.state = .ending ∨ l.state = .closed) ∨ l.live l.lead = true) := fun c =>
    c.elim hs (fun e => by rw [hl] at e; cases e)
  simp only [State.failover, h, if_neg hc, hf]
  rfl

/-- A failover queues a LECTURE event, tells the IKU the new lead in KEY_ONLY, and leaves the store. -/
theorem State.failover_tells {s : State} {slot : Nat} {l : Lecture} {r : Role} (h : s.lecture? slot = some l)
    (hs : ¬ (l.state = .ending ∨ l.state = .closed)) (hl : l.live l.lead = false)
    (hf : rankedRoles.find? l.live = some r) :
    (∃ e ∈ (s.failover slot).ccu.events, e.object = .lecture slot)
      ∧ (l.stretch = .keyOnly → (s.failover slot).discard slot = .keyOnly r false)
      ∧ (s.failover slot).stc = s.stc := by
  have led : (s.setLecture slot (l.ledBy r)).lecture? slot = some (l.ledBy r) := State.lecture?_setLecture_same ..
  rw [State.failover_of_some h hs hl hf]
  refine ⟨?_, fun hk => ?_, ?_⟩
  · obtain ⟨e, he, ho, _⟩ := putEvent_mem _ _ _ _
    exact ⟨e, he, ho⟩
  · rw [if_pos hk, State.setStretch_eq led]
    exact State.discard_setDiscard_same ..
  · split
    next => rw [State.setStretch_eq led]; rfl
    next => rfl

/-! ## A gap timer that runs out (R7, R12) -/

/-- The record once a role's gap timer has run out. -/
def Lecture.gapExpired (l : Lecture) (r : Role) : Lecture :=
  l.modPart r (fun p => { p with silent := true, gapRunning := false, gapLeft := 0 })

theorem Lecture.gapExpired_part (l : Lecture) (r : Role) :
    (l.gapExpired r).parts.get r = { l.parts.get r with silent := true, gapRunning := false, gapLeft := 0 } :=
  PerRole.get_set_same ..

theorem Lecture.gapExpired_part_ne (l : Lecture) {r q : Role} (h : q ≠ r) :
    (l.gapExpired r).parts.get q = l.parts.get q :=
  PerRole.get_set_ne _ _ h

theorem Lecture.gapExpired_live (l : Lecture) (r : Role) : (l.gapExpired r).live r = false := by
  simp [Lecture.live, Lecture.gapExpired_part]

theorem Lecture.gapExpired_live_ne (l : Lecture) {r q : Role} (h : q ≠ r) : (l.gapExpired r).live q = l.live q :=
  Lecture.live_of_part (l.gapExpired_part_ne h)

theorem Lecture.gapExpired_alike (l : Lecture) (r : Role) : l.alike (l.gapExpired r) := by
  have part : ∀ q, ((l.gapExpired r).parts.get q).present = (l.parts.get q).present
      ∧ ((l.gapExpired r).parts.get q).noticedEnd = (l.parts.get q).noticedEnd := fun q => by
    by_cases hq : q = r
    · subst hq
      rw [Lecture.gapExpired_part]
      exact ⟨rfl, rfl⟩
    · rw [Lecture.gapExpired_part_ne _ hq]
      exact ⟨rfl, rfl⟩
  exact ⟨fun q => (part q).1, fun q => (part q).2, rfl⟩

/-- Whether the lecture stalls when a role's gap timer runs out: it runs, no role is live, and one has not ended (R12). -/
def Lecture.stallsAt (l : Lecture) (r : Role) : Prop :=
  l.state = .running ∧ (∀ q, (l.gapExpired r).live q = false) ∧ ∃ q ∈ l.roles, (l.parts.get q).ended = false

theorem Lecture.gapExpired_ended (l : Lecture) (r q : Role) :
    ((l.gapExpired r).parts.get q).ended = (l.parts.get q).ended := by
  by_cases hq : q = r
  · subst hq
    rw [Lecture.gapExpired_part]
  · rw [Lecture.gapExpired_part_ne _ hq]

/-- A live role is present. -/
theorem Lecture.mem_roles_of_live {l : Lecture} {r : Role} (h : l.live r = true) : r ∈ l.roles := by
  simp only [Lecture.live, Bool.and_eq_true] at h
  exact Lecture.mem_roles.2 h.1.1

/-- The test that `State.gapExpire` makes. -/
theorem Lecture.stallsAt_iff (l : Lecture) (r : Role) :
    l.stallsAt r ↔ l.state = .running ∧ (!l.roles.any (l.gapExpired r).live
      && l.roles.any (fun q => !((l.gapExpired r).parts.get q).ended)) = true := by
  have live : (∀ q, (l.gapExpired r).live q = false) ↔ l.roles.any (l.gapExpired r).live = false := by
    rw [List.any_eq_false]
    refine ⟨fun h q _ => ne_true_of_eq_false (h q), fun h q => ?_⟩
    by_cases hq : (l.gapExpired r).live q = true
    · have hm := Lecture.mem_roles_of_live hq
      rw [(l.gapExpired_alike r).roles] at hm
      exact absurd hq (h q hm)
    · exact eq_false_of_ne_true hq
  have ended : (∃ q ∈ l.roles, (l.parts.get q).ended = false)
      ↔ l.roles.any (fun q => !((l.gapExpired r).parts.get q).ended) = true := by
    simp [Lecture.gapExpired_ended]
  rw [Lecture.stallsAt, live, ended, Bool.and_eq_true, Bool.not_eq_true']

/-- What `State.gapExpire` does with a running timer. -/
theorem State.gapExpire_eq {s : State} {slot : Nat} {r : Role} {l : Lecture} (h : s.lecture? slot = some l)
    (hg : (l.parts.get r).gapRunning = true) [Decidable (l.stallsAt r)] :
    s.gapExpire slot r = if l.stallsAt r
      then (((s.setLecture slot (l.gapExpired r)).failover slot).stall slot).presentMarks slot
      else (s.setLecture slot (l.gapExpired r)).failover slot := by
  have hg' : ¬ (l.parts.get r).gapRunning = false := ne_false_of_eq_true hg
  simp only [State.gapExpire, h, if_neg hg', Lecture.stallsAt_iff]
  rfl

/-- A stall ends and seals the OPEN segment, where there is one (R12). -/
theorem State.stall_record {s : State} {slot : Nat} {l : Lecture} (h : s.lecture? slot = some l) :
    ∃ k, (s.stall slot).lecture? slot = some k ∧ k.state = .stalled ∧ k.lead = l.lead
      ∧ (∀ q, ∃ c, k.parts.get q = { l.parts.get q with candidates := c })
      ∧ ∀ g, l.openSegment = some g → k.cutCleared
          ∧ (g.cutStamp = none → (∀ q, (g.ranges.get q).skewEnded = false) → ∃ h ∈ k.window, l.sealsOpen g h) := by
  have stalls := State.modLecture_turns h (fun l => { l with state := .stalled })
  have stalled : (s.modLecture slot (fun l => { l with state := .stalled })).lecture? slot
      = some (l.inState .stalled) := stalls.record
  have queued : ∀ t : State, (t.lectureEvent slot).lecture? slot = t.lecture? slot := fun _ => rfl
  rw [State.stall, queued]
  cases hg : l.openSegment with
  | none =>
    rw [State.endOpen_none stalled hg]
    exact ⟨_, stalled, rfl, rfl, fun q => ⟨(l.parts.get q).candidates, rfl⟩, fun _ hd => by cases hd⟩
  | some g =>
    obtain ⟨p, hp, _⟩ := State.endOpen_record stalled hg
    refine ⟨_, hp, Lecture.openSealed_state (l.inState .stalled) g p, Lecture.openSealed_lead (l.inState .stalled) g p,
      fun q => ⟨[], Lecture.openSealed_part (l.inState .stalled) g p q⟩,
      fun d hd => ⟨Lecture.openSealed_cutCleared .., fun hc hs => ?_⟩⟩
    obtain rfl : g = d := Option.some.inj hd
    have alike : l.alike (l.inState .stalled) := ⟨fun _ => rfl, fun _ => rfl, rfl⟩
    have mem : g ∈ (l.inState .stalled).window := Lecture.openSegment_mem hg
    obtain ⟨d, hd, seals⟩ := Lecture.openSealed_sealsOpen mem p hc hs
    exact ⟨d, hd, alike.sealsOpen seals⟩

/-- A gap timer that does not stall the lecture: the role is silent, and a failover may follow. -/
theorem State.gapExpiry_runs {s : State} {slot : Nat} {r : Role} {l : Lecture} (h : s.lecture? slot = some l)
    (hg : (l.parts.get r).gapRunning = true) (hs : ¬ l.stallsAt r) :
    exec (.gapTimerExpiry slot r) s = .next ((s.setLecture slot (l.gapExpired r)).failover slot).serveClaims
      ∧ (((s.setLecture slot (l.gapExpired r)).failover slot).serveClaims).lecture? slot
          = some (l.gapExpired r).failedOver := by
  classical
  have set := State.setLecture_turns s slot (l.gapExpired r)
  refine ⟨?_, ((State.failover_turns set.record).of_sgc (State.serveClaims_sgc _)).record⟩
  show Host.Outcome.next (s.gapExpire slot r).serveClaims = _
  rw [State.gapExpire_eq h hg, if_neg hs]

/-- A gap timer that stalls the lecture. -/
theorem State.gapExpiry_stalls {s : State} {slot : Nat} {r : Role} {l : Lecture} (h : s.lecture? slot = some l)
    (hg : (l.parts.get r).gapRunning = true) (hs : l.stallsAt r) :
    ∃ t k, exec (.gapTimerExpiry slot r) s = .next t ∧ t.lecture? slot = some k ∧ k.state = .stalled
      ∧ k.lead = l.lead
      ∧ (∀ q, ∃ c m, k.parts.get q = { (l.gapExpired r).parts.get q with candidates := c, lowMark := m })
      ∧ ∀ g, l.openSegment = some g → k.cutCleared
          ∧ (g.cutStamp = none → (∀ q, (g.ranges.get q).skewEnded = false) → ∃ h ∈ k.window, l.sealsOpen g h) := by
  classical
  have set := State.setLecture_turns s slot (l.gapExpired r)
  have led := State.failover_turns set.record
  rw [Lecture.failedOver_of_none (ranked_find_none hs.2.1)] at led
  obtain ⟨k, stalled, hst, hlead, hparts, hopen⟩ := State.stall_record led.record
  obtain ⟨f, marks⟩ := State.presentMarks_turns stalled
  refine ⟨_, k.marked f, ?_, (marks.of_sgc (State.serveClaims_sgc _)).record, hst, hlead, fun q => ?_, fun g hg => ?_⟩
  · show Host.Outcome.next (s.gapExpire slot r).serveClaims = _
    rw [State.gapExpire_eq h hg, if_pos hs]
  · obtain ⟨c, hc⟩ := hparts q
    exact ⟨c, f q, by rw [Lecture.marked_part, hc]⟩
  · obtain ⟨cleared, seals⟩ := hopen g hg
    refine ⟨Lecture.marked_cutCleared cleared f, fun hc hsk => ?_⟩
    obtain ⟨d, hd, hseal⟩ := seals hc hsk
    exact ⟨d, hd, (l.gapExpired_alike r).sealsOpen hseal⟩

/-! ## The skew timer (R36) -/

/-- Whether a role is late in the CUTTING segment: present and still PENDING in it. -/
def Lecture.late (l : Lecture) (g : Segment) (r : Role) : Bool :=
  (l.parts.get r).present && (g.ranges.get r).cut == .pending

/-- The CUTTING segment with its late roles ended. -/
def Lecture.skewed (l : Lecture) (g : Segment) : Segment :=
  { g with ranges := g.ranges.map (fun r x => if l.late g r then x.skewEnd (l.parts.get r).noticedEnd else x) }

/-- The record with the late roles of its CUTTING segment ended there, B their floor stamp. -/
def Lecture.floored (l : Lecture) (g : Segment) : Lecture :=
  { l.modSegment g.number (fun _ => l.skewed g) with
    parts := l.parts.map (fun r p => if l.late g r then { p with floorStamp := g.cutStamp } else p) }

theorem Lecture.floored_part (l : Lecture) (g : Segment) (r : Role) :
    (l.floored g).parts.get r
      = if l.late g r then { l.parts.get r with floorStamp := g.cutStamp } else l.parts.get r :=
  PerRole.get_map ..

theorem Lecture.floored_part_present (l : Lecture) (g : Segment) (r : Role) :
    ((l.floored g).parts.get r).present = (l.parts.get r).present := by
  rw [Lecture.floored_part]
  split <;> rfl

theorem Lecture.floored_state (l : Lecture) (g : Segment) (n : Nat) (m : Stretch) (p : Nat → Bool) (f : Role → Nat) :
    (((((l.floored g).sealing n).stretched m).admitted p).marked f).state = l.state := by
  rw [Lecture.marked, Lecture.admitted, Lecture.stretched, Lecture.sealing, Lecture.modSegment, Lecture.floored]
  rfl

theorem State.skewExpire_record {s : State} {slot : Nat} {l : Lecture} {g : Segment} (h : s.lecture? slot = some l)
    (hg : l.cuttingSegment = some g) (hr : g.skewRunning = true) :
    ∃ m p f, (s.skewExpire slot).lecture? slot
      = some (((((l.floored g).sealing g.number).stretched m).admitted p).marked f) := by
  have hr' : ¬ g.skewRunning = false := ne_false_of_eq_true hr
  have floors := State.setLecture_turns s slot (l.floored g)
  obtain ⟨m, p, hp, _⟩ := State.sealSegment_record floors.record g.number
  obtain ⟨f, marks⟩ := State.presentMarks_turns hp
  refine ⟨m, p, f, ?_⟩
  simp only [State.skewExpire, h, hg, if_neg hr']
  exact marks.record

/-- The sealed range of a role that the skew timer ends (R36, R39). -/
theorem Lecture.skewed_range_pending {l : Lecture} {g : Segment} {q : Role} (hq : (l.parts.get q).present = true)
    (hc : (g.ranges.get q).cut = .pending) :
    (l.skewed g).ranges.get q = { (g.ranges.get q).endAt (l.parts.get q).noticedEnd with skewEnded := true } := by
  rw [Lecture.skewed, PerRole.get_map, if_pos (by simp [Lecture.late, hq, hc]), RoleRange.skewEnd, if_pos hc]

theorem Lecture.skewed_range_settled {l : Lecture} {g : Segment} {q : Role} (hc : (g.ranges.get q).cut ≠ .pending) :
    (l.skewed g).ranges.get q = g.ranges.get q := by
  rw [Lecture.skewed, PerRole.get_map, if_neg (by simp [Lecture.late, hc])]

/-- A segment's admission changes its state alone. -/
theorem Segment.admittedIf_keeps (g : Segment) (b : Bool) : (g.admittedIf b).ranges = g.ranges
    ∧ (g.admittedIf b).endStamp = g.endStamp ∧ (g.admittedIf b).duration = g.duration
    ∧ (g.admittedIf b).chunkCount = g.chunkCount := by
  cases b <;> exact ⟨rfl, rfl, rfl, rfl⟩

theorem Segment.admittedIf_sealed {g : Segment} (h : g.state = .sealed) (b : Bool) :
    (g.admittedIf b).state = .sealed ∨ (g.admittedIf b).state = .working := by
  cases b
  · exact .inl h
  · exact .inr rfl

theorem RoleRange.sealStatus_unskewed {x : RoleRange} (h : x.skewEnded = false) :
    x.sealStatus = if x.startOffset = x.endOffset then .empty else .normal := by
  simp [RoleRange.sealStatus, h]

theorem RoleRange.skewEnd_sealed {x : RoleRange} (stop : Nat) :
    let y := { x.endAt stop with skewEnded := true }
    let z := { y with status := y.sealStatus }
    z.cut = .ended ∧ z.endOffset = some stop
      ∧ (∀ start, x.startOffset = some start → z.startOffset = some start ∧ z.endStamp = x.lastUnit
          ∧ z.status = (if start = stop then .empty else .short))
      ∧ (x.startOffset = none → z.startOffset = some stop ∧ z.endStamp = none ∧ z.status = .empty) := by
  cases hx : x.startOffset with
  | none =>
    rw [RoleRange.endAt_unstarted hx]
    exact ⟨rfl, rfl, fun _ h => absurd h nofun, fun _ => ⟨rfl, rfl, if_pos rfl⟩⟩
  | some a =>
    rw [RoleRange.endAt_started hx]
    refine ⟨rfl, rfl, fun start h => ?_, fun h => absurd h nofun⟩
    obtain rfl : a = start := Option.some.inj h
    exact ⟨hx, rfl, by simp [RoleRange.sealStatus, hx]⟩

/-! ## The statement -/

theorem gapTimer_runs {s : State} {slot : Nat} {r : Role} {l : Lecture} (h : s.lecture? slot = some l)
    (hg : (l.parts.get r).gapRunning = true) (hs : ¬ l.stallsAt r) :
    ∃ t, exec (.gapTimerExpiry slot r) s = .next t ∧ t.lecture? slot = some (l.gapExpired r).failedOver
      ∧ ∀ q, ¬ (l.state = .ending ∨ l.state = .closed) → r = l.lead →
          [Role.camera, .screen, .voice].find? (fun p => p != r && l.live p) = some q →
          (l.gapExpired r).failedOver = (l.gapExpired r).ledBy q
            ∧ (s.atRest → (∃ e ∈ t.ccu.events, e.object = .lecture slot)
                ∧ (l.stretch = .keyOnly → t.discard slot = .keyOnly q false)) := by
  obtain ⟨ht, record⟩ := State.gapExpiry_runs h hg hs
  refine ⟨_, ht, record, fun q hst hr hq => ?_⟩
  rw [← ranked_find_without (l.gapExpired_live r) (fun q hq => l.gapExpired_live_ne hq)] at hq
  have silent : (l.gapExpired r).live (l.gapExpired r).lead = false := by
    rw [show (l.gapExpired r).lead = r from hr.symm]
    exact l.gapExpired_live r
  have set := State.setLecture_turns s slot (l.gapExpired r)
  obtain ⟨event, told, stc⟩ := State.failover_tells set.record hst silent hq
  refine ⟨Lecture.failedOver_of_some (l := l.gapExpired r) hst silent hq, fun rest => ?_⟩
  rw [State.serveClaims_nil (State.atRest_of_waits (congrArg (fun c => (c.claims, c.relocations)) stc) rest)]
  exact ⟨event, told⟩

/-- What a gap timer that runs out leaves of the parts of the roles. -/
theorem Lecture.gapExpired_flags {l k : Lecture} {r : Role}
    (h : ∀ q, ∃ c m, k.parts.get q = { (l.gapExpired r).parts.get q with candidates := c, lowMark := m }) :
    (k.parts.get r).silent = true ∧ (k.parts.get r).gapRunning = false
      ∧ ∀ q, q ≠ r → (k.parts.get q).silent = (l.parts.get q).silent
          ∧ (k.parts.get q).ended = (l.parts.get q).ended := by
  have own := h r
  rw [Lecture.gapExpired_part] at own
  obtain ⟨_, _, e⟩ := own
  rw [e]
  refine ⟨rfl, rfl, fun q hq => ?_⟩
  have other := h q
  rw [Lecture.gapExpired_part_ne _ hq] at other
  obtain ⟨_, _, e⟩ := other
  rw [e]
  exact ⟨rfl, rfl⟩

/-- With no role live but `r`, none is once the timer of `r` has run out. -/
theorem Lecture.gapExpired_silent {l : Lecture} {r : Role} (h : ∀ q, q ≠ r → l.live q = false) (q : Role) :
    (l.gapExpired r).live q = false := by
  by_cases hq : q = r
  · subst hq
    exact l.gapExpired_live q
  · rw [Lecture.gapExpired_live_ne _ hq]
    exact h q hq

/-- A live role other than `r` keeps the lecture from stalling. -/
theorem Lecture.not_stallsAt {l : Lecture} {r q : Role} (hq : q ≠ r) (hl : l.live q = true) : ¬ l.stallsAt r := by
  intro c
  have hn := c.2.1 q
  rw [Lecture.gapExpired_live_ne _ hq, hl] at hn
  cases hn

/-- The first live role other than `r` is one. -/
theorem ranked_find_live {l : Lecture} {r q : Role}
    (h : [Role.camera, .screen, .voice].find? (fun p => p != r && l.live p) = some q) : q ≠ r ∧ l.live q = true := by
  have hp := List.find?_some h
  rwa [Bool.and_eq_true, bne_iff_ne] at hp

theorem gapTimer_expires (s : State) (slot : Nat) (r : Role) (l : Lecture) (h : s.lecture? slot = some l)
    (hg : (l.parts.get r).gapRunning = true) :
    ∃ t k, exec (.gapTimerExpiry slot r) s = .next t ∧ t.lecture? slot = some k
      ∧ (k.parts.get r).silent = true ∧ (k.parts.get r).gapRunning = false
      ∧ (∀ q, q ≠ r → (k.parts.get q).silent = (l.parts.get q).silent ∧ (k.parts.get q).ended = (l.parts.get q).ended)
      ∧ (l.state = .running → (∀ q, q ≠ r → l.live q = false) → (∃ q ∈ l.roles, (l.parts.get q).ended = false) →
          k.state = .stalled
          ∧ (∀ g, l.openSegment = some g → k.cutCleared
              ∧ (g.cutStamp = none → (∀ q, (g.ranges.get q).skewEnded = false) → ∃ h ∈ k.window, l.sealsOpen g h)))
      ∧ ((l.state = .loaded ∨ l.state = .running ∨ l.state = .stalled) → r = l.lead →
          (∀ q, [Role.camera, .screen, .voice].find? (fun p => p != r && l.live p) = some q →
            k.lead = q ∧ k.state = l.state ∧ (∀ p, (k.parts.get p).candidates = []) ∧ k.window = l.window
            ∧ k.forcedCut = l.forcedCut ∧ k.stretch = l.stretch
            ∧ (s.atRest → (∃ e ∈ t.ccu.events, e.object = .lecture slot)
                ∧ (l.stretch = .keyOnly → t.discard slot = .keyOnly q false)))
          ∧ ((∀ q, q ≠ r → l.live q = false) → k.lead = r))
      ∧ (r ≠ l.lead → l.live l.lead = true → k.lead = l.lead ∧ ∀ p, (k.parts.get p).candidates = (l.parts.get p).candidates)
      ∧ (l.state ≠ .running → k.state = l.state) := by
  by_cases hs : l.stallsAt r
  · obtain ⟨t, k, ht, record, hst, hlead, parts, opened⟩ := State.gapExpiry_stalls h hg hs
    obtain ⟨silent, stopped, others⟩ := Lecture.gapExpired_flags parts
    refine ⟨t, k, ht, record, silent, stopped, others, fun _ _ _ => ⟨hst, opened⟩, fun _ hr => ⟨fun q hq => ?_,
      fun _ => hlead.trans hr.symm⟩, fun hr hl => absurd hs (Lecture.not_stallsAt (Ne.symm hr) hl),
      fun hn => absurd hs.1 hn⟩
    obtain ⟨hne, hl⟩ := ranked_find_live hq
    exact absurd hs (Lecture.not_stallsAt hne hl)
  · obtain ⟨t, ht, record, leads⟩ := gapTimer_runs h hg hs
    have parts : ∀ q, ∃ c m, (l.gapExpired r).failedOver.parts.get q
        = { (l.gapExpired r).parts.get q with candidates := c, lowMark := m } := fun q => by
      obtain ⟨c, hc⟩ := (l.gapExpired r).failedOver_part q
      exact ⟨c, _, hc⟩
    obtain ⟨silent, stopped, others⟩ := Lecture.gapExpired_flags parts
    refine ⟨t, _, ht, record, silent, stopped, others, fun hst hq he => absurd ⟨hst, Lecture.gapExpired_silent hq, he⟩ hs,
      fun hst hr => ⟨fun q hq => ?_, fun hq => ?_⟩, fun hr hl => ?_, fun _ => (l.gapExpired r).failedOver_state⟩
    · obtain ⟨led, told⟩ := leads q (by rcases hst with e | e | e <;> simp [e]) hr hq
      rw [led]
      refine ⟨rfl, rfl, fun p => ?_, rfl, rfl, rfl, told⟩
      rw [Lecture.ledBy_part]
    · rw [Lecture.failedOver_of_none (ranked_find_none (Lecture.gapExpired_silent hq))]
      exact hr.symm
    · have live : (l.gapExpired r).live (l.gapExpired r).lead = true := (l.gapExpired_live_ne (Ne.symm hr)).trans hl
      rw [Lecture.failedOver_of_live live]
      refine ⟨rfl, fun p => ?_⟩
      by_cases hp : p = r
      · subst hp
        rw [Lecture.gapExpired_part]
      · rw [Lecture.gapExpired_part_ne _ hp]

/-- The CUTTING segment as the skew timer ends and seals it. -/
theorem Lecture.skewed_sealed {l : Lecture} {g : Segment} {b : Stamp} (hb : g.cutStamp = some b)
    (hs : ∀ q, (g.ranges.get q).skewEnded = false) (adm : Bool) :
    let h := ((l.skewed g).fixed (l.floored g)).admittedIf adm
    (∀ q ∈ l.roles,
        let x := g.ranges.get q
        let y := h.ranges.get q
        let stop := (l.parts.get q).noticedEnd
        (x.cut = .pending → y.cut = .ended ∧ y.endOffset = some stop
          ∧ (∀ start, x.startOffset = some start → y.startOffset = some start ∧ y.endStamp = x.lastUnit
              ∧ y.status = (if start = stop then .empty else .short))
          ∧ (x.startOffset = none → y.startOffset = some stop ∧ y.endStamp = none ∧ y.status = .empty))
        ∧ (x.cut ≠ .pending → y = { x with status := if x.startOffset = x.endOffset then .empty else .normal }))
    ∧ h.endStamp = some b
    ∧ (∀ a, g.leadStart = some a →
        h.duration = if stampLater b a then min (b - a).toNat (4 * (l.segLength * 1000)) else 0)
    ∧ (g.leadStart = none → h.duration = 0)
    ∧ h.chunkCount = max 1 ((h.duration + 999) / 1000) := by
  obtain ⟨ranges, endStamp, duration, chunkCount⟩ := ((l.skewed g).fixed (l.floored g)).admittedIf_keeps adm
  have ends : ((l.skewed g).fixed (l.floored g)).endStamp = some b :=
    Segment.fixed_endStamp_cut (g := l.skewed g) hb (l.floored g)
  dsimp only
  rw [ranges, endStamp, duration, chunkCount]
  refine ⟨fun q hq => ?_, ends, fun a ha => ?_, fun ha => ?_, rfl⟩
  · have hp := Lecture.mem_roles.1 hq
    rw [Segment.fixed_range _ ((l.floored_part_present g q).trans hp)]
    refine ⟨fun hc => ?_, fun hc => ?_⟩
    · rw [Lecture.skewed_range_pending hp hc]
      exact RoleRange.skewEnd_sealed _
    · rw [Lecture.skewed_range_settled hc, RoleRange.sealStatus_unskewed (hs q)]
  · rw [Segment.fixed_duration, ends, show (l.skewed g).leadStart = some a from ha]
    rfl
  · exact sealDuration_none (.inl ha) _

/-- Settles O34: the failover or the stall of a silence, and the sealing at the skew limit. -/
theorem lectureTimers : Obligations.LectureTimers := by
  refine ⟨gapTimer_expires, fun s slot l g h hg hr => ?_⟩
  obtain ⟨m, p, f, record⟩ := State.skewExpire_record h hg hr
  have part : ∀ r, ∃ n, (((((l.floored g).sealing g.number).stretched m).admitted p).marked f).parts.get r
      = { (l.floored g).parts.get r with lowMark := n } := fun r => ⟨f r, Lecture.marked_part ..⟩
  refine ⟨_, _, rfl, (State.lecture?_of_sgc (State.serveClaims_sgc _) slot).trans record,
    Lecture.floored_state .., fun r hp hc => ?_, fun r hn => ?_, fun b hb hs => ?_⟩
  · obtain ⟨_, e⟩ := part r
    rw [e, Lecture.floored_part, if_pos (by simp [Lecture.late, hp, hc])]
  · obtain ⟨_, e⟩ := part r
    rw [e, Lecture.floored_part, if_neg (by rcases hn with hn | hn <;> simp [Lecture.late, hn])]
  · have mem : l.skewed g ∈ (l.floored g).window := List.mem_map.2 ⟨g, Lecture.cuttingSegment_mem hg, if_pos rfl⟩
    exact ⟨_, Lecture.sealing_fixes m p mem rfl, Segment.admittedIf_number .., Segment.admittedIf_sealed rfl _,
      Lecture.skewed_sealed hb hs _⟩

end Sys2Proof.Machine
end

section
/-! PROOF. What the SGC makes of the reports of the IKU: role ends, late drops and overruns (O38). -/

namespace Sys2Proof.Machine

/-! ## A role's end in the CUTTING segment (R37) -/

/-- A segment with one role ended at its current end. -/
def Lecture.endsRole (l : Lecture) (c : Segment) (r : Role) : Segment :=
  c.modRange r (fun x => x.endAt (l.parts.get r).noticedEnd)

theorem Lecture.endsRole_range (l : Lecture) (c : Segment) (r : Role) :
    (l.endsRole c r).ranges.get r = (c.ranges.get r).endAt (l.parts.get r).noticedEnd :=
  PerRole.get_set_same ..

theorem Lecture.endsRole_range_ne (l : Lecture) (c : Segment) {r q : Role} (h : q ≠ r) :
    (l.endsRole c r).ranges.get q = c.ranges.get q :=
  PerRole.get_set_ne _ _ h

/-- No role but `r` is PENDING exactly when the segment is settled once `r` has ended. -/
theorem Lecture.endsRole_settled (l : Lecture) (c : Segment) (r : Role) :
    (l.endsRole c r).settled l.roles = true ↔ ∀ q ∈ l.roles, q ≠ r → (c.ranges.get q).cut ≠ .pending := by
  rw [Segment.settled, List.all_eq_true]
  refine ⟨fun h q hq hne => ?_, fun h q hq => ?_⟩
  · have hs := h q hq
    rw [Lecture.endsRole_range_ne _ _ hne] at hs
    exact bne_iff_ne.1 hs
  · by_cases hr : q = r
    · subst hr
      obtain ⟨ended, _⟩ := (c.ranges.get q).endAt_takesEnd (l.parts.get q).noticedEnd
      rw [Lecture.endsRole_range, ended]
      rfl
    · rw [Lecture.endsRole_range_ne _ _ hr]
      exact bne_iff_ne.2 (h q hq hr)

/-- The record with a role ended in its CUTTING segment. -/
def Lecture.cutEnded (l : Lecture) (c : Segment) (r : Role) : Lecture :=
  l.modSegment c.number (fun _ => l.endsRole c r)

theorem State.endCuttingRole_none {s : State} {slot : Nat} {l : Lecture} (h : s.lecture? slot = some l)
    (hc : l.cuttingSegment = none) (r : Role) : s.endCuttingRole slot r = s := by
  simp only [State.endCuttingRole, h, hc]

theorem State.endCuttingRole_decided {s : State} {slot : Nat} {l : Lecture} {c : Segment} {r : Role}
    (h : s.lecture? slot = some l) (hc : l.cuttingSegment = some c) (hr : (c.ranges.get r).cut ≠ .pending) :
    s.endCuttingRole slot r = s := by
  simp only [State.endCuttingRole, h, hc, if_pos hr]

theorem State.endCuttingRole_pending {s : State} {slot : Nat} {l : Lecture} {c : Segment} {r : Role}
    (h : s.lecture? slot = some l) (hc : l.cuttingSegment = some c) (hr : (c.ranges.get r).cut = .pending) :
    s.endCuttingRole slot r = if (l.endsRole c r).settled l.roles
      then (s.setLecture slot (l.cutEnded c r)).sealSegment slot c.number else s.setLecture slot (l.cutEnded c r) := by
  simp only [State.endCuttingRole, h, hc, if_neg (not_not_intro hr)]
  rfl

/-- A segment left CUTTING by a role's end. -/
theorem Lecture.endsRole_settles {l : Lecture} (k : Lecture) {c : Segment} {r : Role} (hc : c.state = .cutting)
    (hs : ¬ ∀ q ∈ l.roles, q ≠ r → (c.ranges.get q).cut ≠ .pending) : l.settles r c (k.endsRole c r) := by
  refine ⟨rfl, rfl, rfl, rfl, fun q _ hq => ?_, fun _ => ⟨hc, rfl, rfl⟩, fun h => absurd h hs⟩
  rw [Lecture.endsRole_range_ne _ _ hq]
  exact ⟨rfl, rfl, rfl, rfl⟩

/-- A segment sealed by a role's end. -/
theorem Lecture.endsRole_seals {l j : Lecture} (k : Lecture) (J : l.alike j) {c : Segment} {r : Role} (b : Bool)
    (hs : ∀ q ∈ l.roles, q ≠ r → (c.ranges.get q).cut ≠ .pending) :
    l.settles r c (((k.endsRole c r).fixed j).admittedIf b) := by
  obtain ⟨ranges, endStamp, _, _⟩ := ((k.endsRole c r).fixed j).admittedIf_keeps b
  have same : ((k.endsRole c r).fixed j).admittedIf b
      = { (k.endsRole c r).fixed j with state := (((k.endsRole c r).fixed j).admittedIf b).state } := by
    cases b <;> rfl
  refine ⟨by rw [same]; rfl, by rw [same]; rfl, by rw [same]; rfl, by rw [same]; rfl, fun q hq hne => ?_,
    fun ⟨q, hq, hne, hp⟩ => absurd hp (hs q hq hne), fun _ => ⟨Segment.admittedIf_sealed rfl b, by rw [same]; rfl,
    fun e he => by rw [endStamp]; exact Segment.fixed_endStamp_cut (g := k.endsRole c r) he j⟩⟩
  have hp := Lecture.mem_roles.1 hq
  rw [ranges, Segment.fixed_range _ ((J.present q).trans hp), Lecture.endsRole_range_ne _ _ hne]
  exact ⟨rfl, rfl, rfl, rfl⟩

/-- The range of the role that has ended. -/
theorem Lecture.endsRole_seals_takesEnd {l k j : Lecture} (H : l.alike k) (J : l.alike j) {c : Segment} {r : Role}
    (hp : (l.parts.get r).present = true) (b : Bool) :
    (c.ranges.get r).takesEnd ((((k.endsRole c r).fixed j).admittedIf b).ranges.get r) (l.parts.get r).noticedEnd := by
  obtain ⟨ranges, _, _, _⟩ := ((k.endsRole c r).fixed j).admittedIf_keeps b
  rw [ranges, Segment.fixed_range _ ((J.present r).trans hp), Lecture.endsRole_range, H.noticed]
  exact (c.ranges.get r).endAt_takesEnd _

/-- The CUTTING segment, with one role ended in it, as it stands in a window: left CUTTING, or sealed and perhaps
admitted. -/
def Lecture.cutsTo (l : Lecture) (r : Role) (c d : Segment) : Prop :=
  l.settles r c d ∧ (c.ranges.get r).takesEnd (d.ranges.get r) (l.parts.get r).noticedEnd

/-- A segment of number `n` for which `P` holds stands in the window, and `P` holds of it WORKING too where it waits. -/
def Lecture.stands (k : Lecture) (waits : Prop) (n : Nat) (P : Segment → Prop) : Prop :=
  ∃ a ∈ k.window, a.number = n ∧ P a ∧ (waits → P { a with state := .working })

/-- What a role's end in the CUTTING segment leaves: `k` is the record before it, `j` the one after it in `t`. -/
structure State.cutsRole (s t : State) (slot : Nat) (r : Role) (l k j : Lecture) : Prop where
  record : t.lecture? slot = some j
  parts : j.parts = k.parts
  state : j.state = k.state
  lead : j.lead = k.lead
  forcedCut : j.forcedCut = k.forcedCut
  length : j.segLength = k.segLength
  empty : j.window = [] ↔ k.window = []
  unopened : k.openSegment = none → j.openSegment = none
  opened : ∀ g, k.openSegment = some g → (slot, g.number) ∉ s.admissions →
    (∀ c, k.cuttingSegment = some c → c.number ≠ g.number) → j.openSegment = some g
  cutting : ∀ c, k.cuttingSegment = some c → (∀ h ∈ k.window, h.number = c.number → h = c) →
    (slot, c.number) ∉ s.admissions →
    (∀ d ∈ j.window, d.number = c.number → d.state ≠ .opened)
      ∧ ((c.ranges.get r).cut ≠ .pending → j.stands ((slot, c.number) ∈ t.admissions) c.number (· = c))
      ∧ ((c.ranges.get r).cut = .pending → j.stands ((slot, c.number) ∈ t.admissions) c.number (l.cutsTo r c))

theorem Lecture.cuttingSegment_state {l : Lecture} {c : Segment} (h : l.cuttingSegment = some c) :
    c.state = .cutting :=
  eq_of_beq (List.find?_some (p := fun g : Segment => g.state == SegmentState.cutting) h)

theorem Lecture.openSegment_state {l : Lecture} {g : Segment} (h : l.openSegment = some g) : g.state = .opened :=
  eq_of_beq (List.find?_some (p := fun g : Segment => g.state == SegmentState.opened) h)

/-- Where the CUTTING segment, if there is one, does not have the role PENDING, nothing changes. -/
theorem State.cutsRole_refl {s : State} {slot : Nat} {r : Role} {l k : Lecture} (h : s.lecture? slot = some k)
    (hc : ∀ c, k.cuttingSegment = some c → (c.ranges.get r).cut ≠ .pending) : s.cutsRole s slot r l k k where
  record := h
  parts := rfl
  state := rfl
  lead := rfl
  forcedCut := rfl
  length := rfl
  empty := Iff.rfl
  unopened := id
  opened _ hg _ _ := hg
  cutting c hk only hn := by
    refine ⟨fun d hd e => ?_, fun _ => ⟨c, Lecture.cuttingSegment_mem hk, rfl, rfl, fun w => absurd w hn⟩,
      fun e => absurd e (hc c hk)⟩
    rw [only d hd e, Lecture.cuttingSegment_state hk]
    exact SegmentState.noConfusion

/-- The first element that passes a test is the first that passes a stricter one which it passes too. -/
theorem find?_stricter {α : Type} {p q : α → Bool} {a : α} (hq : ∀ b, q b = true → p b = true) (ha : q a = true) :
    ∀ {w : List α}, w.find? p = some a → w.find? q = some a := by
  intro w
  induction w with
  | nil => exact id
  | cons b w ih =>
    intro h
    by_cases hp : p b = true
    · rw [List.find?_cons_of_pos hp] at h
      obtain rfl : b = a := Option.some.inj h
      exact List.find?_cons_of_pos ha
    · rw [List.find?_cons_of_neg hp] at h
      rw [List.find?_cons_of_neg (fun hb => hp (hq b hb))]
      exact ih h

/-- A change of the window that opens no segment. -/
theorem Lecture.openSegment_map {k j : Lecture} {f : Segment → Segment} (hw : j.window = k.window.map f)
    (hf : ∀ d, (f d).state = .opened → d.state = .opened) :
    (k.openSegment = none → j.openSegment = none)
      ∧ ∀ g, k.openSegment = some g → f g = g → j.openSegment = some g := by
  refine ⟨fun h => ?_, fun g h hg => ?_⟩
  · rw [Lecture.openSegment_none] at h ⊢
    intro d hd
    rw [hw] at hd
    obtain ⟨e, he, rfl⟩ := List.mem_map.1 hd
    exact fun ho => h e he (hf e ho)
  · have first : k.window.find? ((fun g => g.state == .opened) ∘ f) = some g :=
      find?_stricter (fun b hb => beq_iff_eq.2 (hf b (eq_of_beq hb)))
        (by simp only [hg, Lecture.openSegment_state h]; rfl) h
    rw [Lecture.openSegment, hw, List.find?_map, first]
    exact congrArg some hg

/-- A segment with an admission is OPEN only where it was. -/
theorem Segment.admittedIf_opened {g : Segment} {b : Bool} (h : (g.admittedIf b).state = .opened) :
    g.state = .opened := by
  cases b
  · exact h
  · cases h

/-- The role's end leaves the segment CUTTING: another role is PENDING in it. -/
theorem State.cutsRole_cutting {s : State} {slot : Nat} {r : Role} {l k : Lecture} {c : Segment} (H : l.alike k)
    (hc : k.cuttingSegment = some c) (hr : (c.ranges.get r).cut = .pending)
    (hs : ¬ ∀ q ∈ l.roles, q ≠ r → (c.ranges.get q).cut ≠ .pending) :
    s.cutsRole (s.setLecture slot (k.cutEnded c r)) slot r l k (k.cutEnded c r) := by
  have cutting : (k.endsRole c r).state = .cutting :=
    show c.state = .cutting from Lecture.cuttingSegment_state hc
  obtain ⟨unopened, opened⟩ := Lecture.openSegment_map (j := k.cutEnded c r) (k := k) rfl (fun d hd => by
    by_cases hn : d.number = c.number
    · rw [if_pos hn, cutting] at hd
      cases hd
    · rwa [if_neg hn] at hd)
  refine ⟨State.lecture?_setLecture_same .., rfl, rfl, rfl, rfl, rfl, List.map_eq_nil_iff, unopened,
    fun g hg _ hne => opened g hg (if_neg (Ne.symm (hne c hc))), fun d hd _ hn => ?_⟩
  obtain rfl : c = d := Option.some.inj (hc.symm.trans hd)
  have mem : k.endsRole c r ∈ (k.cutEnded c r).window :=
    List.mem_map.2 ⟨c, Lecture.cuttingSegment_mem hc, if_pos rfl⟩
  refine ⟨fun e he hen => ?_, fun hp => absurd hr hp,
    fun _ => ⟨_, mem, rfl, ⟨Lecture.endsRole_settles k (Lecture.cuttingSegment_state hc) hs, ?_⟩, fun w => absurd w hn⟩⟩
  · obtain ⟨d, _, rfl⟩ := List.mem_map.1 he
    by_cases hdn : d.number = c.number
    · simp only [if_pos hdn, cutting]
      exact SegmentState.noConfusion
    · rw [if_neg hdn] at hen
      exact absurd hen hdn
  · rw [Lecture.endsRole_range, H.noticed]
    exact (c.ranges.get r).endAt_takesEnd _

/-- The window once the CUTTING segment has been settled and sealed. -/
theorem Lecture.cutEnded_sealed (k : Lecture) (c : Segment) (r : Role) (m : Stretch) (p : Nat → Bool) :
    ((((k.cutEnded c r).sealing c.number).stretched m).admitted p).window = k.window.map (fun d =>
      (if d.number = c.number then (k.endsRole c r).fixed (k.cutEnded c r) else d).admittedIf (p d.number)) := by
  simp only [Lecture.admitted, Lecture.stretched, Lecture.sealing, Lecture.modSegment, Lecture.cutEnded, List.map_map]
  refine List.map_congr_left fun d _ => ?_
  by_cases hd : d.number = c.number
  · simp [hd, show (k.endsRole c r).number = c.number from rfl,
      show ∀ j, ((k.endsRole c r).fixed j).number = c.number from fun _ => rfl]
  · simp [hd]

/-- The role's end settles the segment, which is sealed. -/
theorem State.cutsRole_sealed {s : State} {slot : Nat} {r : Role} {l k : Lecture} {c : Segment} (H : l.alike k)
    (hp : (l.parts.get r).present = true) (hc : k.cuttingSegment = some c) (hr : (c.ranges.get r).cut = .pending)
    (hs : ∀ q ∈ l.roles, q ≠ r → (c.ranges.get q).cut ≠ .pending) :
    ∃ j, s.cutsRole ((s.setLecture slot (k.cutEnded c r)).sealSegment slot c.number) slot r l k j := by
  have set := State.setLecture_turns s slot (k.cutEnded c r)
  obtain ⟨m, p, record, _, waits⟩ := State.sealSegment_record set.record c.number
  rw [set.admissions] at waits
  have window := k.cutEnded_sealed c r m p
  have J : l.alike (k.cutEnded c r) := H.trans ⟨fun _ => rfl, fun _ => rfl, rfl⟩
  have fixes : ∀ b, (((k.endsRole c r).fixed (k.cutEnded c r)).admittedIf b).state ≠ .opened := fun b h => by
    cases Segment.admittedIf_opened h
  obtain ⟨unopened, opened⟩ := Lecture.openSegment_map window (fun d hd => by
    by_cases hn : d.number = c.number
    · rw [if_pos hn] at hd
      exact absurd hd (fixes _)
    · rw [if_neg hn] at hd
      exact Segment.admittedIf_opened hd)
  refine ⟨_, record, rfl, rfl, rfl, rfl, rfl, by rw [window]; exact List.map_eq_nil_iff, unopened,
    fun g hg hn hne => opened g hg ?_, fun d hd _ _ => ?_⟩
  · have notAdmitted : p g.number = false := by
      rw [← Bool.not_eq_true]
      exact fun e => (waits _ e).elim (Ne.symm (hne c hc)) hn
    simp only [if_neg (Ne.symm (hne c hc)), notAdmitted]
    rfl
  · obtain rfl : c = d := Option.some.inj (hc.symm.trans hd)
    refine ⟨fun e he hen ho => ?_, fun h => absurd hr h, fun _ => ?_⟩
    · rw [window] at he
      obtain ⟨d, _, rfl⟩ := List.mem_map.1 he
      by_cases hdn : d.number = c.number
      · rw [if_pos hdn] at ho
        exact fixes _ ho
      · rw [if_neg hdn, Segment.admittedIf_number] at hen
        exact hdn hen
    · have mem : ((k.endsRole c r).fixed (k.cutEnded c r)).admittedIf (p c.number)
          ∈ ((((k.cutEnded c r).sealing c.number).stretched m).admitted p).window := by
        rw [window]
        exact List.mem_map.2 ⟨c, Lecture.cuttingSegment_mem hc, by rw [if_pos rfl]⟩
      have cuts : ∀ b, l.cutsTo r c (((k.endsRole c r).fixed (k.cutEnded c r)).admittedIf b) := fun b =>
        ⟨Lecture.endsRole_seals k J b hs, Lecture.endsRole_seals_takesEnd H J hp b⟩
      refine ⟨_, mem, Segment.admittedIf_number .., cuts _, fun _ => ?_⟩
      have working : ∀ (g : Segment) (b : Bool), { g.admittedIf b with state := .working } = g.admittedIf true :=
        fun g b => by cases b <;> rfl
      rw [working]
      exact cuts true

theorem State.endCuttingRole_cuts {s : State} {slot : Nat} {r : Role} {l k : Lecture} (h : s.lecture? slot = some k)
    (H : l.alike k) (hp : (l.parts.get r).present = true) :
    ∃ j, s.cutsRole (s.endCuttingRole slot r) slot r l k j := by
  cases hc : k.cuttingSegment with
  | none =>
    rw [State.endCuttingRole_none h hc]
    exact ⟨k, State.cutsRole_refl h fun c e => absurd (hc.symm.trans e) nofun⟩
  | some c =>
    by_cases hr : (c.ranges.get r).cut = .pending
    · rw [State.endCuttingRole_pending h hc hr]
      have settled := k.endsRole_settled c r
      rw [H.roles] at settled
      by_cases hs : ∀ q ∈ l.roles, q ≠ r → (c.ranges.get q).cut ≠ .pending
      · rw [H.roles, if_pos (settled.2 hs)]
        exact State.cutsRole_sealed H hp hc hr hs
      · rw [H.roles, if_neg (fun e => hs (settled.1 e))]
        exact ⟨_, State.cutsRole_cutting H hc hr hs⟩
    · rw [State.endCuttingRole_decided h hc hr]
      refine ⟨k, State.cutsRole_refl h fun d e => ?_⟩
      obtain rfl : c = d := Option.some.inj (hc.symm.trans e)
      exact hr

end Sys2Proof.Machine
end

section
/-! PROOF. The end of the last role of a lecture, and the reports of the IKU (O38). -/

namespace Sys2Proof.Machine

/-! ## Every role has ended (R14, R38) -/

/-- A record with every gap timer stopped, in a state. -/
def Lecture.stopped (l : Lecture) (st : LectureState) : Lecture := l.stopGaps.inState st

theorem Lecture.stopped_part (l : Lecture) (st : LectureState) (r : Role) :
    (l.stopped st).parts.get r = { l.parts.get r with gapRunning := false, gapLeft := 0 } :=
  PerRole.get_map ..

theorem Lecture.stopped_cutCleared {l : Lecture} (h : l.cutCleared) (st : LectureState) : (l.stopped st).cutCleared :=
  ⟨h.1, fun q => (congrArg RolePart.candidates (l.stopped_part st q)).trans (h.2.1 q), h.2.2⟩

/-- What the end of every role makes of the record `j`: `k` is the record in `u`. -/
structure State.allEnds (t u : State) (slot : Nat) (st : LectureState) (j k : Lecture) : Prop where
  record : u.lecture? slot = some k
  parts : ∀ q, ∃ c, k.parts.get q = { j.parts.get q with gapRunning := false, gapLeft := 0, candidates := c }
  loaded : st = .loaded → k.state = .closed
  unopened : st = .stalled ∨ (st = .running ∧ j.openSegment = none) →
    k.state = if j.window = [] then .closed else .ending
  seals : st = .running → ∀ g, j.openSegment = some g → k.state = .ending ∧ k.cutCleared
    ∧ (g.cutStamp = none → (∀ q, (g.ranges.get q).skewEnded = false) → ∃ h ∈ k.window, j.sealsOpen g h)
  stands : ∀ n P, j.stands ((slot, n) ∈ t.admissions) n P → (∀ d ∈ j.window, d.number = n → d.state ≠ .opened) →
    ∃ a ∈ k.window, P a

/-- Every segment of a window stays where the state and the timers alone change. -/
theorem Lecture.stands_stopped {j : Lecture} {waits : Prop} {n : Nat} {P : Segment → Prop} (h : j.stands waits n P)
    (st : LectureState) : ∃ a ∈ (j.stopped st).window, P a := by
  obtain ⟨a, ha, _, hP, _⟩ := h
  exact ⟨a, ha, hP⟩

theorem State.closeLecture_allEnds {t : State} {slot : Nat} {j : Lecture} (h : t.lecture? slot = some j) :
    t.allEnds (t.closeLecture slot) slot .loaded j (j.stopped .closed) where
  record := (State.closeLecture_turns h).record
  parts _ := ⟨_, j.stopped_part ..⟩
  loaded _ := rfl
  unopened c := by rcases c with c | ⟨c, _⟩ <;> cases c
  seals c := by cases c
  stands _ _ hP _ := Lecture.stands_stopped hP _

/-- ENDING without an OPEN segment to end. -/
theorem State.enterEnding_allEnds {t : State} {slot : Nat} {j : Lecture} (h : t.lecture? slot = some j)
    {st : LectureState} (hl : st ≠ .loaded) (ho : st = .running → j.openSegment = none) :
    t.allEnds (t.enterEnding slot) slot st j (j.stopped (if j.window = [] then .closed else .ending)) where
  record := (State.enterEnding_turns h).record
  parts _ := ⟨_, j.stopped_part ..⟩
  loaded c := absurd c hl
  unopened _ := rfl
  seals c _ hg := absurd ((ho c).symm.trans hg) nofun
  stands _ _ hP _ := Lecture.stands_stopped hP _

/-- ENDING with the OPEN segment ended and sealed. -/
theorem State.endOpen_allEnds {t : State} {slot : Nat} {j : Lecture} (h : t.lecture? slot = some j) {g : Segment}
    (hg : j.openSegment = some g) :
    ∃ k, t.allEnds ((t.endOpen slot).enterEnding slot) slot .running j k := by
  have mem := Lecture.openSegment_mem hg
  obtain ⟨p, record, waits⟩ := State.endOpen_record h hg
  have numbers := j.openSealed_numbers g p
  have notEmpty : ((j.openSealed g).admitted p).window ≠ [] := fun e => by
    rw [e] at numbers
    exact List.ne_nil_of_mem mem (List.map_eq_nil_iff.1 numbers.symm)
  have ends := State.enterEnding_turns record
  rw [if_neg notEmpty] at ends
  refine ⟨((j.openSealed g).admitted p).stopped .ending, ends.record, fun q => ⟨[], ?_⟩, nofun, fun c => ?_,
    fun _ d hd => ?_, fun n P hP hn => ?_⟩
  · rw [Lecture.stopped_part, Lecture.openSealed_part]
  · rcases c with c | ⟨_, c⟩
    · cases c
    · exact absurd (hg.symm.trans c) nofun
  · obtain rfl : g = d := Option.some.inj (hg.symm.trans hd)
    exact ⟨rfl, Lecture.stopped_cutCleared (Lecture.openSealed_cutCleared ..) _, Lecture.openSealed_sealsOpen mem p⟩
  · obtain ⟨a, ha, han, hPa, hPw⟩ := hP
    have other : a.number ≠ g.number := fun e =>
      hn g mem (e.symm.trans han) (Lecture.openSegment_state hg)
    have stays : a.admittedIf (p a.number) ∈ ((j.openSealed g).admitted p).window := by
      have ended : a ∈ (j.openEnded g).window := List.mem_map.2 ⟨a, ha, if_neg other⟩
      have sealedToo : a ∈ (j.openSealed g).window := List.mem_map.2 ⟨a, ended, if_neg other⟩
      exact Lecture.mem_admitted sealedToo p
    refine ⟨_, stays, ?_⟩
    cases hp : p a.number with
    | false => exact hPa
    | true => exact hPw (han ▸ (waits _ hp).resolve_left other)

theorem State.allEnded_allEnds {t : State} {slot : Nat} {j : Lecture} (h : t.lecture? slot = some j) {st : LectureState}
    (hst : st = .loaded ∨ st = .running ∨ st = .stalled) : ∃ k, t.allEnds (t.allEnded slot st) slot st j k := by
  rcases hst with rfl | rfl | rfl
  · exact ⟨_, State.closeLecture_allEnds h⟩
  · cases hg : j.openSegment with
    | none =>
      have ends := State.enterEnding_allEnds (st := .running) h nofun fun _ => hg
      rw [← State.endOpen_none h hg] at ends
      exact ⟨_, ends.record, ends.parts, ends.loaded, ends.unopened, ends.seals,
        by rw [← State.endOpen_none h hg]; exact ends.stands⟩
    | some g => exact State.endOpen_allEnds h hg
  · exact ⟨_, State.enterEnding_allEnds h nofun nofun⟩

/-! ## The role-end notice (R10) -/

/-- The record once a role has ended. -/
def Lecture.roleEnded (l : Lecture) (r : Role) : Lecture :=
  l.modPart r (fun p => { p with ended := true, silent := false, gapRunning := false, gapLeft := 0 })

theorem Lecture.roleEnded_part (l : Lecture) (r : Role) : (l.roleEnded r).parts.get r
    = { l.parts.get r with ended := true, silent := false, gapRunning := false, gapLeft := 0 } :=
  PerRole.get_set_same ..

theorem Lecture.roleEnded_part_ne (l : Lecture) {r q : Role} (h : q ≠ r) :
    (l.roleEnded r).parts.get q = l.parts.get q :=
  PerRole.get_set_ne _ _ h

theorem Lecture.roleEnded_alike (l : Lecture) (r : Role) : l.alike (l.roleEnded r) := by
  have part : ∀ q, ((l.roleEnded r).parts.get q).present = (l.parts.get q).present
      ∧ ((l.roleEnded r).parts.get q).noticedEnd = (l.parts.get q).noticedEnd := fun q => by
    by_cases hq : q = r
    · subst hq
      rw [Lecture.roleEnded_part]
      exact ⟨rfl, rfl⟩
    · rw [Lecture.roleEnded_part_ne _ hq]
      exact ⟨rfl, rfl⟩
  exact ⟨fun q => (part q).1, fun q => (part q).2, rfl⟩

theorem Lecture.roleEnded_live (l : Lecture) (r : Role) : (l.roleEnded r).live r = false := by
  simp [Lecture.live, Lecture.roleEnded_part]

theorem Lecture.roleEnded_live_ne (l : Lecture) {r q : Role} (h : q ≠ r) : (l.roleEnded r).live q = l.live q :=
  Lecture.live_of_part (l.roleEnded_part_ne h)

/-- The lead that a failover picks once the lead has ended. -/
theorem Lecture.roleEnded_leads {l : Lecture} {r q : Role} (hs : ¬ (l.state = .ending ∨ l.state = .closed))
    (hr : r = l.lead) (hq : [Role.camera, .screen, .voice].find? (fun p => p != r && l.live p) = some q) :
    (l.roleEnded r).failedOver = (l.roleEnded r).ledBy q := by
  rw [← ranked_find_without (l.roleEnded_live r) (fun q hq => l.roleEnded_live_ne hq)] at hq
  refine Lecture.failedOver_of_some (l := l.roleEnded r) hs ?_ hq
  rw [show (l.roleEnded r).lead = r from hr.symm]
  exact l.roleEnded_live r

/-- Every role has ended once `r` has: the test that `State.roleEnd` makes. -/
theorem Lecture.roleEnded_all (l : Lecture) (r : Role) :
    l.roles.all (fun q => ((l.roleEnded r).parts.get q).ended) = true
      ↔ ∀ q ∈ l.roles, q ≠ r → (l.parts.get q).ended = true := by
  rw [List.all_eq_true]
  refine ⟨fun h q hq hne => ?_, fun h q hq => ?_⟩
  · have he := h q hq
    rwa [Lecture.roleEnded_part_ne _ hne] at he
  · by_cases hr : q = r
    · subst hr
      rw [Lecture.roleEnded_part]
    · rw [Lecture.roleEnded_part_ne _ hr]
      exact h q hq hr

theorem State.roleEnd_eq {s : State} {slot : Nat} {r : Role} {l : Lecture} (h : s.lecture? slot = some l)
    (hs : ¬ (l.state = .ending ∨ l.state = .closed)) (hp : (l.parts.get r).present = true)
    (he : (l.parts.get r).ended = false) (t : State)
    (ht : t = ((s.setLecture slot (l.roleEnded r)).failover slot).endCuttingRole slot r) :
    s.roleEnd slot r = (if l.roles.all (fun q => ((l.roleEnded r).parts.get q).ended)
      then t.allEnded slot l.state else t).presentMarks slot := by
  have hc : ¬ ((l.state = .ending ∨ l.state = .closed)
      ∨ ((l.parts.get r).present = false ∨ (l.parts.get r).ended = true)) := by
    rw [hp, he]
    simpa using hs
  subst ht
  simp only [State.roleEnd, h, if_neg hc]
  rfl

theorem State.roleEnd_ended {s : State} {slot : Nat} {r : Role} {l : Lecture} (h : s.lecture? slot = some l)
    (he : (l.parts.get r).ended = true) : s.roleEnd slot r = s := by
  have hc : (l.state = .ending ∨ l.state = .closed)
      ∨ ((l.parts.get r).present = false ∨ (l.parts.get r).ended = true) := .inr (.inr he)
  simp only [State.roleEnd, h, if_pos hc]

/-- A role that ends: the failover, the cut of the CUTTING segment, and the end of all roles where it is the last. -/
theorem State.roleEnd_steps {s : State} {slot : Nat} {r : Role} {l : Lecture} (h : s.lecture? slot = some l)
    (hst : l.state = .loaded ∨ l.state = .running ∨ l.state = .stalled) (hp : (l.parts.get r).present = true)
    (he : (l.parts.get r).ended = false) :
    ∃ t j u k f, s.cutsRole t slot r l (l.roleEnded r).failedOver j
      ∧ exec (.roleEndNotice slot r) s = .next u ∧ u.lecture? slot = some (k.marked f)
      ∧ ((∀ q ∈ l.roles, q ≠ r → (l.parts.get q).ended = true) → ∃ v, t.allEnds v slot l.state j k)
      ∧ ((∃ q ∈ l.roles, q ≠ r ∧ (l.parts.get q).ended = false) → k = j) := by
  have hs : ¬ (l.state = .ending ∨ l.state = .closed) := by rcases hst with e | e | e <;> simp [e]
  have got : (s.received (.roleEndNotice slot r)).lecture? slot = some l := h
  have set := State.setLecture_turns (s.received (.roleEndNotice slot r)) slot (l.roleEnded r)
  have led := set.trans (State.failover_turns set.record)
  have alike := (l.roleEnded_alike r).trans (l.roleEnded r).failedOver_alike
  obtain ⟨j, cuts⟩ := State.endCuttingRole_cuts (r := r) led.record alike hp
  have cuts' : s.cutsRole _ slot r l (l.roleEnded r).failedOver j := {
    cuts with
    opened := fun g hg hn => cuts.opened g hg (by rw [led.admissions]; exact hn)
    cutting := fun c hc only hn => cuts.cutting c hc only (by rw [led.admissions]; exact hn) }
  have finish : ∀ {v : State} {k : Lecture}, (s.received (.roleEndNotice slot r)).roleEnd slot r = v.presentMarks slot →
      v.lecture? slot = some k →
      ∃ u f, exec (.roleEndNotice slot r) s = .next u ∧ u.lecture? slot = some (k.marked f) := fun {v k} e hv => by
    obtain ⟨f, marks⟩ := State.presentMarks_turns hv
    refine ⟨_, f, rfl, ?_⟩
    rw [State.lecture?_of_sgc (State.serveClaims_sgc _), e]
    exact marks.record
  have step := State.roleEnd_eq got hs hp he _ rfl
  by_cases all : ∀ q ∈ l.roles, q ≠ r → (l.parts.get q).ended = true
  · rw [if_pos ((l.roleEnded_all r).2 all)] at step
    obtain ⟨k, ends⟩ := State.allEnded_allEnds cuts.record hst
    obtain ⟨u, f, hu, record⟩ := finish step ends.record
    refine ⟨_, j, u, k, f, cuts', hu, record, fun _ => ⟨_, ends⟩, fun ⟨q, hq, hne, hn⟩ => ?_⟩
    exact absurd ((all q hq hne).symm.trans hn) nofun
  · rw [if_neg (fun e => all ((l.roleEnded_all r).1 e))] at step
    obtain ⟨u, f, hu, record⟩ := finish step cuts.record
    exact ⟨_, j, u, j, f, cuts', hu, record, fun c => absurd c all, fun _ => rfl⟩

/-! ## The statement -/

/-- The records before and after the notice of a role's end agree in the parts, but for the ended role's own flags. -/
theorem Lecture.roleEnded_flags {l : Lecture} {r : Role} {p : RolePart} {c : List CutCandidate} {m : Nat}
    (h : p = { (l.roleEnded r).parts.get r with candidates := c, lowMark := m }) :
    p.ended = true ∧ p.silent = false ∧ p.gapRunning = false := by
  rw [h, Lecture.roleEnded_part]
  exact ⟨rfl, rfl, rfl⟩

theorem roleEndNotice_ends (s : State) (slot : Nat) (r : Role) (l : Lecture) (h : s.lecture? slot = some l)
    (hst : l.state = .loaded ∨ l.state = .running ∨ l.state = .stalled) (hp : (l.parts.get r).present = true)
    (he : (l.parts.get r).ended = false) :
    ∃ t k, exec (.roleEndNotice slot r) s = .next t ∧ t.lecture? slot = some k ∧ (k.parts.get r).ended = true
      ∧ (k.parts.get r).silent = false ∧ (k.parts.get r).gapRunning = false
      ∧ (r = l.lead → ∀ q, [Role.camera, .screen, .voice].find? (fun p => p != r && l.live p) = some q →
          k.lead = q ∧ k.state = l.state ∧ (∀ p, (k.parts.get p).candidates = []) ∧ k.forcedCut = l.forcedCut)
      ∧ (∀ c, l.cuttingSegment = some c → (∀ h ∈ l.window, h.number = c.number → h = c) →
          (slot, c.number) ∉ s.admissions →
          ((c.ranges.get r).cut ≠ .pending → c ∈ k.window)
          ∧ ((c.ranges.get r).cut = .pending → ∃ a ∈ k.window, l.settles r c a
              ∧ (c.ranges.get r).takesEnd (a.ranges.get r) (l.parts.get r).noticedEnd))
      ∧ ((∃ q ∈ l.roles, q ≠ r ∧ (l.parts.get q).ended = false) → k.state = l.state)
      ∧ ((∀ q ∈ l.roles, q ≠ r → (l.parts.get q).ended = true) → (∀ q, (k.parts.get q).gapRunning = false)
          ∧ (l.state = .loaded → k.state = .closed)
          ∧ (l.state = .stalled ∨ (l.state = .running ∧ l.openSegment = none) →
              k.state = if l.window = [] then .closed else .ending)
          ∧ (∀ g, l.state = .running → l.openSegment = some g → (slot, g.number) ∉ s.admissions →
              (∀ c, l.cuttingSegment = some c → c.number ≠ g.number) →
              k.state = .ending ∧ k.cutCleared
              ∧ (g.cutStamp = none → (∀ q, (g.ranges.get q).skewEnded = false) → ∃ h ∈ k.window, l.sealsOpen g h))) := by
  obtain ⟨t, j, u, k, f, cuts, hu, record, ends, stays⟩ := State.roleEnd_steps h hst hp he
  have hs : ¬ (l.state = .ending ∨ l.state = .closed) := by rcases hst with e | e | e <;> simp [e]
  have window : (l.roleEnded r).failedOver.window = l.window := (l.roleEnded r).failedOver_window
  have openSame : (l.roleEnded r).failedOver.openSegment = l.openSegment := by
    rw [Lecture.openSegment, window, Lecture.openSegment]
  have cuttingSame : (l.roleEnded r).failedOver.cuttingSegment = l.cuttingSegment := by
    rw [Lecture.cuttingSegment, window, Lecture.cuttingSegment]
  have stateSame : j.state = l.state := cuts.state.trans (l.roleEnded r).failedOver_state
  have empty : (j.window = []) = (l.window = []) := propext (window ▸ cuts.empty)
  have alike : l.alike j := ((l.roleEnded_alike r).trans (l.roleEnded r).failedOver_alike).trans
    ⟨fun q => by rw [cuts.parts], fun q => by rw [cuts.parts], cuts.length⟩
  have parts : ∀ q, ∃ c, j.parts.get q = { (l.roleEnded r).parts.get q with candidates := c } := fun q => by
    rw [cuts.parts]
    exact (l.roleEnded r).failedOver_part q
  have cutting : ∀ c, l.cuttingSegment = some c → (∀ h ∈ l.window, h.number = c.number → h = c) →
      (slot, c.number) ∉ s.admissions → (∀ d ∈ j.window, d.number = c.number → d.state ≠ .opened)
        ∧ ((c.ranges.get r).cut ≠ .pending → j.stands ((slot, c.number) ∈ t.admissions) c.number (· = c))
        ∧ ((c.ranges.get r).cut = .pending → j.stands ((slot, c.number) ∈ t.admissions) c.number (l.cutsTo r c)) :=
    fun c hc only => cuts.cutting c (cuttingSame.trans hc) (by rw [window]; exact only)
  by_cases all : ∀ q ∈ l.roles, q ≠ r → (l.parts.get q).ended = true
  · obtain ⟨v, ends⟩ := ends all
    have flags : ∃ c m, (k.marked f).parts.get r = { (l.roleEnded r).parts.get r with candidates := c, lowMark := m } := by
      obtain ⟨c, hc⟩ := ends.parts r
      obtain ⟨d, hd⟩ := parts r
      exact ⟨c, f r, by rw [Lecture.marked_part, hc, hd, Lecture.roleEnded_part]⟩
    obtain ⟨c, m, flags⟩ := flags
    obtain ⟨ended, silent, stopped⟩ := Lecture.roleEnded_flags flags
    refine ⟨u, _, hu, record, ended, silent, stopped, fun _ q hq => ?_, fun c hc only hn => ?_,
      fun ⟨q, hq, hne, hn⟩ => absurd ((all q hq hne).symm.trans hn) nofun, fun _ => ⟨fun q => ?_, ends.loaded,
      fun hu => ?_, fun g hr hg hn hne => ?_⟩⟩
    · obtain ⟨hne, hl⟩ := ranked_find_live hq
      have hn : (l.parts.get q).ended = true := all q (Lecture.mem_roles_of_live hl) hne
      simp [Lecture.live, hn] at hl
    · obtain ⟨unopened, decided, pending⟩ := cutting c hc only hn
      refine ⟨fun hr => ?_, fun hr => ends.stands _ _ (pending hr) unopened⟩
      obtain ⟨a, ha, rfl⟩ := ends.stands _ _ (decided hr) unopened
      exact ha
    · obtain ⟨c, hc⟩ := ends.parts q
      rw [Lecture.marked_part, hc]
    · have closes := ends.unopened (hu.imp_right fun ⟨hr, ho⟩ => ⟨hr, cuts.unopened (openSame.trans ho)⟩)
      simp only [empty] at closes
      exact closes
    · obtain ⟨ending, cleared, seals⟩ := ends.seals hr g (cuts.opened g (openSame.trans hg) hn
        fun c hc => hne c (cuttingSame.symm.trans hc))
      refine ⟨ending, Lecture.marked_cutCleared cleared f, fun hc hsk => ?_⟩
      obtain ⟨d, hd, hseal⟩ := seals hc hsk
      exact ⟨d, hd, alike.sealsOpen hseal⟩
  · have other : ∃ q ∈ l.roles, q ≠ r ∧ (l.parts.get q).ended = false := by
      by_contra hn
      exact all fun q hq hne => Bool.of_not_eq_false fun e => hn ⟨q, hq, hne, e⟩
    obtain rfl := stays other
    obtain ⟨d, hd⟩ := parts r
    obtain ⟨ended, silent, stopped⟩ := Lecture.roleEnded_flags (p := (k.marked f).parts.get r) (m := f r) (by
      rw [Lecture.marked_part, hd])
    refine ⟨u, _, hu, record, ended, silent, stopped, fun hr q hq => ?_, fun c hc only hn => ?_,
      fun _ => stateSame, fun c => absurd c all⟩
    · have led := Lecture.roleEnded_leads hs hr hq
      refine ⟨cuts.lead.trans (congrArg Lecture.lead led), stateSame, fun p => ?_, cuts.forcedCut.trans (led ▸ rfl)⟩
      rw [Lecture.marked_part, cuts.parts, led, Lecture.ledBy_part]
    · obtain ⟨_, decided, pending⟩ := cutting c hc only hn
      refine ⟨fun hr => ?_, fun hr => ?_⟩
      · obtain ⟨a, ha, _, rfl, _⟩ := decided hr
        exact ha
      · obtain ⟨a, ha, _, hcut, _⟩ := pending hr
        exact ⟨a, ha, hcut⟩

/-- The part of a role that has not ended, once it is heard. -/
theorem Lecture.heard_silent {l : Lecture} {r : Role} (he : (l.parts.get r).ended = false) :
    ((l.heard r).parts.get r).silent = false := by
  rw [Lecture.heard, Lecture.modPart, PerRole.get_set_same, he]
  by_cases hs : l.state = .ending ∨ l.state = .closed <;> simp [hs]

/-- A late drop sets LATE_DROP on the OPEN segment (R40). -/
theorem lateDropReport_marks {s : State} {slot : Nat} {r : Role} {l : Lecture} {g : Segment} (stamp : Stamp)
    (h : s.lecture? slot = some l) (hp : (l.parts.get r).present = true) (hg : l.openSegment = some g) :
    ∃ t k, exec (.lateDropReport slot r stamp) s = .next t ∧ t.lecture? slot = some k
      ∧ (∃ h ∈ k.window, h.number = g.number ∧ h.lateDrop = true)
      ∧ ((l.parts.get r).ended = false → (k.parts.get r).silent = false) := by
  have got : (s.received (.lateDropReport slot r stamp)).lecture? slot = some l := h
  have marks := State.failover_turns (State.setLecture_turns (s.received (.lateDropReport slot r stamp)) slot
    ((l.heard r).modSegment g.number (fun g => { g with lateDrop := true }))).record
  have step : exec (.lateDropReport slot r stamp) s = .next (((s.received (.lateDropReport slot r stamp)).setLecture slot
      ((l.heard r).modSegment g.number (fun g => { g with lateDrop := true }))).failover slot) := by
    have opened : (l.heard r).openSegment = some g := hg
    show Host.Outcome.next (State.lateDrop _ slot r) = _
    simp only [State.lateDrop, got, hp, opened, Bool.true_eq_false, if_false]
  refine ⟨_, _, step, marks.record, ?_, fun he => ?_⟩
  · rw [Lecture.failedOver_window]
    exact ⟨{ g with lateDrop := true }, List.mem_map.2 ⟨g, Lecture.openSegment_mem hg, if_pos rfl⟩, rfl, rfl⟩
  · obtain ⟨c, hc⟩ := ((l.heard r).modSegment g.number (fun g => { g with lateDrop := true })).failedOver_part r
    rw [hc]
    exact Lecture.heard_silent he

/-- An overrun report sets DAMAGED on the OPEN segment (R61). -/
theorem exec_overrunReport {s : State} {slot : Nat} {l : Lecture} {g : Segment} (h : s.lecture? slot = some l)
    (hg : l.openSegment = some g) :
    exec (.overrunReport slot) s = .next ((s.received (.overrunReport slot)).setLecture slot
      (l.modSegment g.number (fun h => { h with damaged := true }))) := by
  have got : (s.received (.overrunReport slot)).lecture? slot = some l := h
  show Host.Outcome.next (State.overrunDamage _ slot) = _
  simp only [State.overrunDamage, State.modLecture, got, hg]

/-- Settles O38: the steps of a role-end notice, and the two reports that mark the OPEN segment. -/
theorem intakeReports : Obligations.IntakeReports := by
  refine fun s slot r l h => ⟨roleEndNotice_ends s slot r l h, fun he => ?_,
    fun stamp g _ hp hg => lateDropReport_marks stamp h hp hg, fun g hg => ?_⟩
  · show Host.Outcome.next (State.roleEnd _ slot r).serveClaims = _
    rw [State.roleEnd_ended (s := s.received (.roleEndNotice slot r)) (l := l) h he]
  · exact ⟨_, exec_overrunReport h hg, State.lecture?_setLecture_same .., rfl, rfl⟩

end Sys2Proof.Machine
end

section
/-! PROOF. The requests that stay under way: no operation of the STC or the IKU, and no claim that is served, takes back a
wake of a channel or a discard request for a lane's job (R87, R152). -/

namespace Sys2Proof.Machine

/-- The messages by which an abort or a close asks other owners: wakes of channels and discard requests (R87, R152). -/
def isAsk : Instr → Bool
  | .channelWake _ => true
  | .discardRequest _ _ => true
  | _ => false

/-- The requests under way. -/
def State.asks (s : State) : List Instr := s.sent.filter isAsk

theorem State.mem_asks {s : State} {m : Instr} (h : isAsk m = true) : m ∈ s.asks ↔ m ∈ s.sent := by
  simp [State.asks, h]

/-- A request under way in `s` is under way in a state with the same requests. -/
theorem State.sent_of_asks {s t : State} {m : Instr} (e : t.asks = s.asks) (h : isAsk m = true) (hm : m ∈ s.sent) :
    m ∈ t.sent :=
  (State.mem_asks h).1 (e ▸ (State.mem_asks h).2 hm)

theorem asks_mk (s : State) (a : List Instr) (b : Ccu) (c : Trr) (d : Trt) (e : Iku) (f : Sgc) (g : Jdp)
    (h : Table Lane) (i : Table Group) (j : Stc) (k : List Host.Cell) (l : Table Channel) (m : Nat) :
    (State.mk a s.sent b c d e f g h i j k l m).asks = s.asks := rfl

theorem State.send_asks (s : State) {m : Instr} (h : isAsk m = false) : (s.send m).asks = s.asks := by
  simp [State.asks, h]

@[simp] theorem State.setBuf_asks (s : State) (i : Nat) (x : Buf) : (State.setBuf s i x).asks = s.asks := rfl

@[simp] theorem State.freeBuf_asks (s : State) (i : Nat) : (State.freeBuf s i).asks = s.asks := rfl

@[simp] theorem State.setIntake_asks (s : State) (slot : Nat) (r : Role) (x : IntakeRec) :
    (State.setIntake s slot r x).asks = s.asks := rfl

@[simp] theorem State.setBank_asks (s : State) (b : Nat) (x : Bank) : (State.setBank s b x).asks = s.asks := rfl

@[simp] theorem State.setBlock_asks (s : State) (g : Nat) (x : BlockRec) : (State.setBlock s g x).asks = s.asks := rfl

@[simp] theorem State.setBlockState_asks (s : State) (g : Nat) (st : BlockState) :
    (State.setBlockState s g st).asks = s.asks := rfl

@[simp] theorem State.setRun_asks (s : State) (slot : Nat) (r : Role) (x : Run) :
    (State.setRun s slot r x).asks = s.asks := rfl

@[simp] theorem State.setExtent_asks (s : State) (n : Nat) (x : Extent) : (State.setExtent s n x).asks = s.asks := rfl

@[simp] theorem State.setLane_asks (s : State) (n : Nat) (l : Lane) : (State.setLane s n l).asks = s.asks := rfl

@[simp] theorem State.setJob_asks (s : State) (j : Nat) (x : Job) : (State.setJob s j x).asks = s.asks := rfl

@[simp] theorem State.setReloc_asks (s : State) (x : Relocation) : (State.setReloc s x).asks = s.asks := rfl

@[simp] theorem State.dropReloc_asks (s : State) (failed : Nat) : (State.dropReloc s failed).asks = s.asks := rfl

@[simp] theorem State.addClaim_asks (s : State) (c : Claim) : (State.addClaim s c).asks = s.asks := rfl

@[simp] theorem State.withdrawClaim_asks (s : State) (who : Claimant) : (State.withdrawClaim s who).asks = s.asks := rfl

@[simp] theorem State.queueEvent_asks (s : State) (o : EventObject) (k : EventKind) (content : List Byte) :
    (State.queueEvent s o k content).asks = s.asks := rfl

@[simp] theorem State.lower_asks (s : State) (k : Condition) : (State.lower s k).asks = s.asks := rfl

@[simp] theorem State.mapBanks_asks (s : State) (f : Bank → Bank) : (State.mapBanks s f).asks = s.asks := rfl

@[simp] theorem State.losePages_asks (s : State) (g : Nat) (pages : List Nat) :
    (State.losePages s g pages).asks = s.asks := rfl

@[simp] theorem State.takeExtent_asks (s : State) (n slot segment rendition : Nat) (st : ExtentState) :
    (State.takeExtent s n slot segment rendition st).asks = s.asks := rfl

@[simp] theorem State.queueAlarm_asks (s : State) : s.queueAlarm.asks = s.asks := by
  unfold State.queueAlarm
  split <;> rfl

@[simp] theorem State.raise_asks (s : State) (k : Condition) : (State.raise s k).asks = s.asks := by
  unfold State.raise
  (repeat' split) <;> simp [asks_mk]

@[simp] theorem State.level_asks (s : State) (k : Condition) (holds : Bool) :
    (State.level s k holds).asks = s.asks := by
  unfold State.level
  split <;> simp

@[simp] theorem State.storeEvent_asks (s : State) : (State.storeEvent s).asks = s.asks := rfl

@[simp] theorem State.evalLevels_asks (s : State) : (State.evalLevels s).asks = s.asks := by
  unfold State.evalLevels
  dsimp only
  (repeat' split) <;> simp [asks_mk]

@[simp] theorem State.badlistFull_asks (s : State) : (State.badlistFull s).asks = s.asks := by
  unfold State.badlistFull
  split <;> simp

@[simp] theorem State.startProgram_asks (s : State) (b : Nat) (x : Bank) (p : ProgramReq) :
    (State.startProgram s b x p).asks = s.asks := by
  unfold State.startProgram
  dsimp only
  split <;> simp

@[simp] theorem State.grantCopy_asks (s : State) (b : Nat) (x : Bank) (l : List CopyReq) :
    (State.grantCopy s b x l).1.asks = s.asks := by
  induction l generalizing s with
  | nil => rfl
  | cons c l ih =>
    cases c with
    | read r => rfl
    | program p => exact State.startProgram_asks ..
    | append g =>
      unfold State.grantCopy
      split
      · rw [ih, State.badlistFull_asks]
      · rfl

@[simp] theorem State.grantErase_asks (s : State) (b : Nat) : (State.grantErase s b).asks = s.asks := by
  unfold State.grantErase
  dsimp only
  (repeat' split) <;> simp

@[simp] theorem State.arbitrate_asks (s : State) (b : Nat) : (State.arbitrate s b).asks = s.asks := by
  unfold State.arbitrate
  dsimp only
  (repeat' split) <;> simp

@[simp] theorem State.afterJoin_asks (s : State) (b : Nat) : (State.afterJoin s b).asks = s.asks := by
  unfold State.afterJoin
  dsimp only
  (repeat' split) <;> simp

@[simp] theorem State.joinCopy_asks (s : State) (b : Nat) (r : CopyReq) : (State.joinCopy s b r).asks = s.asks := by
  simp [State.joinCopy]

@[simp] theorem State.joinDeliveryRead_asks (s : State) (r : ReadReq) : (State.joinDeliveryRead s r).asks = s.asks := by
  simp [State.joinDeliveryRead]

@[simp] theorem State.joinLaneRead_asks (s : State) (r : ReadReq) : (State.joinLaneRead s r).asks = s.asks := by
  simp [State.joinLaneRead]

@[simp] theorem State.withdrawReads_asks (s : State) (who : Reader → Bool) :
    (State.withdrawReads s who).asks = s.asks := rfl

@[simp] theorem State.retireBlock_asks (s : State) (g : Nat) : (State.retireBlock s g).asks = s.asks := by
  simp [State.retireBlock]

@[simp] theorem State.badBlock_asks (s : State) (g : Nat) : (State.badBlock s g).asks = s.asks := by
  simp [State.badBlock]

@[simp] theorem State.takeBlock_asks (s : State) (g : Nat) : (State.takeBlock s g).asks = s.asks := by
  simp [State.takeBlock]

@[simp] theorem State.giveBuffer_asks (s : State) (o : BufOwner) (g page : Nat) :
    (State.giveBuffer s o g page).asks = s.asks := by
  unfold State.giveBuffer
  split <;> simp

@[simp] theorem State.offer_asks (s : State) (i : Nat) : (State.offer s i).asks = s.asks := by
  unfold State.offer
  (repeat' split) <;> simp

@[simp] theorem State.discardBuf_asks (s : State) (i : Nat) : (State.discardBuf s i).asks = s.asks := by
  unfold State.discardBuf
  (repeat' split) <;> simp

@[simp] theorem State.discardWhere_asks (s : State) (p : Buf → Bool) : (State.discardWhere s p).asks = s.asks :=
  foldl_keeps State.asks _ (fun _ _ => by simp) _ _

/-- The buffers of a burst given out. -/
@[simp] theorem State.giveBuffers_asks (l : List Nat) (o : BufOwner) (t : Nat) (s : State) :
    (l.foldl (fun (q : State) p => q.giveBuffer o t p) s).asks = s.asks :=
  foldl_keeps State.asks _ (fun _ _ => by simp) _ _

@[simp] theorem State.copyOn_asks (s : State) (o : Owner) (most : Nat) : (State.copyOn s o most).asks = s.asks := by
  unfold State.copyOn
  dsimp only
  (repeat' split) <;> simp

@[simp] theorem State.takeTarget_asks (s : State) (r : Relocation) (g : Nat) :
    (State.takeTarget s r g).asks = s.asks := by
  simp [State.takeTarget]

@[simp] theorem State.askTarget_asks (s : State) (r : Relocation) : (State.askTarget s r).asks = s.asks := by
  unfold State.askTarget
  split <;> simp

@[simp] theorem State.nextReloc_asks (s : State) (o : Owner) : (State.nextReloc s o).asks = s.asks := by
  unfold State.nextReloc
  (repeat' split) <;> simp

@[simp] theorem State.abandonReloc_asks (s : State) (r : Relocation) : (State.abandonReloc s r).asks = s.asks := by
  unfold State.abandonReloc
  (repeat' split) <;> simp

@[simp] theorem State.abandonRelocs_asks (l : List Relocation) (s : State) :
    (l.foldl State.abandonReloc s).asks = s.asks :=
  foldl_keeps State.asks _ (fun _ _ => by simp) _ _

@[simp] theorem State.retireBlocks_asks (l : List Nat) (s : State) :
    (l.foldl (fun q g => if (q.block g).state = .bad then q else q.retireBlock g) s).asks = s.asks :=
  foldl_keeps State.asks _ (fun _ _ => by split <;> simp) _ _

@[simp] theorem State.giveUpBlocks_asks (s : State) (o : Owner) (blocks : List Nat) :
    (State.giveUpBlocks s o blocks).asks = s.asks := by
  simp [State.giveUpBlocks]

@[simp] theorem State.retireHead_asks (s : State) (slot : Nat) (r : Role) (x : Run) (g : Nat) (rest : List Nat) :
    (State.retireHead s slot r x g rest).asks = s.asks := by
  unfold State.retireHead
  dsimp only
  split <;> simp

@[simp] theorem State.retireHeads_asks (s : State) (slot : Nat) (r : Role) (n : Nat) :
    (s.retireHeads slot r n).asks = s.asks := by
  induction n generalizing s with
  | zero => rfl
  | succ n ih =>
    unfold State.retireHeads
    (repeat' split) <;> simp [ih]

@[simp] theorem State.retireTest_asks (s : State) (slot : Nat) (r : Role) :
    (State.retireTest s slot r).asks = s.asks := by
  unfold State.retireTest
  split <;> simp

@[simp] theorem State.releaseRun_asks (s : State) (slot : Nat) (r : Role) : (s.releaseRun slot r).asks = s.asks := by
  unfold State.releaseRun
  split
  · rfl
  next x _ =>
    have released := State.giveUpBlocks_asks (s.withdrawClaim (.run slot r)) (.run slot r) x.blocks
    rw [State.withdrawClaim_asks] at released
    refine Eq.trans ?_ released
    simp only [State.asks, List.filter_filter]
    refine List.filter_congr fun m _ => ?_
    cases m <;> simp [isAsk]

@[simp] theorem State.freeExtentRecord_asks (s : State) (n : Nat) (x : Extent) :
    (s.freeExtentRecord n x).asks = s.asks :=
  (State.send_asks _ rfl).trans (State.giveUpBlocks_asks ..)

@[simp] theorem State.giveUpExtent_asks (s : State) (n slot segment rendition : Nat) :
    (State.giveUpExtent s n slot segment rendition).asks = s.asks := by
  unfold State.giveUpExtent
  (repeat' split) <;> simp

@[simp] theorem State.padBuffer_asks (s : State) (i : Nat) : (State.padBuffer s i).asks = s.asks := by
  unfold State.padBuffer
  split <;> simp

@[simp] theorem State.sealTail_asks (s : State) (o : Owner) (blocks : List Nat) :
    (State.sealTail s o blocks).asks = s.asks := by
  unfold State.sealTail
  dsimp only
  (repeat' split) <;> simp

@[simp] theorem State.closeExtent_asks (s : State) (n slot segment rendition : Nat) :
    (State.closeExtent s n slot segment rendition).asks = s.asks := by
  unfold State.closeExtent
  (repeat' split) <;> simp

@[simp] theorem State.appendRunBlock_asks (s : State) (slot : Nat) (r : Role) (x : Run) (g : Nat) :
    (State.appendRunBlock s slot r x g).asks = s.asks := by
  unfold State.appendRunBlock
  split <;> simp

@[simp] theorem State.appendExtentBlock_asks (s : State) (n : Nat) (x : Extent) (g : Nat) :
    (State.appendExtentBlock s n x g).asks = s.asks := by
  unfold State.appendExtentBlock
  split <;> simp

@[simp] theorem State.runBlock_asks (s : State) (slot : Nat) (r : Role) (x : Run) (pos : Nat) :
    (State.runBlock s slot r x pos).1.asks = s.asks := by
  unfold State.runBlock
  (repeat' split) <;> simp

@[simp] theorem State.runBuffer_asks (s : State) (slot : Nat) (r : Role) (pos : Nat) :
    (State.runBuffer s slot r pos).1.asks = s.asks := by
  unfold State.runBuffer
  (repeat' split) <;> simp

@[simp] theorem State.runReady_asks (s : State) (slot : Nat) (r : Role) (pos : Nat) :
    (State.runReady s slot r pos).1.asks = s.asks := by
  unfold State.runReady
  dsimp only
  (repeat' split) <;> simp

@[simp] theorem State.putRun_asks (s : State) (slot : Nat) (r : Role) (bs : List Byte) :
    (State.putRun s slot r bs).asks = s.asks := by
  unfold State.putRun
  dsimp only
  (repeat' split) <;> simp

@[simp] theorem State.writeRun_asks (slot : Nat) (r : Role) (n : Nat) (bs : List Byte) (s : State) :
    (State.writeRun slot r n bs s).1.asks = s.asks := by
  induction n generalizing s bs with
  | zero => rfl
  | succ n ih =>
    unfold State.writeRun
    dsimp only
    (repeat' split) <;> simp [ih]

@[simp] theorem State.writeBytes_asks (s : State) (slot : Nat) (r : Role) (bs : List Byte) :
    (State.writeBytes s slot r bs).1.asks = s.asks := by
  simp [State.writeBytes]

@[simp] theorem State.startOverrun_asks (s : State) (slot : Nat) (r : Role) :
    (State.startOverrun s slot r).asks = s.asks := by
  rw [State.startOverrun, State.raise_asks, State.send_asks _ rfl, State.setIntake_asks]

@[simp] theorem State.noticeUnit_asks (s : State) (slot : Nat) (r : Role) (stamp : Stamp) (key good : Bool)
    (start : Nat) : (State.noticeUnit s slot r stamp key good start).asks = s.asks := by
  unfold State.noticeUnit
  dsimp only
  rw [State.send_asks _ rfl, State.setIntake_asks]
  (repeat' split) <;> simp

@[simp] theorem State.completeUnit_asks (s : State) (slot : Nat) (r : Role) (u : BrokenUnit) :
    (State.completeUnit s slot r u).1.asks = s.asks := by
  unfold State.completeUnit
  dsimp only
  split <;> simp

@[simp] theorem State.holdBroken_asks (s : State) (slot : Nat) (r : Role) (u : BrokenUnit) :
    (State.holdBroken s slot r u).asks = s.asks := rfl

@[simp] theorem State.breakUnit_asks (s : State) (slot : Nat) (r : Role) :
    (State.breakUnit s slot r).asks = s.asks := by
  unfold State.breakUnit
  dsimp only
  (repeat' split) <;> simp

@[simp] theorem State.closeRunTail_asks (s : State) (slot : Nat) (r : Role) :
    (State.closeRunTail s slot r).asks = s.asks := by
  unfold State.closeRunTail
  split <;> simp

@[simp] theorem State.closeRole_asks (s : State) (slot : Nat) (r : Role) :
    (State.closeRole s slot r).asks = s.asks := by
  unfold State.closeRole
  dsimp only
  (repeat' split) <;> simp

@[simp] theorem State.dropRole_asks (s : State) (slot : Nat) (r : Role) : (State.dropRole s slot r).asks = s.asks := rfl

@[simp] theorem State.overrunGranted_asks (s : State) (slot : Nat) (r : Role) :
    (State.overrunGranted s slot r).asks = s.asks := by
  unfold State.overrunGranted
  dsimp only
  (repeat' split) <;> simp

@[simp] theorem State.laneFill_asks (s : State) (n : Nat) : (State.laneFill s n).asks = s.asks := by
  unfold State.laneFill
  (repeat' split) <;> simp

@[simp] theorem State.laneTakeBuffer_asks (s : State) (n e : Nat) (x : Extent) :
    (State.laneTakeBuffer s n e x).asks = s.asks := by
  simp [State.laneTakeBuffer]

@[simp] theorem State.unhold_asks (s : State) (n : Nat) : (State.unhold s n).asks = s.asks := rfl

@[simp] theorem State.hold_asks (s : State) (n : Nat) (kind : ClaimKind) : (State.hold s n kind).asks = s.asks := rfl

@[simp] theorem State.giveRun_asks (s : State) (slot : Nat) (r : Role) (kind : ClaimKind) :
    (State.giveRun s slot r kind).asks = s.asks := by
  unfold State.giveRun
  (repeat' split) <;> simp

@[simp] theorem State.giveLane_asks (s : State) (n : Nat) (kind : ClaimKind) :
    (State.giveLane s n kind).asks = s.asks := by
  unfold State.giveLane
  (repeat' split) <;> simp

@[simp] theorem State.grant_asks (s : State) (c : Claim) : (State.grant s c).asks = s.asks := by
  unfold State.grant
  dsimp only
  (repeat' split) <;> simp

@[simp] theorem State.serveLoop_asks (n : Nat) (s : State) : (State.serveLoop n s).asks = s.asks := by
  induction n generalizing s with
  | zero => rfl
  | succ n ih =>
    unfold State.serveLoop
    split <;> simp [ih]

@[simp] theorem State.endOverruns_asks (s : State) (before : List Claim) : (s.endOverruns before).asks = s.asks :=
  foldl_keeps State.asks _ (fun _ _ => by split <;> simp) _ _

@[simp] theorem State.resumeCopies_asks (s : State) : s.resumeCopies.asks = s.asks :=
  foldl_keeps State.asks _ (fun _ _ => by split <;> simp) _ _

@[simp] theorem State.serveClaims_asks (s : State) : s.serveClaims.asks = s.asks := by
  simp [State.serveClaims]

end Sys2Proof.Machine
end


section
/-! PROOF. What padding and offering the FILLING buffer of a run does to the page buffers and the banks (R119, R125,
R130): with no relocation, nothing but programs of the intake class starts. -/

namespace Sys2Proof.Machine

/-! ## Tables in rising order -/

theorem Table.at?_of_mem {α : Type} {t : Table α} (h : t.sorted) {n : Nat} {v : α} (hm : (n, v) ∈ t) :
    t.at? n = some v := by
  induction t with
  | nil => cases hm
  | cons e t ih =>
    obtain ⟨k, w⟩ := e
    rw [Table.at?_cons]
    rcases List.mem_cons.1 hm with he | he
    · obtain ⟨rfl, rfl⟩ := Prod.mk.inj he
      exact if_pos rfl
    · have hlt : k < n := List.rel_of_pairwise_cons h (List.mem_map_of_mem (f := fun e => e.1) he)
      rw [if_neg (by omega)]
      exact ih (List.Pairwise.of_cons h) he

/-- The first number under which a record meets a test, in a table in rising order. -/
theorem Table.find?_iff {α : Type} {t : Table α} (h : t.sorted) (p : α → Bool) (n : Nat) :
    (t.find? (fun e => p e.2)).map (fun e => e.1) = some n
      ↔ (∃ v, t.at? n = some v ∧ p v = true) ∧ ∀ k w, k < n → t.at? k = some w → p w = false := by
  induction t with
  | nil => simp
  | cons e t ih =>
    obtain ⟨k, w⟩ := e
    have above : ∀ m v, Table.at? t m = some v → k < m := fun m v hv =>
      List.rel_of_pairwise_cons h (List.mem_map_of_mem (f := fun e => e.1) (Table.mem_of_at? hv))
    have tail := ih (List.Pairwise.of_cons h)
    simp only [Table.at?_cons]
    by_cases hp : p w = true
    · rw [List.find?_cons_of_pos (by exact hp)]
      refine ⟨fun e => ?_, fun ⟨⟨v, hv, hpv⟩, low⟩ => ?_⟩
      · obtain rfl : k = n := Option.some.inj e
        refine ⟨⟨w, if_pos rfl, hp⟩, fun m v hm hv => ?_⟩
        rw [if_neg (by omega)] at hv
        exact absurd (above m v hv) (by omega)
      · by_cases hk : k = n
        · rw [hk]
          rfl
        · rw [if_neg hk] at hv
          exact absurd (low k w (above n v hv) (if_pos rfl)) (by simp [hp])
    · rw [List.find?_cons_of_neg (by exact hp), tail]
      refine ⟨fun ⟨⟨v, hv, hpv⟩, low⟩ => ⟨⟨v, ?_, hpv⟩, fun m u hm hu => ?_⟩,
        fun ⟨⟨v, hv, hpv⟩, low⟩ => ⟨⟨v, ?_, hpv⟩, fun m u hm hu => low m u hm ?_⟩⟩
      · rw [if_neg (by have := above n v hv; omega)]
        exact hv
      · by_cases hk : k = m
        · rw [if_pos hk] at hu
          rw [← Option.some.inj hu]
          exact eq_false_of_ne_true hp
        · rw [if_neg hk] at hu
          exact low m u hm hu
      · by_cases hk : k = n
        · rw [if_pos hk] at hv
          rw [← Option.some.inj hv] at hpv
          exact absurd hpv hp
        · rwa [if_neg hk] at hv
      · rw [if_neg (by have := above m u hu; omega)]
        exact hu

/-- A buffer of an owner that is FILLING. -/
def Buf.fills (d : Buf) (o : Owner) : Prop := d.owner = .own o ∧ d.state = .filling

/-- The FILLING buffer of an owner is its lowest one. -/
theorem State.fillingOf_iff {s : State} (h : s.stc.buffers.sorted) (o : Owner) (i : Nat) :
    s.fillingOf o = some i
      ↔ (∃ d, s.buf? i = some d ∧ d.fills o) ∧ ∀ j d, j < i → s.buf? j = some d → ¬ d.fills o := by
  have test : ∀ d : Buf, (d.owner == .own o && d.state == .filling) = true ↔ d.fills o := fun d => by
    simp [Buf.fills]
  refine (Table.find?_iff h (fun d => d.owner == .own o && d.state == .filling) i).trans ?_
  simp only [← Bool.not_eq_true, test]
  rfl

/-! ## A bank's grant among programs of the intake class (R130, R131) -/

/-- The part with the banks and the page buffers left out. -/
def State.besides (s : State) : State := { s with stc := { s.stc with banks := [], buffers := [] } }

/-- A queued program of the intake class names a page buffer. -/
def State.queued (s : State) (j : Nat) : Prop := ∃ b, ∃ p ∈ (s.bank b).intakeProgram, p.buffer = j

/-- From `s` to `t` the program of a queued buffer, at most, has started. -/
structure State.grantsProgram (s t : State) : Prop where
  besides : t.besides = s.besides
  sorted : s.stc.buffers.sorted → t.stc.buffers.sorted
  queued : ∀ j, t.queued j → s.queued j
  buffers : ∀ j, t.buf? j = s.buf? j
    ∨ ∃ d, s.buf? j = some d ∧ t.buf? j = some { d with state := .programming } ∧ s.queued j

/-- A change of a bank that adds no program of the intake class. -/
theorem State.setBank_grantsProgram {s : State} {b : Nat} {x : Bank}
    (h : ∀ p ∈ x.intakeProgram, p ∈ (s.bank b).intakeProgram) : s.grantsProgram (s.setBank b x) where
  besides := rfl
  sorted := id
  queued j := fun ⟨c, p, hp, hj⟩ => by
    by_cases hc : c = b
    · subst hc
      rw [State.bank_setBank_same] at hp
      exact ⟨c, p, h p hp, hj⟩
    · rw [State.bank_setBank_ne _ _ hc] at hp
      exact ⟨c, p, hp, hj⟩
  buffers _ := .inl rfl

theorem State.buf?_setBuf_same (s : State) (i : Nat) (d : Buf) : (s.setBuf i d).buf? i = some d :=
  Table.at?_put_same ..

theorem State.buf?_setBuf_ne (s : State) {i j : Nat} (d : Buf) (h : j ≠ i) : (s.setBuf i d).buf? j = s.buf? j :=
  Table.at?_put_ne _ _ h

/-- The start of the program at the head of a bank's intake class. -/
theorem State.startProgram_grantsProgram {s : State} {b : Nat} {p : ProgramReq} {rest : List ProgramReq}
    (h : (s.bank b).intakeProgram = p :: rest) :
    s.grantsProgram (s.startProgram b { s.bank b with intakeProgram := rest } p) := by
  have set : s.grantsProgram (s.setBank b { s.bank b with intakeProgram := rest, op := some (.program p) }) :=
    State.setBank_grantsProgram fun q hq => h ▸ List.mem_cons_of_mem _ hq
  have named : s.queued p.buffer := ⟨b, p, h ▸ List.mem_cons_self, rfl⟩
  unfold State.startProgram
  dsimp only
  split
  · exact set
  next d hd =>
    refine ⟨set.besides, fun hs => Table.sorted_put _ _ _ (set.sorted hs), set.queued, fun j => ?_⟩
    by_cases hj : j = p.buffer
    · subst hj
      exact .inr ⟨d, hd, State.buf?_setBuf_same .., named⟩
    · rw [State.buf?_setBuf_ne _ _ hj]
      exact set.buffers j

/-- With a program of the intake class waiting, the arbiter starts that or nothing. -/
theorem State.arbitrate_grantsProgram {s : State} {b : Nat} {p : ProgramReq} {rest : List ProgramReq}
    (h : (s.bank b).intakeProgram = p :: rest) : s.grantsProgram (s.arbitrate b) := by
  unfold State.arbitrate
  dsimp only
  split
  · exact ⟨rfl, id, fun _ => id, fun _ => .inl rfl⟩
  · rw [h]
    exact State.startProgram_grantsProgram h

theorem State.afterJoin_grantsProgram {s : State} {b : Nat} {p : ProgramReq} {rest : List ProgramReq}
    (h : (s.bank b).intakeProgram = p :: rest) : s.grantsProgram (s.afterJoin b) := by
  unfold State.afterJoin
  dsimp only
  split
  · split
    · exact State.setBank_grantsProgram fun _ => id
    · exact State.arbitrate_grantsProgram h
  · exact State.arbitrate_grantsProgram h

/-! ## The padded buffer (R119) -/

/-- A buffer padded with 0xFF to the end of its page, all committed. -/
def Buf.padded (d : Buf) : Buf :=
  { d with
    state := .pending, committed := Config.pageBytes
    data := d.data ++ List.replicate (Config.pageBytes - d.data.length) erasedByte }

/-- From `s` to `t` buffer `i` has been padded and offered, and programs of queued buffers may have started. -/
structure State.pads (s t : State) (i : Nat) (c : Buf) : Prop where
  besides : t.besides = s.besides
  sorted : s.stc.buffers.sorted → t.stc.buffers.sorted
  queued : ∀ j, t.queued j → j = i ∨ s.queued j
  own : t.buf? i = some c.padded ∨ t.buf? i = some { c.padded with state := .programming }
  others : ∀ j, j ≠ i → t.buf? j = s.buf? j
    ∨ ∃ d, s.buf? j = some d ∧ t.buf? j = some { d with state := .programming } ∧ s.queued j

theorem State.padBuffer_pads {s : State} {i : Nat} {c : Buf} {slot : Nat} {r : Role} (h : s.buf? i = some c)
    (ho : c.owner = .own (.run slot r)) (hr : s.stc.relocations = []) : s.pads (s.padBuffer i) i c := by
  have still : (s.setBuf i c.padded).relocating c.block = false := by
    show s.stc.relocations.any _ = false
    rw [hr]
    rfl
  have got : (s.setBuf i c.padded).buf? i = some c.padded := State.buf?_setBuf_same ..
  obtain ⟨x, hx⟩ : ∃ x, x = (s.setBuf i c.padded).bank (bankOf c.block) := ⟨_, rfl⟩
  obtain ⟨p, hp⟩ : ∃ p : ProgramReq, p = ⟨i, c.block, c.page⟩ := ⟨_, rfl⟩
  have pads : s.padBuffer i = ((s.setBuf i c.padded).setBank (bankOf c.block)
      { x with intakeProgram := x.intakeProgram ++ [p] }).afterJoin (bankOf c.block) := by
    have owner : c.padded.owner = .own (.run slot r) := ho
    simp only [State.padBuffer, h]
    show (s.setBuf i c.padded).offer i = _
    simp only [State.offer, got, show c.padded.block = c.block from rfl, still, Bool.false_eq_true, if_false, owner]
    rw [hx, hp]
    rfl
  obtain ⟨q, hq⟩ : ∃ q, q = (s.setBuf i c.padded).setBank (bankOf c.block)
      { x with intakeProgram := x.intakeProgram ++ [p] } := ⟨_, rfl⟩
  have waiting : (q.bank (bankOf c.block)).intakeProgram = x.intakeProgram ++ [p] := by
    rw [hq, State.bank_setBank_same]
  obtain ⟨p₀, rest, hne⟩ : ∃ p₀ rest, (q.bank (bankOf c.block)).intakeProgram = p₀ :: rest :=
    List.exists_cons_of_ne_nil (by rw [waiting]; simp)
  have joined : ∀ j, q.queued j → j = i ∨ s.queued j := fun j ⟨b, p', hp', hj⟩ => by
    by_cases hb : b = bankOf c.block
    · subst hb
      rw [waiting] at hp'
      rcases List.mem_append.1 hp' with hm | hm
      · exact .inr ⟨_, p', by rw [hx] at hm; exact hm, hj⟩
      · rw [List.mem_singleton.1 hm, hp] at hj
        exact .inl hj.symm
    · rw [hq, State.bank_setBank_ne _ _ hb] at hp'
      exact .inr ⟨b, p', hp', hj⟩
  have own : q.buf? i = some c.padded := by
    rw [hq]
    exact got
  have other : ∀ j, j ≠ i → q.buf? j = s.buf? j := fun j hj => by
    rw [hq]
    exact State.buf?_setBuf_ne _ _ hj
  rw [pads, ← hq]
  obtain ⟨besides, sorted, queued, buffers⟩ := State.afterJoin_grantsProgram hne
  refine ⟨by rw [besides, hq]; rfl, fun hs => sorted (by rw [hq]; exact Table.sorted_put _ _ _ hs),
    fun j hj => joined j (queued j hj), ?_, fun j hj => ?_⟩
  · rcases buffers i with e | ⟨d, hd, e, _⟩
    · exact .inl (e.trans own)
    · rw [own] at hd
      rw [← Option.some.inj hd] at e
      exact .inr e
  · rw [← other j hj]
    rcases buffers j with e | ⟨d, hd, e, hqj⟩
    · exact .inl e
    · exact .inr ⟨d, hd, e, (joined j hqj).resolve_left hj⟩

end Sys2Proof.Machine
end

section
/-! PROOF. The close of the roles of a lecture (R64): what the close of one role leaves of the others, and what it makes
of its own run. -/

namespace Sys2Proof.Machine

/-- No claim waits, nothing is being relocated, and the page buffers stand in rising number. -/
structure State.calm (s : State) : Prop where
  claims : s.stc.claims = []
  relocations : s.stc.relocations = []
  sorted : s.stc.buffers.sorted

/-- What a step that closes other roles leaves to role `r` of `slot`: its records, its page buffers but for programs
that start, the messages under way, and the blocks, some of which are sealed. -/
structure State.passes (s t : State) (slot : Nat) (r : Role) : Prop where
  calm : t.calm
  run : t.run? slot r = s.run? slot r
  intake : t.intake slot r = s.intake slot r
  sent : ∀ m ∈ s.sent, m ∈ t.sent
  block : ∀ g, (t.block g).state = (s.block g).state ∨ ((s.block g).state = .opened ∧ (t.block g).state = .sealed)
  buffers : ∀ j d, s.buf? j = some d → d.owner = .own (.run slot r) →
    t.buf? j = some d ∨ (t.buf? j = some { d with state := .programming } ∧ s.queued j)
  fills : ∀ j e, t.buf? j = some e → e.fills (.run slot r) → s.buf? j = some e
  queued : ∀ j d, s.buf? j = some d → d.owner = .own (.run slot r) → t.queued j → s.queued j

theorem State.passes_refl {s : State} (h : s.calm) (slot : Nat) (r : Role) : s.passes s slot r :=
  ⟨h, rfl, rfl, fun _ => id, fun _ => .inl rfl, fun _ _ hd _ => .inl hd, fun _ _ he _ => he, fun _ _ _ _ => id⟩

theorem State.passes.trans {s t u : State} {slot : Nat} {r : Role} (h : s.passes t slot r) (h' : t.passes u slot r) :
    s.passes u slot r where
  calm := h'.calm
  run := h'.run.trans h.run
  intake := h'.intake.trans h.intake
  sent m hm := h'.sent m (h.sent m hm)
  block g := by
    rcases h.block g with e | ⟨ho, hs⟩
    · rw [← e]
      exact h'.block g
    · rcases h'.block g with e | ⟨ho', _⟩
      · exact .inr ⟨ho, e.trans hs⟩
      · exact absurd (hs.symm.trans ho') nofun
  buffers j d hd ho := by
    rcases h.buffers j d hd ho with e | ⟨e, hq⟩
    · exact (h'.buffers j d e ho).imp_right fun ⟨e', hq⟩ => ⟨e', h.queued j d hd ho hq⟩
    · rcases h'.buffers j _ e ho with e' | ⟨e', _⟩
      · exact .inr ⟨e', hq⟩
      · exact .inr ⟨e', hq⟩
  fills j e he hf := h.fills j e (h'.fills j e he hf) hf
  queued j d hd ho hq := by
    rcases h.buffers j d hd ho with e | ⟨e, hs⟩
    · exact h.queued j d hd ho (h'.queued j d e ho hq)
    · exact hs

/-- The FILLING buffer of the role stays it where no queued program names it. -/
theorem State.passes.fillingOf {s t : State} {slot : Nat} {r : Role} (h : s.passes t slot r) (hs : s.calm) {i : Nat}
    (hi : s.fillingOf (.run slot r) = some i) (hq : ¬ s.queued i) : t.fillingOf (.run slot r) = some i := by
  rw [State.fillingOf_iff hs.sorted] at hi
  rw [State.fillingOf_iff h.calm.sorted]
  obtain ⟨⟨d, hd, hf⟩, low⟩ := hi
  refine ⟨⟨d, ?_, hf⟩, fun j e hj he hfe => low j e hj (h.fills j e he hfe) hfe⟩
  exact (h.buffers i d hd hf.1).resolve_right fun ⟨_, hn⟩ => hq hn

theorem State.passes.buf?_filling {s t : State} {slot : Nat} {r : Role} (h : s.passes t slot r) {i : Nat} {d : Buf}
    (hd : s.buf? i = some d) (ho : d.owner = .own (.run slot r)) (hq : ¬ s.queued i) : t.buf? i = some d :=
  (h.buffers i d hd ho).resolve_right fun ⟨_, hn⟩ => hq hn

/-- A tail that has been closed stays so. -/
theorem State.passes.tailClosed {s t : State} {slot : Nat} {r : Role} (h : s.passes t slot r) {i : Nat} {c : Buf}
    {data : List Byte} (ho : c.owner = .own (.run slot r)) (hc : s.tailClosed i c data) : t.tailClosed i c data := by
  obtain ⟨d, hd, howner, hblock, hpage, hdata, hcommitted, hstate⟩ := hc
  rcases h.buffers i d hd (howner.trans ho) with e | ⟨e, _⟩
  · exact ⟨d, e, howner, hblock, hpage, hdata, hcommitted, hstate⟩
  · exact ⟨_, e, howner, hblock, hpage, hdata, hcommitted, .inr rfl⟩

/-! ## The tail of a run (R64, R119) -/

theorem State.sent_of_besides {s t : State} (h : t.besides = s.besides) : t.sent = s.sent :=
  (congrArg State.sent h :)

theorem State.iku_of_besides {s t : State} (h : t.besides = s.besides) : t.iku = s.iku :=
  (congrArg State.iku h :)

theorem State.run?_of_besides {s t : State} (h : t.besides = s.besides) (slot : Nat) (r : Role) :
    t.run? slot r = s.run? slot r :=
  (congrArg (fun q : State => q.run? slot r) h :)

theorem State.block_of_besides {s t : State} (h : t.besides = s.besides) (g : Nat) : t.block g = s.block g :=
  (congrArg (fun q : State => q.block g) h :)

theorem State.block_setBlockState_same (s : State) (g : Nat) (st : BlockState) :
    ((s.setBlockState g st).block g).state = st := by
  simp [State.block, State.setBlockState, State.setBlock]

theorem State.block_setBlockState_ne (s : State) {g k : Nat} (st : BlockState) (h : k ≠ g) :
    (s.setBlockState g st).block k = s.block k := by
  simp [State.block, State.setBlockState, State.setBlock, Table.atD_put_ne _ _ _ h]

/-- What sealing the tail of a run does. -/
structure State.sealsTail (s t : State) (o : Owner) (blocks : List Nat) : Prop where
  iku : t.iku = s.iku
  sent : t.sent = s.sent
  runs : t.stc.runs = s.stc.runs
  calm : t.calm
  block : ∀ g, (t.block g).state
    = if blocks.getLast? = some g ∧ (s.block g).state = .opened then .sealed else (s.block g).state
  own : ∀ i c, s.fillingOf o = some i → s.buf? i = some c →
    t.buf? i = some c.padded ∨ t.buf? i = some { c.padded with state := .programming }
  others : ∀ j, s.fillingOf o ≠ some j → t.buf? j = s.buf? j
    ∨ ∃ d, s.buf? j = some d ∧ t.buf? j = some { d with state := .programming } ∧ s.queued j
  queued : ∀ j, t.queued j → s.fillingOf o = some j ∨ s.queued j

/-- The tail block of a list becomes SEALED where it is OPEN. -/
def State.sealLast (s : State) (blocks : List Nat) : State :=
  match blocks.getLast? with
  | none => s
  | some g => if (s.block g).state = .opened then s.setBlockState g .sealed else s

/-- Sealing the tail block touches its state alone. -/
theorem State.sealLast_sealsTail {s t : State} {o : Owner} (blocks : List Nat) (h : s.sealsTail t o []) :
    s.sealsTail (t.sealLast blocks) o blocks := by
  have same : ∀ g, (t.block g).state = (s.block g).state := fun g => h.block g
  unfold State.sealLast
  split
  next hl => exact ⟨h.iku, h.sent, h.runs, h.calm, fun g => by rw [same, hl]; rfl, h.own, h.others, h.queued⟩
  next k hl =>
    split
    next ho =>
      refine ⟨h.iku, h.sent, h.runs, ⟨h.calm.1, h.calm.2, h.calm.3⟩, fun g => ?_, h.own, h.others, h.queued⟩
      by_cases hg : g = k
      · subst hg
        rw [State.block_setBlockState_same, if_pos ⟨hl, (same g).symm.trans ho⟩]
      · rw [State.block_setBlockState_ne _ _ hg, same, if_neg fun c => hg (Option.some.inj (c.1.symm.trans hl))]
    next ho =>
      refine ⟨h.iku, h.sent, h.runs, h.calm, fun g => ?_, h.own, h.others, h.queued⟩
      rw [same]
      refine (if_neg fun ⟨hk, hgo⟩ => ho ?_).symm
      rw [Option.some.inj (hl.symm.trans hk), same]
      exact hgo

/-- The FILLING buffer of an owner is one of that owner. -/
theorem State.fillingOf_owner {s : State} (h : s.stc.buffers.sorted) {o : Owner} {i : Nat}
    (hi : s.fillingOf o = some i) : ∃ c, s.buf? i = some c ∧ c.fills o :=
  ((State.fillingOf_iff h o i).1 hi).1

theorem State.sealTail_sealsTail {s : State} (hs : s.calm) (slot : Nat) (r : Role) (blocks : List Nat) :
    s.sealsTail (s.sealTail (.run slot r) blocks) (.run slot r) blocks := by
  have eq : s.sealTail (.run slot r) blocks = State.sealLast (match s.fillingOf (.run slot r) with
    | none => s
    | some i => s.padBuffer i) blocks := rfl
  rw [eq]
  refine State.sealLast_sealsTail blocks ?_
  split
  next hf =>
    exact ⟨rfl, rfl, rfl, hs, fun _ => rfl, fun i c hi => absurd (hf.symm.trans hi) nofun, fun _ _ => .inl rfl,
      fun _ => .inr⟩
  next i hf =>
    obtain ⟨c, hc, ho, _⟩ := State.fillingOf_owner hs.sorted hf
    obtain ⟨besides, sorted, queued, own, others⟩ := State.padBuffer_pads hc ho hs.relocations
    have claims : (s.padBuffer i).stc.claims = s.stc.claims :=
      (congrArg (fun q : State => q.stc.claims) besides :)
    have relocations : (s.padBuffer i).stc.relocations = s.stc.relocations :=
      (congrArg (fun q : State => q.stc.relocations) besides :)
    refine ⟨State.iku_of_besides besides, State.sent_of_besides besides,
      (congrArg (fun q : State => q.stc.runs) besides :),
      ⟨claims.trans hs.claims, relocations.trans hs.relocations, sorted hs.sorted⟩,
      fun g => congrArg BlockRec.state (State.block_of_besides besides g), fun j d hj hd => ?_,
      fun j hj => others j fun e : j = i => hj (e ▸ hf),
      fun j hj => (queued j hj).imp_left fun e : j = i => e ▸ hf⟩
    obtain rfl : i = j := Option.some.inj (hf.symm.trans hj)
    obtain rfl : c = d := Option.some.inj (hc.symm.trans hd)
    exact own

/-- The tail of another role's run is sealed. -/
theorem State.sealsTail.passes {s t : State} {slot : Nat} {q r : Role} {blocks : List Nat} (hs : s.calm)
    (h : s.sealsTail t (.run slot q) blocks) (hr : r ≠ q) : s.passes t slot r where
  calm := h.calm
  run := congrArg (fun x : Table Run => x.at? (roleKey slot r)) h.runs
  intake := congrArg (fun x : Iku => x.recs.atD (roleKey slot r) IntakeRec.reset) h.iku
  sent m hm := h.sent ▸ hm
  block g := by
    rw [h.block g]
    split
    next c => exact .inr ⟨c.2, rfl⟩
    next => exact .inl rfl
  buffers j d hd ho := by
    have foreign : s.fillingOf (.run slot q) ≠ some j := fun e => by
      obtain ⟨c, hc, ho', _⟩ := State.fillingOf_owner hs.sorted e
      rw [Option.some.inj (hd.symm.trans hc), ho'] at ho
      cases ho
      exact hr rfl
    rcases h.others j foreign with e | ⟨c, hc, e, hq⟩
    · exact .inl (e.trans hd)
    · rw [← Option.some.inj (hd.symm.trans hc)] at e
      exact .inr ⟨e, hq⟩
  fills j e he hf := by
    by_cases foreign : s.fillingOf (.run slot q) = some j
    · obtain ⟨c, hc, _⟩ := State.fillingOf_owner hs.sorted foreign
      rcases h.own j c foreign hc with e' | e' <;>
        exact absurd hf.2 (by rw [Option.some.inj (he.symm.trans e')]; exact BufState.noConfusion)
    · rcases h.others j foreign with e' | ⟨c, _, e', _⟩
      · exact e'.symm.trans he
      · exact absurd hf.2 (by rw [Option.some.inj (he.symm.trans e')]; exact BufState.noConfusion)
  queued j d hd ho hq := by
    refine (h.queued j hq).resolve_left fun e => ?_
    obtain ⟨c, hc, ho', _⟩ := State.fillingOf_owner hs.sorted e
    rw [Option.some.inj (hd.symm.trans hc), ho'] at ho
    cases ho
    exact hr rfl

end Sys2Proof.Machine
end

section
/-! PROOF. The close of one role, of every role, and the unit in progress that is broken first (R60, R64). -/

namespace Sys2Proof.Machine

/-! ## Records of the intake and of the run -/

theorem State.setIntake_passes {s : State} (hs : s.calm) {slot : Nat} {q r : Role} (x : IntakeRec) (hr : r ≠ q) :
    s.passes (s.setIntake slot q x) slot r :=
  { State.passes_refl hs slot r with intake := State.intake_setIntake_ne s slot x hr, calm := ⟨hs.1, hs.2, hs.3⟩ }

theorem State.setRun_passes {s : State} (hs : s.calm) {slot : Nat} {q r : Role} (x : Run) (hr : r ≠ q) :
    s.passes (s.setRun slot q x) slot r :=
  { State.passes_refl hs slot r with run := State.run?_setRun_ne s slot x hr, calm := ⟨hs.1, hs.2, hs.3⟩ }

/-- With no claim waiting there is none to withdraw. -/
theorem State.withdrawClaim_calm {s : State} (hs : s.stc.claims = []) (who : Claimant) : s.withdrawClaim who = s := by
  show { s with stc := { s.stc with claims := s.stc.claims.filter _ } } = s
  rw [hs]
  show { s with stc := { s.stc with claims := [] } } = s
  rw [← hs]

/-! ## The close of a run's tail -/

theorem State.closeRunTail_passes {s : State} (hs : s.calm) {slot : Nat} {q r : Role} (hr : r ≠ q) :
    s.passes (s.closeRunTail slot q) slot r := by
  unfold State.closeRunTail
  split
  next => exact State.passes_refl hs slot r
  next y _ =>
    have set := State.setRun_passes hs (slot := slot) { y with closed := true } hr
    exact set.trans ((State.sealTail_sealsTail set.calm slot q y.blocks).passes set.calm hr)

/-- What the close of a run's tail makes of its own run. -/
theorem State.closeRunTail_own {s : State} (hs : s.calm) {slot : Nat} {r : Role} {y : Run}
    (hy : s.run? slot r = some y) :
    (s.closeRunTail slot r).calm ∧ (s.closeRunTail slot r).run? slot r = some { y with closed := true }
      ∧ (s.closeRunTail slot r).iku = s.iku ∧ (s.closeRunTail slot r).sent = s.sent
      ∧ (∀ g, y.blocks.getLast? = some g → ((s.closeRunTail slot r).block g).state
          = if (s.block g).state = .opened then .sealed else (s.block g).state)
      ∧ ∀ i c, s.fillingOf (.run slot r) = some i → s.buf? i = some c →
          (s.closeRunTail slot r).buf? i = some c.padded
            ∨ (s.closeRunTail slot r).buf? i = some { c.padded with state := .programming } := by
  have hc : (s.setRun slot r { y with closed := true }).calm := ⟨hs.1, hs.2, hs.3⟩
  have seals := State.sealTail_sealsTail hc slot r y.blocks
  have eq : s.closeRunTail slot r
      = (s.setRun slot r { y with closed := true }).sealTail (.run slot r) y.blocks := by
    simp only [State.closeRunTail, hy]
  rw [eq]
  refine ⟨seals.calm, ?_, seals.iku, seals.sent, fun g hg => ?_, fun i c => seals.own i c⟩
  · exact (congrArg (fun x : Table Run => x.at? (roleKey slot r)) seals.runs).trans (State.run?_setRun_same ..)
  · rw [seals.block g]
    show (if y.blocks.getLast? = some g ∧ (s.block g).state = .opened then BlockState.sealed else (s.block g).state) = _
    simp only [hg, true_and]

/-! ## The close of a role -/

/-- The intake record with its overrun over. -/
def IntakeRec.cleared (x : IntakeRec) : IntakeRec := { x with overrun := .clear }

/-- The close of a role that holds no broken unit. -/
def State.closeUnbroken (s : State) (slot : Nat) (r : Role) : State :=
  ((s.setIntake slot r (s.intake slot r).cleared).withdrawClaim (.run slot r)).closeRunTail slot r

/-- A role's intake has no unit in progress in its run. -/
def State.idleRole (s : State) (slot : Nat) (q : Role) : Prop :=
  (s.intake slot q).parse ≠ .body ∨ (s.intake slot q).disposition ≠ .append

theorem State.closeRole_idle {s : State} {slot : Nat} {q : Role} (h : s.idleRole slot q) :
    s.closeRole slot q = if (s.intake slot q).broken.isSome then s.setIntake slot q (s.intake slot q).hunt
      else (s.setIntake slot q (s.intake slot q).hunt).closeUnbroken slot q := by
  have hn : ¬ ((s.intake slot q).parse = .body ∧ (s.intake slot q).disposition = .append) := fun c =>
    h.elim (fun e => e c.1) (fun e => e c.2)
  have held : ((s.setIntake slot q (s.intake slot q).hunt).intake slot q).broken = (s.intake slot q).broken := by
    rw [State.intake_setIntake_same]
    rfl
  rw [State.closeRole, if_neg hn, held]
  rfl

theorem State.closeRole_busy {s : State} {slot : Nat} {q : Role} (hp : (s.intake slot q).parse = .body)
    (hd : (s.intake slot q).disposition = .append) (hb : ((s.breakUnit slot q).intake slot q).broken = none) :
    s.closeRole slot q = (s.breakUnit slot q).closeUnbroken slot q := by
  have hn : ¬ ((s.breakUnit slot q).intake slot q).broken.isSome = true := by
    rw [hb]
    exact Bool.false_ne_true
  simp only [State.closeRole, if_pos (And.intro hp hd), if_neg hn]
  rfl

theorem State.closeUnbroken_eq {s : State} (hs : s.calm) (slot : Nat) (r : Role) : s.closeUnbroken slot r
    = (s.setIntake slot r (s.intake slot r).cleared).closeRunTail slot r := by
  rw [State.closeUnbroken, State.withdrawClaim_calm (s := s.setIntake slot r (s.intake slot r).cleared) hs.claims]

theorem State.closeUnbroken_passes {s : State} (hs : s.calm) {slot : Nat} {q r : Role} (hr : r ≠ q) :
    s.passes (s.closeUnbroken slot q) slot r := by
  rw [State.closeUnbroken_eq hs]
  have set := State.setIntake_passes hs (slot := slot) (s.intake slot q).cleared hr
  exact set.trans (State.closeRunTail_passes set.calm hr)

theorem State.closeRole_passes {s : State} (hs : s.calm) {slot : Nat} {q r : Role} (h : s.idleRole slot q)
    (hr : r ≠ q) : s.passes (s.closeRole slot q) slot r := by
  rw [State.closeRole_idle h]
  have set := State.setIntake_passes hs (slot := slot) (s.intake slot q).hunt hr
  split
  · exact set
  · exact set.trans (State.closeUnbroken_passes set.calm hr)

/-- The intake record that the close of a role without a broken unit leaves. -/
theorem State.closeUnbroken_intake {s : State} (hs : s.calm) (slot : Nat) (r : Role) :
    (s.closeUnbroken slot r).intake slot r = (s.intake slot r).cleared := by
  rw [State.closeUnbroken_eq hs]
  unfold State.closeRunTail
  split
  · exact State.intake_setIntake_same ..
  next y _ =>
    have hc : ((s.setIntake slot r (s.intake slot r).cleared).setRun slot r
        { y with closed := true }).calm := ⟨hs.1, hs.2, hs.3⟩
    have iku := (State.sealTail_sealsTail hc slot r y.blocks).iku
    exact (congrArg (fun x : Iku => x.recs.atD (roleKey slot r) IntakeRec.reset) iku).trans
      (State.intake_setIntake_same ..)

/-- Once closed, a role stays idle. -/
theorem State.closeRole_idleRole {s : State} (hs : s.calm) {slot : Nat} {q : Role} (h : s.idleRole slot q) :
    (s.closeRole slot q).idleRole slot q := by
  have hunts : ((s.setIntake slot q (s.intake slot q).hunt).intake slot q).parse = .hunt := by
    rw [State.intake_setIntake_same]
    rfl
  have hc : (s.setIntake slot q (s.intake slot q).hunt).calm := ⟨hs.1, hs.2, hs.3⟩
  refine .inl ?_
  rw [State.closeRole_idle h]
  split
  · rw [hunts]
    exact ParseState.noConfusion
  · rw [State.closeUnbroken_intake hc]
    show (IntakeRec.parse (State.intake _ slot q)) ≠ .body
    rw [hunts]
    exact ParseState.noConfusion

/-- The close of roles none of which is `r`, and none of which has a unit in progress. -/
theorem State.closeRoles_passes {slot : Nat} {r : Role} (qs : List Role) {s : State} (hs : s.calm)
    (h : ∀ q ∈ qs, r ≠ q ∧ s.idleRole slot q) : s.passes (qs.foldl (fun q r => q.closeRole slot r) s) slot r := by
  induction qs generalizing s with
  | nil => exact State.passes_refl hs slot r
  | cons q qs ih =>
    obtain ⟨hr, idle⟩ := h q List.mem_cons_self
    have first := State.closeRole_passes hs idle hr
    refine first.trans (ih first.calm fun p hp => ⟨(h p (List.mem_cons_of_mem _ hp)).1, ?_⟩)
    by_cases hpq : p = q
    · subst hpq
      exact State.closeRole_idleRole hs idle
    · have other := (State.closeRole_passes hs idle hpq).intake
      have was := (h p (List.mem_cons_of_mem _ hp)).2
      rw [State.idleRole, other]
      exact was

end Sys2Proof.Machine
end

section
/-! PROOF. What the close of a lecture makes of each of its runs (R60, R64, R119). -/

namespace Sys2Proof.Machine

/-! ## The role's own run -/

/-- What the close of a role without a broken unit makes of the role itself. -/
structure State.closesOwn (s t : State) (slot : Nat) (r : Role) (y : Run) : Prop where
  calm : t.calm
  run : t.run? slot r = some { y with closed := true }
  intake : t.intake slot r = (s.intake slot r).cleared
  intakes : ∀ q, q ≠ r → t.intake slot q = s.intake slot q
  sent : t.sent = s.sent
  block : ∀ g, y.blocks.getLast? = some g →
    (t.block g).state = if (s.block g).state = .opened then .sealed else (s.block g).state
  tail : ∀ i c, s.fillingOf (.run slot r) = some i → s.buf? i = some c → t.tailClosed i c c.data

/-- A padded buffer, PENDING or already being programmed, is a closed tail. -/
theorem State.tailClosed_of_padded {t : State} {i : Nat} {c : Buf}
    (h : t.buf? i = some c.padded ∨ t.buf? i = some { c.padded with state := .programming }) :
    t.tailClosed i c c.data := by
  rcases h with e | e
  · exact ⟨_, e, rfl, rfl, rfl, rfl, rfl, .inl rfl⟩
  · exact ⟨_, e, rfl, rfl, rfl, rfl, rfl, .inr rfl⟩

theorem State.closeUnbroken_own {s : State} (hs : s.calm) {slot : Nat} {r : Role} {y : Run}
    (hy : s.run? slot r = some y) : s.closesOwn (s.closeUnbroken slot r) slot r y := by
  have hc : (s.setIntake slot r (s.intake slot r).cleared).calm := ⟨hs.1, hs.2, hs.3⟩
  obtain ⟨calm, run, iku, sent, block, tail⟩ := State.closeRunTail_own (slot := slot) (r := r) hc hy
  rw [State.closeUnbroken_eq hs]
  have intakes : ∀ q, (State.closeRunTail _ slot r).intake slot q
      = (s.setIntake slot r (s.intake slot r).cleared).intake slot q := fun q =>
    congrArg (fun x : Iku => x.recs.atD (roleKey slot q) IntakeRec.reset) iku
  exact ⟨calm, run, (intakes r).trans (State.intake_setIntake_same ..),
    fun q hq => (intakes q).trans (State.intake_setIntake_ne s slot _ hq), sent, block,
    fun i c hi hc => State.tailClosed_of_padded (tail i c hi hc)⟩

/-- A closed tail says of its buffer only whose it is and where its page lies. -/
theorem State.tailClosed_of_place {t : State} {i : Nat} {c d : Buf} {data : List Byte} (h : t.tailClosed i d data)
    (ho : d.owner = c.owner) (hb : d.block = c.block) (hp : d.page = c.page) : t.tailClosed i c data := by
  obtain ⟨e, he, howner, hblock, hpage, rest⟩ := h
  exact ⟨e, he, howner.trans ho, hblock.trans hb, hpage.trans hp, rest⟩

/-! ## A unit in progress that fits its page (R60) -/

theorem State.setBuf_fillingOf {s : State} (hs : s.stc.buffers.sorted) {o : Owner} {i : Nat} {d : Buf}
    (h : s.fillingOf o = some i) (hd : d.fills o) : (s.setBuf i d).fillingOf o = some i := by
  have hs' : (s.setBuf i d).stc.buffers.sorted := Table.sorted_put _ _ _ hs
  rw [State.fillingOf_iff hs] at h
  rw [State.fillingOf_iff hs']
  refine ⟨⟨d, State.buf?_setBuf_same .., hd⟩, fun j e hj he => h.2 j e hj ?_⟩
  rwa [State.buf?_setBuf_ne _ _ (by omega)] at he

/-- Bytes that fit the page of the FILLING buffer join it. -/
theorem State.putRun_within {s : State} {slot : Nat} {r : Role} {i : Nat} {c : Buf} {bs : List Byte}
    (hf : s.fillingOf (.run slot r) = some i) (hc : s.buf? i = some c) (hn : c.data.length + bs.length < 4096) :
    s.putRun slot r bs = (s.setIntake slot r { s.intake slot r with
      writePos := (s.intake slot r).writePos + bs.length }).setBuf i { c with data := c.data ++ bs } := by
  have hf' : (s.setIntake slot r { s.intake slot r with
      writePos := (s.intake slot r).writePos + bs.length }).fillingOf (.run slot r) = some i := hf
  have hc' : (s.setIntake slot r { s.intake slot r with
      writePos := (s.intake slot r).writePos + bs.length }).buf? i = some c := hc
  have hn' : c.data.length + bs.length < Config.pageBytes := hn
  simp only [State.putRun, hf', hc', if_pos hn']

theorem State.writeBytes_within {s : State} {slot : Nat} {r : Role} {i : Nat} {bs : List Byte}
    (hf : s.fillingOf (.run slot r) = some i) (hb : bs ≠ [])
    (hn : bs.length ≤ 4096 - (s.intake slot r).writePos % 4096) :
    s.writeBytes slot r bs = (s.putRun slot r bs, []) := by
  obtain ⟨b, t, rfl⟩ := List.exists_cons_of_ne_nil hb
  have ready : s.runReady slot r (s.intake slot r).writePos = (s, true) := by
    rw [State.runReady, hf]
    rfl
  have hn' : (b :: t).length ≤ Config.pageBytes - (s.intake slot r).writePos % Config.pageBytes := hn
  have fuel : writeFuel (b :: t).length = ((b :: t).length / Config.pageBytes + 1) + 1 + 1 := rfl
  rw [State.writeBytes, fuel, State.writeRun, ready]
  simp only [if_true, List.drop_of_length_le hn', List.take_of_length_le hn', State.writeRun]

theorem State.noticeUnit_eq {s : State} {slot : Nat} {r : Role} {i : Nat} {c : Buf}
    (hf : s.fillingOf (.run slot r) = some i) (hc : s.buf? i = some c) (stamp : Stamp) (key good : Bool) (start : Nat) :
    s.noticeUnit slot r stamp key good start
      = ((s.setBuf i { c with committed := c.data.length }).setIntake slot r { (s.intake slot r).hunt with
          lastStamp := some stamp, broken := none }).send
        (.unitNotice ⟨slot, r, stamp, key, some ⟨good, start, (s.intake slot r).writePos⟩⟩) := by
  simp only [State.noticeUnit, hf, hc]
  rfl

/-- What is still to be written of a unit in BODY. -/
theorem brokenRest_body {x : IntakeRec} {r : Role} {start : Nat} (hr : x.received ≤ x.declared) :
    brokenRest (x.asBroken r start false x.received) (16 + x.received)
      = List.replicate (x.declared - x.received) 0 ++ suffixBytes false x.received := by
  have h16 : ¬ 16 + x.received < 16 := by omega
  rw [brokenRest, if_neg h16]
  show (if 16 + x.received < 16 + x.declared
    then List.replicate (16 + x.declared - (16 + x.received)) 0 ++ suffixBytes false x.received
    else (suffixBytes false x.received).drop (16 + x.received - 16 - x.declared)) = _
  by_cases hd : 16 + x.received < 16 + x.declared
  · rw [if_pos hd, Nat.add_sub_add_left]
  · rw [if_neg hd, show x.declared - x.received = 0 by omega, show 16 + x.received - 16 - x.declared = 0 by omega]
    rfl

/-- The state of the intake and the run once the unit in progress has been broken within its page. -/
structure State.breaks (s t : State) (slot : Nat) (r : Role) (i start : Nat) (c : Buf) (data : List Byte) : Prop where
  calm : t.calm
  run : t.run? slot r = s.run? slot r
  intake : t.intake slot r = { (s.intake slot r).hunt with
    writePos := start + 24 + (s.intake slot r).declared, lastStamp := some (headerStamp (s.intake slot r).header)
    broken := none }
  intakes : ∀ q, q ≠ r → t.intake slot q = s.intake slot q
  notice : .unitNotice ⟨slot, r, headerStamp (s.intake slot r).header, headerKey r (s.intake slot r).header,
    some ⟨false, start, start + 24 + (s.intake slot r).declared⟩⟩ ∈ t.sent
  filling : t.fillingOf (.run slot r) = some i
  buffer : t.buf? i = some { c with data := data, committed := data.length }

theorem suffixBytes_length (good : Bool) (n : Nat) : (suffixBytes good n).length = 8 := rfl

theorem State.breakUnit_breaks {s : State} (hs : s.calm) {slot : Nat} {r : Role} {i start : Nat} {c : Buf}
    {x : IntakeRec} (hx : s.intake slot r = x) (hstart : x.unitStart = some start) (hr : x.received ≤ x.declared)
    (hw : x.writePos = start + 16 + x.received) (hf : s.fillingOf (.run slot r) = some i) (hc : s.buf? i = some c)
    (hl : c.data.length = x.writePos % 4096) (hfit : c.data.length + (x.declared - x.received) + 8 < 4096) :
    s.breaks (s.breakUnit slot r) slot r i start c
      (c.data ++ List.replicate (x.declared - x.received) 0 ++ suffixBytes false x.received) := by
  subst hx
  obtain ⟨bs, hbs⟩ : ∃ bs, bs = List.replicate ((s.intake slot r).declared - (s.intake slot r).received) (0 : Byte)
      ++ suffixBytes false (s.intake slot r).received := ⟨_, rfl⟩
  have len : bs.length = ((s.intake slot r).declared - (s.intake slot r).received) + 8 := by
    rw [hbs, List.length_append, List.length_replicate, suffixBytes_length]
  have rest : brokenRest ((s.intake slot r).asBroken r start false (s.intake slot r).received)
      ((s.intake slot r).writePos - start) = bs := by
    rw [hw, show start + 16 + (s.intake slot r).received - start = 16 + (s.intake slot r).received by omega, hbs]
    exact brokenRest_body hr
  have writes : s.writeBytes slot r bs = (s.putRun slot r bs, []) :=
    State.writeBytes_within hf (fun e => by rw [e] at len; simp at len) (by omega)
  obtain ⟨p, hp⟩ : ∃ p, p = s.putRun slot r bs := ⟨_, rfl⟩
  have put := State.putRun_within hf hc (bs := bs) (by omega)
  have owner : c.owner = .own (.run slot r) ∧ c.state = .filling := by
    obtain ⟨d, hd, hfills⟩ := State.fillingOf_owner hs.sorted hf
    rw [Option.some.inj (hc.symm.trans hd)]
    exact hfills
  have sorted : p.stc.buffers.sorted := by
    rw [hp, put]
    exact Table.sorted_put _ _ _ hs.sorted
  have filling : p.fillingOf (.run slot r) = some i := by
    rw [hp, put]
    exact State.setBuf_fillingOf (s := s.setIntake slot r _) hs.sorted hf owner
  have buffer : p.buf? i = some { c with data := c.data ++ bs } := by
    rw [hp, put]
    exact State.buf?_setBuf_same ..
  have intake : p.intake slot r = { s.intake slot r with
      writePos := start + 24 + (s.intake slot r).declared } := by
    rw [hp, put]
    refine (State.intake_setIntake_same s slot r _).trans ?_
    rw [len, hw, show start + 16 + (s.intake slot r).received
      + ((s.intake slot r).declared - (s.intake slot r).received + 8) = start + 24 + (s.intake slot r).declared by omega]
  have intakes : ∀ q, q ≠ r → p.intake slot q = s.intake slot q := fun q hq => by
    rw [hp, put]
    exact State.intake_setIntake_ne s slot _ hq
  have eq : s.breakUnit slot r = p.noticeUnit slot r (headerStamp (s.intake slot r).header)
      (headerKey r (s.intake slot r).header) false start := by
    simp only [State.breakUnit, hstart, State.completeUnit, show
      ((s.intake slot r).asBroken r start false (s.intake slot r).received).start = start from rfl, rest, writes, hp]
    rfl
  have calm : p.calm := ⟨by rw [hp, put]; exact hs.claims, by rw [hp, put]; exact hs.relocations, sorted⟩
  have run : p.run? slot r = s.run? slot r := by
    rw [hp, put]
    rfl
  rw [eq, State.noticeUnit_eq filling buffer, List.append_assoc, ← hbs]
  refine ⟨⟨calm.1, calm.2, Table.sorted_put _ _ _ sorted⟩, run, ?_, fun q hq => ?_, ?_,
    State.setBuf_fillingOf sorted filling owner, State.buf?_setBuf_same ..⟩
  · refine (State.intake_setIntake_same (p.setBuf i _) slot r _).trans ?_
    rw [intake]
    rfl
  · exact (State.intake_setIntake_ne (p.setBuf i _) slot _ hq).trans (intakes q hq)
  · rw [intake]
    exact List.mem_append_right _ (List.mem_singleton.2 rfl)

end Sys2Proof.Machine
end

section
/-! PROOF. LECTURE_CLOSE in each state of the record (O31). -/

namespace Sys2Proof.Machine

/-! ## The runs of a lecture that becomes CLOSED -/

/-- The close of idle roles leaves idle roles idle. -/
theorem State.closeRoles_idleRole {slot : Nat} {p : Role} (qs : List Role) {s : State} (hs : s.calm)
    (h : ∀ q ∈ qs, s.idleRole slot q) (hp : s.idleRole slot p) :
    (qs.foldl (fun q r => q.closeRole slot r) s).idleRole slot p := by
  induction qs generalizing s with
  | nil => exact hp
  | cons q qs ih =>
    have stays : ∀ p, s.idleRole slot p → (s.closeRole slot q).idleRole slot p := fun p hp => by
      by_cases hpq : p = q
      · subst hpq
        exact State.closeRole_idleRole hs hp
      · rw [State.idleRole, (State.closeRole_passes hs (h q List.mem_cons_self) hpq).intake]
        exact hp
    obtain ⟨o, ho⟩ : ∃ o : Role, o ≠ q := by
      cases q
      · exact ⟨.voice, nofun⟩
      · exact ⟨.camera, nofun⟩
      · exact ⟨.camera, nofun⟩
    have calm := (State.closeRole_passes hs (h q List.mem_cons_self) ho).calm
    exact ih calm (fun r hr => stays r (h r (List.mem_cons_of_mem _ hr))) (stays p hp)

/-- A role's own close between those of the roles before and behind it. -/
theorem State.closeRoles_around {slot : Nat} {r : Role} {rs : List Role} {s : State} (hs : s.calm) (hn : rs.Nodup)
    (hr : r ∈ rs) (h : ∀ q ∈ rs, q ≠ r → s.idleRole slot q) :
    ∃ p, s.passes p slot r ∧ ((p.closeRole slot r).calm →
      (∀ q, q ≠ r → (p.closeRole slot r).intake slot q = p.intake slot q) →
      (p.closeRole slot r).passes (rs.foldl (fun q r => q.closeRole slot r) s) slot r) := by
  obtain ⟨pre, post, rfl⟩ := List.append_of_mem hr
  have hne : ∀ q, q ∈ pre ∨ q ∈ post → q ≠ r := by
    rintro q hq rfl
    rw [List.nodup_append, List.nodup_cons] at hn
    exact hq.elim (fun hp => hn.2.2 q hp q List.mem_cons_self rfl) hn.2.1.1
  have idle : ∀ q, q ∈ pre ∨ q ∈ post → s.idleRole slot q := fun q hq =>
    h q (by simp only [List.mem_append, List.mem_cons]; tauto) (hne q hq)
  refine ⟨pre.foldl (fun q r => q.closeRole slot r) s,
    State.closeRoles_passes pre hs fun q hq => ⟨(hne q (.inl hq)).symm, idle q (.inl hq)⟩, fun calm intakes => ?_⟩
  rw [List.foldl_append, List.foldl_cons]
  refine State.closeRoles_passes post calm fun q hq => ⟨(hne q (.inr hq)).symm, ?_⟩
  rw [State.idleRole, intakes q (hne q (.inr hq))]
  exact State.closeRoles_idleRole pre hs (fun q hq => idle q (.inl hq)) (idle q (.inr hq))

/-- A program queued in no bank for a buffer, as the statements say it. -/
theorem State.not_queued {s : State} {i : Nat} (h : ∀ b, (s.bank b).dropPrograms (fun p => p.buffer == i) = s.bank b) :
    ¬ s.queued i := by
  rintro ⟨b, p, hp, hi⟩
  have e : (s.bank b).intakeProgram.filter (fun p => !(p.buffer == i)) = (s.bank b).intakeProgram :=
    (congrArg Bank.intakeProgram (h b) :)
  rw [← e, List.mem_filter, hi] at hp
  simp at hp

/-- The tail block through the closes before the role's own, its own, and those behind. -/
theorem sealed_through {a b c d : BlockState} (h : b = a ∨ (a = .opened ∧ b = .sealed))
    (h' : c = if b = .opened then .sealed else b) (h'' : d = c ∨ (c = .opened ∧ d = .sealed)) :
    d = if a = .opened then .sealed else a := by
  subst h'
  rcases h with rfl | ⟨rfl, rfl⟩ <;> rcases h'' with rfl | ⟨e, rfl⟩ <;> simp_all
  split at e <;> simp_all

/-- What the close of every role makes of one whose intake has no unit in progress. -/
theorem State.closeRoles_idle {slot : Nat} {r : Role} {rs : List Role} {s : State} (hs : s.calm) (hn : rs.Nodup)
    (hr : r ∈ rs) (h : ∀ q ∈ rs, q ≠ r → s.idleRole slot q) {y : Run} (hy : s.run? slot r = some y)
    (hb : (s.intake slot r).broken = none) (idle : s.idleRole slot r) :
    let t := rs.foldl (fun q r => q.closeRole slot r) s
    t.calm ∧ t.run? slot r = some { y with closed := true } ∧ t.intake slot r = (s.intake slot r).hunt.cleared
      ∧ (∀ g, y.blocks.getLast? = some g →
          (t.block g).state = if (s.block g).state = .opened then .sealed else (s.block g).state)
      ∧ ∀ i c, s.fillingOf (.run slot r) = some i → s.buf? i = some c → ¬ s.queued i → t.tailClosed i c c.data := by
  obtain ⟨p, before, after⟩ := State.closeRoles_around hs hn hr h
  have hunts : p.closeRole slot r = (p.setIntake slot r (p.intake slot r).hunt).closeUnbroken slot r := by
    rw [State.closeRole_idle (by rw [State.idleRole, before.intake]; exact idle), before.intake, hb]
    rfl
  have calm : (p.setIntake slot r (p.intake slot r).hunt).calm := ⟨before.calm.1, before.calm.2, before.calm.3⟩
  have own := State.closeUnbroken_own calm (before.run.trans hy)
  rw [← hunts] at own
  have after := after own.calm fun q hq => (own.intakes q hq).trans (State.intake_setIntake_ne p slot _ hq)
  refine ⟨after.calm, after.run.trans own.run, ?_, fun g hg => ?_, fun i c hi hc hq => ?_⟩
  · rw [after.intake, own.intake, State.intake_setIntake_same, before.intake]
  · exact sealed_through (before.block g) (own.block g hg) (after.block g)
  · obtain ⟨d, hd, hfills⟩ := State.fillingOf_owner hs.sorted hi
    have owner : c.owner = .own (.run slot r) := by
      rw [Option.some.inj (hc.symm.trans hd)]
      exact hfills.1
    exact after.tailClosed owner (own.tail i c (before.fillingOf hs hi hq) (before.buf?_filling hc owner hq))

/-- What the close of every role makes of one whose unit in progress fits its page. -/
theorem State.closeRoles_busy {slot : Nat} {r : Role} {rs : List Role} {s : State} (hs : s.calm) (hn : rs.Nodup)
    (hr : r ∈ rs) (h : ∀ q ∈ rs, q ≠ r → s.idleRole slot q) {y : Run} (hy : s.run? slot r = some y) {x : IntakeRec}
    (hx : s.intake slot r = x) (hp : x.parse = .body) (hd : x.disposition = .append) {start i : Nat} {c : Buf}
    (hstart : x.unitStart = some start) (hle : x.received ≤ x.declared) (hw : x.writePos = start + 16 + x.received)
    (hf : s.fillingOf (.run slot r) = some i) (hc : s.buf? i = some c) (hl : c.data.length = x.writePos % 4096)
    (hfit : c.data.length + (x.declared - x.received) + 8 < 4096) (hq : ¬ s.queued i) :
    let t := rs.foldl (fun q r => q.closeRole slot r) s
    t.calm ∧ t.run? slot r = some { y with closed := true }
      ∧ t.intake slot r = IntakeRec.cleared { x.hunt with
          writePos := start + 24 + x.declared, lastStamp := some (headerStamp x.header), broken := none }
      ∧ .unitNotice ⟨slot, r, headerStamp x.header, headerKey r x.header,
          some ⟨false, start, start + 24 + x.declared⟩⟩ ∈ t.sent
      ∧ t.tailClosed i c (c.data ++ List.replicate (x.declared - x.received) 0 ++ suffixBytes false x.received) := by
  subst hx
  obtain ⟨p, before, after⟩ := State.closeRoles_around hs hn hr h
  obtain ⟨d, hd', hfills⟩ := State.fillingOf_owner hs.sorted hf
  have owner : c.owner = .own (.run slot r) := by
    rw [Option.some.inj (hc.symm.trans hd')]
    exact hfills.1
  have breaks := State.breakUnit_breaks before.calm before.intake hstart hle hw (before.fillingOf hs hf hq)
    (before.buf?_filling hc owner hq) hl hfit
  have closes : p.closeRole slot r = (p.breakUnit slot r).closeUnbroken slot r :=
    State.closeRole_busy (by rw [before.intake]; exact hp) (by rw [before.intake]; exact hd)
      (by rw [breaks.intake])
  have own := State.closeUnbroken_own breaks.calm (breaks.run.trans (before.run.trans hy))
  rw [← closes] at own
  have after := after own.calm fun q hq => (own.intakes q hq).trans (breaks.intakes q hq)
  have notice := breaks.notice
  rw [before.intake] at notice
  refine ⟨after.calm, after.run.trans own.run, ?_, after.sent _ (own.sent ▸ notice), ?_⟩
  · rw [after.intake, own.intake, breaks.intake, before.intake]
  · exact after.tailClosed owner
      (State.tailClosed_of_place (own.tail i _ breaks.filling breaks.buffer) rfl rfl rfl)

/-! ## The directive (R15) -/

theorem exec_lectureClose {s : State} {tag : Word16} {slot : Byte} (hs : slot.toNat < 32)
    (h : s.accepts (.lectureClose tag slot)) {l : Lecture} (hl : s.lecture? slot.toNat = some l) {t : State}
    (ht : (match l.state with
      | .loaded => (((s.taken 0x32 tag).closeLecture slot.toNat).serveClaims, .done, [])
      | .running => (((s.taken 0x32 tag).endLecture slot.toNat).serveClaims, .done, [])
      | .stalled => (((s.taken 0x32 tag).enterEnding slot.toNat).serveClaims, .done, [])
      | .ending => (s.taken 0x32 tag).refuse .state
      | .closed => (s.taken 0x32 tag).refuse .state : Answered) = (t, .done, [])) :
    exec (.lectureClose tag slot) s = .next (State.answer 0x32 tag (t, .done, [])) := by
  have got : (s.taken 0x32 tag).lecture? slot.toNat = some l := hl
  have acts : actLectureClose slot (s.taken 0x32 tag) = (t, .done, []) := by
    rw [actLectureClose, in_range hs, got]
    exact ht
  exact congrArg Host.Outcome.next (State.directive_acts h 0x32 tag (actLectureClose slot) acts)

/-- LECTURE_CLOSE of a slot that is VACANT, or of a lecture that is ENDING or CLOSED already. -/
theorem exec_lectureClose_refused {s : State} {tag : Word16} {slot : Byte} (hs : slot.toNat < 32)
    (h : s.accepts (.lectureClose tag slot))
    (hl : ∀ l, s.lecture? slot.toNat = some l → l.state = .ending ∨ l.state = .closed) :
    exec (.lectureClose tag slot) s = .next (s.answered 0x32 tag .state []) := by
  refine State.directive_replies h ?_
  rw [actLectureClose, in_range hs, State.taken_lecture?]
  cases e : s.lecture? slot.toNat with
  | none => rfl
  | some l => rcases hl l e with hl | hl <;> simp only [hl] <;> rfl

/-- The lecture becomes CLOSED: its roles are closed, and its channels notified. -/
theorem State.closeLecture_eq {w : State} {slot : Nat} {l : Lecture} (h : w.lecture? slot = some l) :
    w.closeLecture slot = (l.roles.foldl (fun q r => q.closeRole slot r)
      ((w.setLecture slot (l.stopGaps.inState .closed)).lectureEvent slot)).send (.channelWake slot) := by
  simp only [State.closeLecture, h]
  rfl

theorem Lecture.roles_nodup (l : Lecture) : l.roles.Nodup :=
  List.Nodup.filter _ (by decide : allRoles.Nodup)

theorem State.calm_atRest {s : State} (h : s.calm) : s.atRest :=
  ⟨h.claims, fun _ hr => by rw [h.relocations] at hr; cases hr⟩

theorem State.closeLecture_serve {w : State} {slot : Nat} {l : Lecture} (h : w.lecture? slot = some l)
    (after : (l.roles.foldl (fun q r => q.closeRole slot r)
      ((w.setLecture slot (l.stopGaps.inState .closed)).lectureEvent slot)).calm) :
    (w.closeLecture slot).serveClaims = (l.roles.foldl (fun q r => q.closeRole slot r)
      ((w.setLecture slot (l.stopGaps.inState .closed)).lectureEvent slot)).send (.channelWake slot) := by
  rw [State.closeLecture_eq h]
  refine State.serveClaims_nil (State.calm_atRest ?_)
  exact ⟨after.1, after.2, after.3⟩

/-- An intake record that holds no overrun and no broken unit is as the close of its broken unit leaves it. -/
theorem IntakeRec.cleared_broken {x : IntakeRec} (ho : x.overrun = .clear) (hb : x.broken = none) (n : Nat)
    (stamp : Stamp) : IntakeRec.cleared { x.hunt with writePos := n, lastStamp := some stamp, broken := none }
      = { x.hunt with writePos := n, lastStamp := some stamp } := by
  have h : x.hunt.overrun = .clear ∧ x.hunt.broken = none := ⟨ho, hb⟩
  rw [IntakeRec.cleared, ← h.1, ← h.2]

/-- The runs of a lecture that becomes CLOSED (R64, R119). -/
theorem State.closeLecture_runs {w : State} {slot : Nat} {l : Lecture} (h : w.lecture? slot = some l) (r : Role)
    (hr : r ∈ l.roles) (y : Run) (hy : w.run? slot r = some y) (hc : w.stc.claims = []) (hm : w.stc.relocations = [])
    (hs : w.stc.buffers.sorted) (hb : (w.intake slot r).broken = none)
    (others : ∀ q ∈ l.roles, q ≠ r →
      (w.intake slot q).parse ≠ .body ∨ (w.intake slot q).disposition ≠ .append) :
    let t := (w.closeLecture slot).serveClaims
    let x := w.intake slot r
    ((x.parse ≠ .body ∨ x.disposition ≠ .append) → t.run? slot r = some { y with closed := true }
      ∧ t.intake slot r = { x.hunt with overrun := .clear }
      ∧ (∀ g, y.blocks.getLast? = some g → (t.block g).state
          = if (w.block g).state = .opened then .sealed else (w.block g).state)
      ∧ (∀ i c, w.fillingOf (.run slot r) = some i → w.buf? i = some c → c.data.length ≤ 4096 →
          (∀ b, (w.bank b).dropPrograms (fun p => p.buffer == i) = w.bank b) → t.tailClosed i c c.data))
    ∧ (∀ start i c, x.parse = .body → x.disposition = .append → x.overrun = .clear → x.unitStart = some start →
        x.received ≤ x.declared → x.writePos = start + 16 + x.received →
        w.fillingOf (.run slot r) = some i → w.buf? i = some c → c.data.length = x.writePos % 4096 →
        c.data.length + (x.declared - x.received) + 8 < 4096 →
        (∀ b, (w.bank b).dropPrograms (fun p => p.buffer == i) = w.bank b) →
        t.run? slot r = some { y with closed := true }
        ∧ t.intake slot r = { x.hunt with
            writePos := start + 24 + x.declared, lastStamp := some (headerStamp x.header) }
        ∧ .unitNotice ⟨slot, r, headerStamp x.header, headerKey r x.header,
            some ⟨false, start, start + 24 + x.declared⟩⟩ ∈ t.sent
        ∧ t.tailClosed i c (c.data ++ List.replicate (x.declared - x.received) 0 ++ suffixBytes false x.received)) := by
  intro t x
  obtain ⟨b, hbase⟩ : ∃ b, b = (w.setLecture slot (l.stopGaps.inState .closed)).lectureEvent slot := ⟨_, rfl⟩
  have calm : b.calm := by rw [hbase]; exact ⟨hc, hm, hs⟩
  have idleOthers : ∀ q ∈ l.roles, q ≠ r → b.idleRole slot q := by rw [hbase]; exact others
  have run : b.run? slot r = some y := by rw [hbase]; exact hy
  have intake : b.intake slot r = x := by rw [hbase]; rfl
  have unqueued : ∀ i, (∀ k, (w.bank k).dropPrograms (fun p => p.buffer == i) = w.bank k) → ¬ b.queued i := fun i hi =>
    State.not_queued (by rw [hbase]; exact hi)
  have served : ∀ v : State, v = l.roles.foldl (fun q r => q.closeRole slot r) b → v.calm →
      t = v.send (.channelWake slot) := fun v hv calm => by
    rw [hv, hbase]
    exact State.closeLecture_serve h (by rw [hv, hbase] at calm; exact calm)
  refine ⟨fun idle => ?_, fun start i c hp hd ho hstart hle hw hf hbuf hlen hfit hq => ?_⟩
  · obtain ⟨after, hrun, hintake, hblock, htail⟩ := State.closeRoles_idle calm l.roles_nodup hr idleOthers run
      (by rw [intake]; exact hb) (by rw [State.idleRole, intake]; exact idle)
    rw [served _ rfl after]
    refine ⟨hrun, by rw [intake] at hintake; exact hintake, fun g hg => ?_, fun i c hi hbuf _ hq => ?_⟩
    · refine (hblock g hg).trans ?_
      rw [hbase]
      rfl
    · exact htail i c (by rw [hbase]; exact hi) (by rw [hbase]; exact hbuf) (unqueued i hq)
  · obtain ⟨after, hrun, hintake, hnotice, htail⟩ := State.closeRoles_busy calm l.roles_nodup hr idleOthers run intake hp
      hd hstart hle hw (by rw [hbase]; exact hf) (by rw [hbase]; exact hbuf) hlen hfit (unqueued i hq)
    rw [served _ rfl after]
    rw [IntakeRec.cleared_broken ho hb] at hintake
    exact ⟨hrun, hintake, List.mem_append_left _ hnotice, htail⟩

/-! ## The statement -/

/-- The channels of a lecture that becomes CLOSED are notified, whatever claims are then served. -/
theorem State.closeLecture_wakes {w : State} {slot : Nat} {l : Lecture} (h : w.lecture? slot = some l) :
    .channelWake slot ∈ ((w.closeLecture slot).serveClaims).sent := by
  refine State.sent_of_asks (State.serveClaims_asks _) rfl ?_
  rw [State.closeLecture_eq h]
  exact List.mem_append_right _ (List.mem_singleton.2 rfl)

/-- A STALLED lecture with an empty window is CLOSED by way of ENDING. -/
theorem State.enterEnding_closes {s : State} {slot : Nat} {l : Lecture} (h : s.lecture? slot = some l)
    (hw : l.window = []) :
    s.enterEnding slot = ((s.setLecture slot (l.stopGaps.inState .ending)).lectureEvent slot).closeLecture slot := by
  have ends : ((s.setLecture slot (l.stopGaps.inState .ending)).lectureEvent slot).lecture? slot
      = some (l.stopGaps.inState .ending) := State.lecture?_setLecture_same ..
  have eq : s.modLecture slot (fun l => { l.stopGaps with state := .ending })
      = s.setLecture slot (l.stopGaps.inState .ending) := by
    simp only [State.modLecture, h]
    rfl
  have hc : (l.stopGaps.inState .ending).state = .ending ∧ (l.stopGaps.inState .ending).window.isEmpty = true :=
    ⟨rfl, List.isEmpty_iff.2 hw⟩
  rw [State.enterEnding, eq]
  simp only [State.testClosed, ends, if_pos hc]

/-- The end of a RUNNING lecture (R15, R38). -/
theorem State.endLecture_ends {s : State} {slot : Nat} {l : Lecture} (h : s.lecture? slot = some l) {g : Segment}
    (hg : l.openSegment = some g) :
    ∃ k, (s.endLecture slot).lecture? slot = some k ∧ k.state = .ending ∧ (∀ r, (k.parts.get r).gapRunning = false)
      ∧ k.cutCleared ∧ k.window.map Segment.number = l.window.map Segment.number
      ∧ (g.cutStamp = none → (∀ q, (g.ranges.get q).skewEnded = false) → ∃ h ∈ k.window, l.sealsOpen g h) := by
  have mem := Lecture.openSegment_mem hg
  obtain ⟨p, record, _⟩ := State.endOpen_record h hg
  have numbers := l.openSealed_numbers g p
  have notEmpty : ((l.openSealed g).admitted p).window ≠ [] := fun e => by
    rw [e] at numbers
    exact List.ne_nil_of_mem mem (List.map_eq_nil_iff.1 numbers.symm)
  have ends := State.enterEnding_turns record
  rw [if_neg notEmpty] at ends
  obtain ⟨f, marks⟩ := State.presentMarks_turns ends.record
  refine ⟨(((l.openSealed g).admitted p).stopped .ending).marked f, marks.record, rfl, fun r => ?_,
    Lecture.marked_cutCleared (Lecture.stopped_cutCleared (Lecture.openSealed_cutCleared ..) _) f, numbers,
    Lecture.openSealed_sealsOpen mem p⟩
  rw [Lecture.marked_part, Lecture.stopped_part]

theorem lectureClose_running {s : State} {tag : Word16} {slot : Byte} (hs : slot.toNat < 32)
    (h : s.accepts (.lectureClose tag slot)) {l : Lecture} (hl : s.lecture? slot.toNat = some l)
    (hst : l.state = .running) {g : Segment} (hg : l.openSegment = some g) :
    ∃ t k, exec (.lectureClose tag slot) s = .next t ∧ t.lecture? slot.toNat = some k ∧ k.state = .ending
      ∧ (∀ r, (k.parts.get r).gapRunning = false) ∧ t.still = (s.answered 0x32 tag .done []).still
      ∧ k.cutCleared ∧ k.window.map Segment.number = l.window.map Segment.number
      ∧ (g.cutStamp = none → (∀ q, (g.ranges.get q).skewEnded = false) → ∃ h ∈ k.window, l.sealsOpen g h) := by
  have got : (s.taken 0x32 tag).lecture? slot.toNat = some l := hl
  obtain ⟨k, record, state, gaps, cleared, numbers, seals⟩ := State.endLecture_ends got hg
  obtain ⟨u, hu⟩ : ∃ u, u = ((s.taken 0x32 tag).endLecture slot.toNat).serveClaims := ⟨_, rfl⟩
  have acts := exec_lectureClose hs h hl (t := u) (by rw [hst, hu])
  have served : u.lecture? slot.toNat = some k := by
    rw [hu, State.lecture?_of_sgc (State.serveClaims_sgc _)]
    exact record
  have still : u.still = (s.taken 0x32 tag).still := by
    rw [hu, State.serveClaims_still, State.endLecture_still]
  exact ⟨_, k, acts, served, state, gaps, State.answer_still still _ _, cleared, numbers, seals⟩

/-- Settles O31: one case for each state of the record. -/
theorem lectureClose : Obligations.LectureClose := by
  refine fun s tag slot hs h => ⟨fun l hl hst => ?_, fun l hl hst hw => ?_, fun l g hl hst hg => ?_,
    exec_lectureClose_refused hs h⟩
  · have got : (s.taken 0x32 tag).lecture? slot.toNat = some l := hl
    rcases hst with hst | ⟨hst, hw⟩
    · have acts := exec_lectureClose hs h hl (t := ((s.taken 0x32 tag).closeLecture slot.toNat).serveClaims) (by rw [hst])
      refine ⟨_, acts, ?_, State.answer_still ((State.serveClaims_still _).trans (State.closeLecture_still ..)) _ _,
        State.closeLecture_wakes got, State.closeLecture_runs got⟩
      exact (State.lecture?_of_sgc (State.serveClaims_sgc _) _).trans (State.closeLecture_turns got).record
    · have acts := exec_lectureClose hs h hl (t := ((s.taken 0x32 tag).enterEnding slot.toNat).serveClaims) (by rw [hst])
      have ends : (((s.taken 0x32 tag).setLecture slot.toNat (l.stopGaps.inState .ending)).lectureEvent
          slot.toNat).lecture? slot.toNat = some (l.stopGaps.inState .ending) := State.lecture?_setLecture_same ..
      have closed := State.enterEnding_turns got
      rw [if_pos hw] at closed
      have still := State.answer_still (result := .done) (fields := [])
        ((State.serveClaims_still _).trans (State.enterEnding_still (s.taken 0x32 tag) slot.toNat))
      have record := (State.lecture?_of_sgc (State.serveClaims_sgc _) _).trans closed.record
      have roles : (l.stopGaps.inState .ending).roles = l.roles := Lecture.roles_of_present fun r => by
        rw [show l.stopGaps.inState .ending = l.stopped .ending from rfl, Lecture.stopped_part]
      have runs := State.closeLecture_runs ends
      rw [roles] at runs
      rw [State.enterEnding_closes got hw] at acts still record
      exact ⟨_, acts, record, still, State.closeLecture_wakes ends, runs⟩
  · have got : (s.taken 0x32 tag).lecture? slot.toNat = some l := hl
    have acts := exec_lectureClose hs h hl (t := ((s.taken 0x32 tag).enterEnding slot.toNat).serveClaims) (by rw [hst])
    have ends := State.enterEnding_turns got
    rw [if_neg hw] at ends
    exact ⟨_, acts, (State.lecture?_of_sgc (State.serveClaims_sgc _) _).trans ends.record,
      State.answer_still ((State.serveClaims_still _).trans (State.enterEnding_still ..)) _ _⟩
  · exact lectureClose_running hs h hl hst hg

end Sys2Proof.Machine
end

section
/-! PROOF. Giving blocks up: what the discard of page buffers and the retirement of blocks leave of the buffers, of the
erase queues and of the blocks given up before (R118, R120, R126). -/

namespace Sys2Proof.Machine

/-- A block waits for its erase in no bank but its own. -/
def State.clean (s : State) (g : Nat) : Prop := ∀ b, b ≠ bankOf g → g ∉ (s.bank b).eraseQueue

/-- From `s` to `t` page buffers have come free, been discarded or begun their program, and blocks have been retired or
begun their erase; the claims and the relocations are those of `s`. -/
structure State.frees (s t : State) : Prop where
  waits : t.waits = s.waits
  buffers : ∀ i b, t.buf? i = some b → ∃ c, s.buf? i = some c ∧ b.owner = c.owner
    ∧ (c.state = .programming → b.state = .programming) ∧ (c.discarded = true → b.discarded = true)
  clean : ∀ g, s.clean g → t.clean g
  sound : ∀ g, (s.block g).state ≠ .bad → (t.block g).state ≠ .bad
  gaveUp : ∀ g, s.clean g → s.gaveUp g → t.gaveUp g

/-- Such a step that leaves the intake, the runs and the extents. -/
structure State.drops (s t : State) : Prop extends State.frees s t where
  iku : t.iku = s.iku
  runs : t.stc.runs = s.stc.runs
  extents : t.stc.extents = s.stc.extents

theorem State.frees.trans {s t u : State} (h : s.frees t) (h' : t.frees u) : s.frees u where
  waits := h'.waits.trans h.waits
  buffers i b hb := by
    obtain ⟨c, hc, ho, hp, hd⟩ := h'.buffers i b hb
    obtain ⟨d, hd', ho', hp', hdd⟩ := h.buffers i c hc
    exact ⟨d, hd', ho.trans ho', fun e => hp (hp' e), fun e => hd (hdd e)⟩
  clean g hg := h'.clean g (h.clean g hg)
  sound g hg := h'.sound g (h.sound g hg)
  gaveUp g hc hg := h'.gaveUp g (h.clean g hc) (h.gaveUp g hc hg)

theorem State.drops.trans {s t u : State} (h : s.drops t) (h' : t.drops u) : s.drops u :=
  ⟨h.tofrees.trans h'.tofrees, h'.iku.trans h.iku, h'.runs.trans h.runs, h'.extents.trans h.extents⟩

/-- A block given up is so by its own bank's queue and erase and its state. -/
theorem State.gaveUp_of {s t : State} {g : Nat} (hq : (t.bank (bankOf g)).eraseQueue = (s.bank (bankOf g)).eraseQueue)
    (he : ∀ e, (s.bank (bankOf g)).erase = some e → ∃ f, (t.bank (bankOf g)).erase = some f ∧ f.block = e.block)
    (hb : (t.block g).state = (s.block g).state) (h : s.gaveUp g) : t.gaveUp g := by
  rcases h with ⟨hs, hm⟩ | ⟨hs, e, hse, heg⟩
  · exact .inl ⟨hb.trans hs, hq ▸ hm⟩
  · obtain ⟨f, hf, hfe⟩ := he e hse
    exact .inr ⟨hb.trans hs, f, hf, hfe.trans heg⟩

/-- A step that leaves the erases, their queues and the blocks. -/
theorem State.drops_of_buffers {s t : State} (hi : t.iku = s.iku) (hw : t.waits = s.waits)
    (hr : t.stc.runs = s.stc.runs) (hx : t.stc.extents = s.stc.extents)
    (hbuf : ∀ i b, t.buf? i = some b → ∃ c, s.buf? i = some c ∧ b.owner = c.owner
      ∧ (c.state = .programming → b.state = .programming) ∧ (c.discarded = true → b.discarded = true))
    (he : ∀ b, (t.bank b).erase = (s.bank b).erase) (hq : ∀ b, (t.bank b).eraseQueue = (s.bank b).eraseQueue)
    (hb : ∀ g, t.block g = s.block g) : s.drops t where
  iku := hi
  waits := hw
  runs := hr
  extents := hx
  buffers := hbuf
  clean g hg b hne := by
    rw [hq b]
    exact hg b hne
  sound g hg := by
    rw [hb g]
    exact hg
  gaveUp g _ := State.gaveUp_of (hq _) (fun e h => ⟨e, (he _).trans h, rfl⟩) (by rw [hb])

theorem State.buf?_kept {s t : State} (h : t.stc.buffers = s.stc.buffers) (i : Nat) (b : Buf) (hb : t.buf? i = some b) :
    ∃ c, s.buf? i = some c ∧ b.owner = c.owner ∧ (c.state = .programming → b.state = .programming)
      ∧ (c.discarded = true → b.discarded = true) :=
  ⟨b, (congrArg (fun x : Table Buf => x.at? i) h).symm.trans hb, rfl, id, id⟩

/-- A step that leaves the store and the intake. -/
theorem State.drops_of_stc {s t : State} (h : t.stc = s.stc) (hi : t.iku = s.iku) : s.drops t :=
  State.drops_of_buffers hi (congrArg (fun x : Stc => (x.claims, x.relocations)) h) (congrArg Stc.runs h)
    (congrArg Stc.extents h) (State.buf?_kept (congrArg Stc.buffers h))
    (fun b => congrArg (fun x : Stc => (x.banks.atD b Bank.empty).erase) h)
    (fun b => congrArg (fun x : Stc => (x.banks.atD b Bank.empty).eraseQueue) h)
    (fun g => congrArg (fun x : Stc => x.blocks.atD g BlockRec.reset) h)

theorem State.drops_refl (s : State) : s.drops s := State.drops_of_stc rfl rfl

/-! ## The arbiter (R130) -/

/-- A field of a bank after another bank, or the same, has been written. -/
theorem State.bank_setBank_field {α : Type} (f : Bank → α) (s : State) {b : Nat} {x : Bank}
    (h : f x = f (s.bank b)) (c : Nat) : f ((s.setBank b x).bank c) = f (s.bank c) := by
  by_cases hc : c = b
  · subst hc
    rw [State.bank_setBank_same, h]
  · rw [State.bank_setBank_ne _ _ hc]

theorem State.setBank_drops {s : State} {b : Nat} {x : Bank} (he : x.erase = (s.bank b).erase)
    (hq : x.eraseQueue = (s.bank b).eraseQueue) : s.drops (s.setBank b x) :=
  State.drops_of_buffers rfl rfl rfl rfl (State.buf?_kept rfl) (State.bank_setBank_field Bank.erase s he)
    (State.bank_setBank_field Bank.eraseQueue s hq) (fun _ => rfl)

/-- A buffer written over by one of the same owner, PROGRAMMING and discarded where that one was. -/
theorem State.setBuf_drops {s : State} {i : Nat} {b c : Buf} (h : s.buf? i = some c) (ho : b.owner = c.owner)
    (hp : c.state = .programming → b.state = .programming) (hd : c.discarded = true → b.discarded = true) :
    s.drops (s.setBuf i b) := by
  refine State.drops_of_buffers rfl rfl rfl rfl (fun j d hj => ?_) (fun _ => rfl) (fun _ => rfl) (fun _ => rfl)
  by_cases hji : j = i
  · subst hji
    obtain rfl : b = d := Option.some.inj ((State.buf?_setBuf_same ..).symm.trans hj)
    exact ⟨c, h, ho, hp, hd⟩
  · rw [State.buf?_setBuf_ne _ _ hji] at hj
    exact ⟨d, hj, rfl, id, id⟩

theorem State.startProgram_drops {s : State} {b : Nat} {x : Bank} (p : ProgramReq) (he : x.erase = (s.bank b).erase)
    (hq : x.eraseQueue = (s.bank b).eraseQueue) : s.drops (s.startProgram b x p) := by
  have set : s.drops (s.setBank b { x with op := some (.program p) }) := State.setBank_drops he hq
  unfold State.startProgram
  dsimp only
  split
  · exact set
  next c hc => exact set.trans (State.setBuf_drops hc rfl (fun _ => rfl) id)

theorem State.raise_iku (s : State) (k : Condition) : (s.raise k).iku = s.iku := by
  unfold State.raise State.queueAlarm
  (repeat' split) <;> rfl

theorem State.badlistFull_drops (s : State) : s.drops s.badlistFull := by
  refine State.drops_of_stc (State.badlistFull_stc s) ?_
  unfold State.badlistFull
  split
  · rfl
  · exact State.raise_iku ..

theorem State.grantCopy_drops {b : Nat} {x : Bank} (l : List CopyReq) {s : State} (he : x.erase = (s.bank b).erase)
    (hq : x.eraseQueue = (s.bank b).eraseQueue) : s.drops (s.grantCopy b x l).1 := by
  induction l generalizing s with
  | nil => exact State.setBank_drops he hq
  | cons c l ih =>
    cases c with
    | read r => exact State.setBank_drops he hq
    | program p => exact State.startProgram_drops p he hq
    | append g =>
      unfold State.grantCopy
      split
      · have full := s.badlistFull_drops
        have bank : s.badlistFull.bank b = s.bank b :=
          congrArg (fun x : Stc => x.banks.atD b Bank.empty) (State.badlistFull_stc s)
        exact full.trans (ih (by rw [bank]; exact he) (by rw [bank]; exact hq))
      · exact State.setBank_drops he hq

/-- An erase that starts takes its block from the queue of its bank; the block stays given up. -/
theorem State.startErase_drops {s : State} {b g : Nat} {rest : List Nat} {e : Erase} (hn : (s.bank b).erase = none)
    (hq : (s.bank b).eraseQueue = g :: rest) (he : e.block = g) (n : Nat) :
    s.drops ((s.setBank b { s.bank b with eraseQueue := rest, scrub := n, erase := some e }).setBlockState g
      .erasing) := by
  have bankSame : ∀ {x : Bank} {c}, c = b → ((s.setBank b x).setBlockState g .erasing).bank c = x := fun {x c} h => by
    subst h
    exact State.bank_setBank_same ..
  have bankNe : ∀ {x : Bank} {c}, c ≠ b → ((s.setBank b x).setBlockState g .erasing).bank c = s.bank c := fun h =>
    State.bank_setBank_ne _ _ h
  refine ⟨⟨rfl, State.buf?_kept rfl, fun k hk c hc => ?_, fun k hk => ?_, fun k hk hg => ?_⟩, rfl, rfl, rfl⟩
  · by_cases hcb : c = b
    · rw [bankSame hcb]
      intro hm
      exact hk c hc (by rw [hcb, hq]; exact List.mem_cons_of_mem _ hm)
    · rw [bankNe hcb]
      exact hk c hc
  · by_cases hkg : k = g
    · rw [hkg, State.block_setBlockState_same]
      exact BlockState.noConfusion
    · rw [State.block_setBlockState_ne _ _ hkg]
      exact hk
  · have inQueue : g ∈ (s.bank b).eraseQueue := hq ▸ List.mem_cons_self
    by_cases hkg : k = g
    · subst hkg
      have own : bankOf k = b := by
        by_contra hne
        exact hk b (Ne.symm hne) inQueue
      exact .inr ⟨State.block_setBlockState_same .., e, by rw [bankSame own], he⟩
    · have block := State.block_setBlockState_ne
        (s.setBank b { s.bank b with eraseQueue := rest, scrub := n, erase := some e }) .erasing hkg
      by_cases hcb : bankOf k = b
      · rcases hg with ⟨hr, hm⟩ | ⟨_, f, hf, _⟩
        · refine .inl ⟨(congrArg BlockRec.state block).trans hr, ?_⟩
          rw [hcb, hq] at hm
          rw [bankSame hcb]
          exact (List.mem_cons.1 hm).resolve_left hkg
        · rw [hcb, hn] at hf
          cases hf
      · exact State.gaveUp_of (s := s) (by rw [bankNe hcb]) (fun f hf => ⟨f, by rw [bankNe hcb]; exact hf, rfl⟩)
          (congrArg BlockRec.state block) hg

/-- A suspended erase that goes on. -/
theorem State.resumeErase_drops {s : State} {b : Nat} {e f : Erase} (he : (s.bank b).erase = some e)
    (hf : f.block = e.block) : s.drops (s.setBank b { s.bank b with erase := some f }) := by
  have queues := State.bank_setBank_field Bank.eraseQueue s (b := b) (x := { s.bank b with erase := some f }) rfl
  refine ⟨⟨rfl, State.buf?_kept rfl, fun k hk c hc => ?_, fun k hk => hk, fun k hk hg => ?_⟩, rfl, rfl, rfl⟩
  · rw [queues]
    exact hk c hc
  · refine State.gaveUp_of (queues _) (fun x hx => ?_) rfl hg
    by_cases hb : bankOf k = b
    · rw [hb, he] at hx
      obtain rfl : e = x := Option.some.inj hx
      exact ⟨f, by rw [hb, State.bank_setBank_same], hf⟩
    · exact ⟨x, by rw [State.bank_setBank_ne _ _ hb]; exact hx, rfl⟩

theorem State.grantErase_drops (s : State) (b : Nat) : s.drops (s.grantErase b) := by
  unfold State.grantErase
  dsimp only
  split
  next e he => exact State.resumeErase_drops he rfl
  next hn =>
    split
    · exact s.drops_refl
    next g rest hq => exact State.startErase_drops hn hq rfl _

theorem State.arbitrate_drops (s : State) (b : Nat) : s.drops (s.arbitrate b) := by
  unfold State.arbitrate
  dsimp only
  split
  · exact s.drops_refl
  split
  · exact State.startProgram_drops _ rfl rfl
  split
  · exact State.setBank_drops rfl rfl
  split
  · exact State.setBank_drops rfl rfl
  split
  · exact State.startProgram_drops _ rfl rfl
  have copies := State.grantCopy_drops (b := b) (x := s.bank b) (s.bank b).copy rfl rfl
  split
  · exact copies
  · exact copies.trans (State.grantErase_drops ..)

/-! ## The discard of page buffers (R126) -/

theorem State.freeBuf_drops (s : State) (i : Nat) : s.drops (s.freeBuf i) := by
  refine State.drops_of_buffers rfl rfl rfl rfl (fun j d hj => ?_) (fun _ => rfl) (fun _ => rfl) (fun _ => rfl)
  by_cases hji : j = i
  · subst hji
    exact absurd ((Table.at?_del_same ..).symm.trans hj) nofun
  · exact ⟨d, (Table.at?_del_ne _ hji).symm.trans hj, rfl, id, id⟩

theorem State.dropPrograms_drops (s : State) (p : ProgramReq → Bool) : s.drops (s.mapBanks (·.dropPrograms p)) := by
  have bank : ∀ b, (s.mapBanks (·.dropPrograms p)).bank b = (s.bank b).dropPrograms p := fun b =>
    Table.atD_map s.stc.banks (·.dropPrograms p) Bank.empty b rfl
  exact State.drops_of_buffers rfl rfl rfl rfl (State.buf?_kept rfl) (fun b => by rw [bank]; rfl)
    (fun b => by rw [bank]; rfl) (fun _ => rfl)

theorem State.discardBuf_drops (s : State) (i : Nat) : s.drops (s.discardBuf i) := by
  unfold State.discardBuf
  split
  · exact s.drops_refl
  next b hb =>
    split
    · exact State.setBuf_drops hb rfl id (fun _ => rfl)
    · exact (s.dropPrograms_drops _).trans (State.freeBuf_drops ..)

/-- A discarded buffer is free, or it is free once its program ends. -/
theorem State.discardBuf_self {s : State} {i : Nat} {b : Buf} (h : (s.discardBuf i).buf? i = some b) :
    b.state = .programming ∧ b.discarded = true := by
  unfold State.discardBuf at h
  split at h
  next hn => exact absurd (hn.symm.trans h) nofun
  next c hc =>
    split at h
    next hp =>
      rw [State.buf?_setBuf_same] at h
      rw [← Option.some.inj h]
      exact ⟨hp, rfl⟩
    next => exact absurd ((Table.at?_del_same ..).symm.trans h) nofun

theorem State.discardBufs_drops (l : List (Nat × Buf)) (s : State) :
    s.drops (l.foldl (fun t e => t.discardBuf e.1) s) := by
  induction l generalizing s with
  | nil => exact s.drops_refl
  | cons e l ih => exact (s.discardBuf_drops e.1).trans (ih _)

theorem State.discardBufs_self {l : List (Nat × Buf)} {s : State} {i : Nat} (hi : ∃ c, (i, c) ∈ l) {b : Buf}
    (h : (l.foldl (fun t e => t.discardBuf e.1) s).buf? i = some b) : b.state = .programming ∧ b.discarded = true := by
  induction l generalizing s with
  | nil => exact absurd hi.choose_spec List.not_mem_nil
  | cons e l ih =>
    obtain ⟨c, hc⟩ := hi
    rcases List.mem_cons.1 hc with rfl | hc
    · obtain ⟨d, hd, _, hp, hdd⟩ := (State.discardBufs_drops l (s.discardBuf i)).buffers i b h
      obtain ⟨programming, discarded⟩ := State.discardBuf_self hd
      exact ⟨hp programming, hdd discarded⟩
    · exact ih ⟨c, hc⟩ h

/-- Every page buffer of an owner is discarded and in its program. -/
def State.dropped (s : State) (o : Owner) : Prop :=
  ∀ i b, s.buf? i = some b → b.owner = .own o → b.state = .programming ∧ b.discarded = true

theorem State.frees.dropped {s t : State} (h : s.frees t) {o : Owner} (hs : s.dropped o) : t.dropped o := by
  intro i b hb ho
  obtain ⟨c, hc, hoc, hp, hd⟩ := h.buffers i b hb
  obtain ⟨programming, discarded⟩ := hs i c hc (hoc.symm.trans ho)
  exact ⟨hp programming, hd discarded⟩

theorem State.discardOwn_dropped (s : State) (o : Owner) : (s.discardWhere (fun b => b.owner == .own o)).dropped o := by
  intro i b hb ho
  obtain ⟨c, hc, hoc, _⟩ := (State.discardBufs_drops _ s).buffers i b hb
  refine State.discardBufs_self ⟨c, List.mem_filter.2 ⟨Table.mem_of_at? hc, ?_⟩⟩ hb
  exact beq_iff_eq.2 (hoc.symm.trans ho)

/-! ## The retirement of blocks (R118) -/

/-- A block that becomes RETIRED and joins the queue of its bank. -/
def State.retiring (s : State) (g : Nat) : State :=
  (s.setBlockState g .retired).setBank (bankOf g)
    { s.bank (bankOf g) with eraseQueue := (s.bank (bankOf g)).eraseQueue ++ [g] }

theorem State.retireBlock_eq (s : State) (g : Nat) : s.retireBlock g = (s.retiring g).arbitrate (bankOf g) := rfl

theorem State.retiring_queue (s : State) (g c : Nat) : ((s.retiring g).bank c).eraseQueue
    = if c = bankOf g then (s.bank c).eraseQueue ++ [g] else (s.bank c).eraseQueue := by
  by_cases hc : c = bankOf g
  · rw [if_pos hc, hc]
    exact congrArg Bank.eraseQueue (State.bank_setBank_same ..)
  · rw [if_neg hc]
    exact congrArg Bank.eraseQueue (State.bank_setBank_ne _ _ hc)

theorem State.retiring_erase (s : State) (g c : Nat) : ((s.retiring g).bank c).erase = (s.bank c).erase :=
  State.bank_setBank_field Bank.erase (s.setBlockState g .retired)
    (x := { s.bank (bankOf g) with eraseQueue := (s.bank (bankOf g)).eraseQueue ++ [g] }) rfl c

theorem State.retiring_gaveUp (s : State) (g : Nat) : (s.retiring g).gaveUp g := by
  refine .inl ⟨State.block_setBlockState_same .., ?_⟩
  rw [State.retiring_queue, if_pos rfl]
  exact List.mem_append_right _ (List.mem_singleton.2 rfl)

theorem State.retiring_drops (s : State) (g : Nat) : s.drops (s.retiring g) := by
  refine ⟨⟨rfl, State.buf?_kept rfl, fun k hk c hc => ?_, fun k hk => ?_, fun k hk hg => ?_⟩, rfl, rfl, rfl⟩
  · rw [State.retiring_queue]
    split
    next hcg =>
      intro hm
      rcases List.mem_append.1 hm with hm | hm
      · exact hk c hc hm
      · rw [List.mem_singleton.1 hm] at hc
        exact hc hcg
    next => exact hk c hc
  · by_cases hkg : k = g
    · rw [hkg, State.retiring]
      show ((s.setBlockState g .retired).block g).state ≠ _
      rw [State.block_setBlockState_same]
      exact BlockState.noConfusion
    · show ((s.setBlockState g .retired).block k).state ≠ _
      rw [State.block_setBlockState_ne _ _ hkg]
      exact hk
  · by_cases hkg : k = g
    · rw [hkg]
      exact s.retiring_gaveUp g
    · have block : ((s.retiring g).block k).state = (s.block k).state :=
        congrArg BlockRec.state (State.block_setBlockState_ne s .retired hkg)
      rcases hg with ⟨hr, hm⟩ | ⟨hr, e, he, hek⟩
      · refine .inl ⟨block.trans hr, ?_⟩
        rw [State.retiring_queue]
        split
        · exact List.mem_append_left _ hm
        · exact hm
      · exact .inr ⟨block.trans hr, e, (s.retiring_erase g _).trans he, hek⟩

theorem State.retireBlock_drops (s : State) (g : Nat) : s.drops (s.retireBlock g) :=
  (s.retiring_drops g).trans (State.arbitrate_drops ..)

theorem State.retireBlock_gaveUp {s : State} {g : Nat} (h : s.clean g) : (s.retireBlock g).gaveUp g :=
  (State.arbitrate_drops (s.retiring g) (bankOf g)).gaveUp g ((s.retiring_drops g).clean g h) (s.retiring_gaveUp g)

/-- The blocks of an owner that are not BAD are retired. -/
def State.retireSound (s : State) (g : Nat) : State := if (s.block g).state = .bad then s else s.retireBlock g

theorem State.retireSound_drops (s : State) (g : Nat) : s.drops (s.retireSound g) := by
  unfold State.retireSound
  split
  · exact s.drops_refl
  · exact s.retireBlock_drops g

theorem State.retireAll_drops (l : List Nat) (s : State) : s.drops (l.foldl State.retireSound s) := by
  induction l generalizing s with
  | nil => exact s.drops_refl
  | cons g l ih => exact (s.retireSound_drops g).trans (ih _)

theorem State.retireAll_gaveUp {l : List Nat} {g : Nat} (hg : g ∈ l) {s : State} (hb : (s.block g).state ≠ .bad)
    (hc : s.clean g) : (l.foldl State.retireSound s).gaveUp g := by
  induction l generalizing s with
  | nil => cases hg
  | cons k l ih =>
    have first := s.retireSound_drops k
    rcases List.mem_cons.1 hg with rfl | hg
    · refine (State.retireAll_drops l _).gaveUp g (first.clean g hc) ?_
      rw [State.retireSound, if_neg hb]
      exact State.retireBlock_gaveUp hc
    · exact ih hg (first.sound g hb) (first.clean g hc)

/-- With nothing being relocated, giving blocks up discards the owner's buffers and retires the blocks. -/
theorem State.giveUpBlocks_eq {s : State} (h : s.stc.relocations = []) (o : Owner) (blocks : List Nat) :
    s.giveUpBlocks o blocks = blocks.foldl State.retireSound (s.discardWhere (fun b => b.owner == .own o)) := by
  unfold State.giveUpBlocks
  rw [h]
  rfl

theorem State.giveUpBlocks_drops {s : State} (h : s.stc.relocations = []) (o : Owner) (blocks : List Nat) :
    s.drops (s.giveUpBlocks o blocks) := by
  rw [State.giveUpBlocks_eq h]
  exact (State.discardBufs_drops _ s).trans (State.retireAll_drops ..)

theorem State.giveUpBlocks_dropped {s : State} (h : s.stc.relocations = []) (o : Owner) (blocks : List Nat) :
    (s.giveUpBlocks o blocks).dropped o := by
  rw [State.giveUpBlocks_eq h]
  exact (State.retireAll_drops ..).tofrees.dropped (s.discardOwn_dropped o)

theorem State.giveUpBlocks_gaveUp {s : State} (h : s.stc.relocations = []) (o : Owner) {blocks : List Nat} {g : Nat}
    (hg : g ∈ blocks) (hb : (s.block g).state ≠ .bad) (hc : s.clean g) : (s.giveUpBlocks o blocks).gaveUp g := by
  rw [State.giveUpBlocks_eq h]
  have discards : s.drops (s.discardWhere (fun b => b.owner == .own o)) := State.discardBufs_drops _ s
  exact State.retireAll_gaveUp hg (discards.sound g hb) (discards.clean g hc)

end Sys2Proof.Machine
end

section
/-! PROOF. The store's part of an abort (R18, R64): the extents of a slot that are given up, the runs that are released,
and the intake that is dropped. -/

namespace Sys2Proof.Machine

theorem State.frees.relocations {s t : State} (h : s.frees t) : t.stc.relocations = s.stc.relocations :=
  congrArg Prod.snd h.waits

theorem State.frees.claims {s t : State} (h : s.frees t) : t.stc.claims = s.stc.claims := congrArg Prod.fst h.waits

/-- A step that leaves the claims, the relocations, the page buffers, the banks and the blocks. -/
theorem State.frees_of_kept {s t : State} (hw : t.waits = s.waits) (hbuf : t.stc.buffers = s.stc.buffers)
    (hbank : t.stc.banks = s.stc.banks) (hblock : t.stc.blocks = s.stc.blocks) : s.frees t where
  waits := hw
  buffers := State.buf?_kept hbuf
  clean g hg b hne := by
    rw [State.bank, hbank]
    exact hg b hne
  sound g hg := by
    rw [State.block, hblock]
    exact hg
  gaveUp g _ := State.gaveUp_of (congrArg (fun x : Table Bank => (x.atD (bankOf g) Bank.empty).eraseQueue) hbank)
    (fun e he => ⟨e, by rw [State.bank, hbank]; exact he, rfl⟩)
    (congrArg (fun x : Table BlockRec => (x.atD g BlockRec.reset).state) hblock)

theorem State.frees_refl (s : State) : s.frees s := s.drops_refl.tofrees

/-- The sound blocks among some, each in no erase queue but its own bank's before, have been given up. -/
def State.allGaveUp (s t : State) (blocks : List Nat) : Prop :=
  ∀ g ∈ blocks, (s.block g).state ≠ .bad → s.clean g → t.gaveUp g

theorem State.frees.allGaveUp {s t u : State} (h : s.frees t) {blocks : List Nat} (h' : t.allGaveUp u blocks) :
    s.allGaveUp u blocks := fun g hg hb hc => h' g hg (h.sound g hb) (h.clean g hc)

theorem State.allGaveUp.frees {s t u : State} {blocks : List Nat} (h : s.allGaveUp t blocks) (h' : s.frees t)
    (h'' : t.frees u) : s.allGaveUp u blocks := fun g hg hb hc => h''.gaveUp g (h'.clean g hc) (h g hg hb hc)

/-! ## Extents (R123) -/

/-- From `s` to `t` extents of a slot that are not PUBLISHED have been given up, and the others stand. -/
structure State.givesUp (s t : State) (slot : Nat) : Prop extends State.frees s t where
  iku : t.iku = s.iku
  runs : t.stc.runs = s.stc.runs
  free : ∀ n, s.extent? n = none → t.extent? n = none
  kept : ∀ n x, s.extent? n = some x → x.slot ≠ slot ∨ x.state = .published → t.extent? n = some x
  gone : ∀ n x, s.extent? n = some x →
    t.extent? n = some x ∨ (t.extent? n = none ∧ t.dropped (.extent n) ∧ s.allGaveUp t x.blocks)

theorem State.givesUp_refl (s : State) (slot : Nat) : s.givesUp s slot :=
  ⟨s.frees_refl, rfl, rfl, fun _ => id, fun _ _ h _ => h, fun _ _ => .inl⟩

theorem State.givesUp.trans {s t u : State} {slot : Nat} (h : s.givesUp t slot) (h' : t.givesUp u slot) :
    s.givesUp u slot where
  tofrees := h.tofrees.trans h'.tofrees
  iku := h'.iku.trans h.iku
  runs := h'.runs.trans h.runs
  free n hn := h'.free n (h.free n hn)
  kept n x hx hk := h'.kept n x (h.kept n x hx hk) hk
  gone n x hx := by
    rcases h.gone n x hx with e | ⟨e, hd, hg⟩
    · exact (h'.gone n x e).imp_right fun ⟨e, hd, hg⟩ => ⟨e, hd, h.tofrees.allGaveUp hg⟩
    · exact .inr ⟨h'.free n e, h'.tofrees.dropped hd, hg.frees h.tofrees h'.tofrees⟩

theorem State.freeExtentRecord_givesUp {s : State} (h : s.stc.relocations = []) {n slot : Nat} {x : Extent}
    (hx : s.extent? n = some x) (hs : x.slot = slot) (hp : x.state ≠ .published) :
    s.givesUp (s.freeExtentRecord n x) slot := by
  have up := State.giveUpBlocks_drops h (.extent n) x.blocks
  have freed : (s.giveUpBlocks (.extent n) x.blocks).frees (s.freeExtentRecord n x) :=
    State.frees_of_kept rfl rfl rfl rfl
  have same : (s.freeExtentRecord n x).extent? n = none := Table.at?_del_same ..
  have other : ∀ m, m ≠ n → (s.freeExtentRecord n x).extent? m = s.extent? m := fun m hm =>
    (Table.at?_del_ne _ hm).trans (congrArg (fun t : Table Extent => t.at? m) up.extents)
  refine ⟨up.tofrees.trans freed, up.iku, up.runs, fun m hm => ?_, fun m y hy hk => ?_, fun m y hy => ?_⟩
  · by_cases hmn : m = n
    · rw [hmn, same]
    · rw [other m hmn, hm]
  · have hmn : m ≠ n := by
      rintro rfl
      obtain rfl : x = y := Option.some.inj (hx.symm.trans hy)
      exact hk.elim (fun h => h hs) hp
    rw [other m hmn, hy]
  · by_cases hmn : m = n
    · subst hmn
      obtain rfl : x = y := Option.some.inj (hx.symm.trans hy)
      exact .inr ⟨same, freed.dropped (State.giveUpBlocks_dropped h _ _), fun g hg hb hc =>
        freed.gaveUp g (up.clean g hc) (State.giveUpBlocks_gaveUp h _ hg hb hc)⟩
    · exact .inl ((other m hmn).trans hy)

theorem State.giveUpExtent_givesUp {s : State} (h : s.stc.relocations = []) (n slot segment rendition : Nat) :
    s.givesUp (s.giveUpExtent n slot segment rendition) slot := by
  unfold State.giveUpExtent
  split
  · exact s.givesUp_refl slot
  next x hx =>
    obtain ⟨hn, hs⟩ := Option.filter_eq_some_iff.1 hx
    simp only [Bool.and_eq_true, beq_iff_eq] at hs
    obtain ⟨⟨hs, _⟩, _⟩ := hs
    split
    · exact s.givesUp_refl slot
    next hp => exact State.freeExtentRecord_givesUp h hn hs hp

/-- An extent's own turn: it is freed where it is not PUBLISHED. -/
theorem State.giveUpExtent_own {s : State} {n : Nat} {x : Extent} (hx : s.extent? n = some x)
    (hp : x.state ≠ .published) : (s.giveUpExtent n x.slot x.segment x.rendition).extent? n = none := by
  have found : s.extentFor n x.slot x.segment x.rendition = some x :=
    Option.filter_eq_some_iff.2 ⟨hx, by simp⟩
  simp only [State.giveUpExtent, found, if_neg hp]
  exact Table.at?_del_same ..

theorem State.giveUpEntries_givesUp {slot : Nat} (l : List (Nat × Extent)) {s : State}
    (h : s.stc.relocations = []) :
    s.givesUp (l.foldl (fun q e => q.giveUpExtent e.1 slot e.2.segment e.2.rendition) s) slot := by
  induction l generalizing s with
  | nil => exact s.givesUp_refl slot
  | cons e l ih =>
    have first := State.giveUpExtent_givesUp h e.1 slot e.2.segment e.2.rendition
    exact first.trans (ih (first.relocations.trans h))

theorem State.giveUpEntries_gone {slot n : Nat} {x : Extent} (hs : x.slot = slot) (hp : x.state ≠ .published)
    {l : List (Nat × Extent)} (hl : (n, x) ∈ l) {s : State} (h : s.stc.relocations = [])
    (hx : s.extent? n = some x ∨ s.extent? n = none) :
    (l.foldl (fun q e => q.giveUpExtent e.1 slot e.2.segment e.2.rendition) s).extent? n = none := by
  induction l generalizing s with
  | nil => cases hl
  | cons e l ih =>
    have first := State.giveUpExtent_givesUp h e.1 slot e.2.segment e.2.rendition
    have relocations := first.relocations.trans h
    rcases hx with hx | hx
    · rcases List.mem_cons.1 hl with rfl | hl
      · subst hs
        exact (State.giveUpEntries_givesUp l relocations).free n (State.giveUpExtent_own hx hp)
      · exact ih hl relocations ((first.gone n x hx).imp_right And.left)
    · exact (State.giveUpEntries_givesUp l relocations).free n (first.free n hx)

theorem State.giveUpExtents_givesUp {s : State} (h : s.stc.relocations = []) (slot : Nat) :
    s.givesUp (s.giveUpExtents slot) slot := State.giveUpEntries_givesUp _ h

/-- Each extent of the slot that is not PUBLISHED is freed, its buffers discarded and its blocks given up. -/
theorem State.giveUpExtents_gone {s : State} (h : s.stc.relocations = []) {slot n : Nat} {x : Extent}
    (hx : s.extent? n = some x) (hs : x.slot = slot) (hp : x.state ≠ .published) :
    (s.giveUpExtents slot).extent? n = none ∧ (s.giveUpExtents slot).dropped (.extent n)
      ∧ s.allGaveUp (s.giveUpExtents slot) x.blocks := by
  have mem : (n, x) ∈ s.stc.extents.filter (fun e => e.2.slot == slot) :=
    List.mem_filter.2 ⟨Table.mem_of_at? hx, beq_iff_eq.2 hs⟩
  have gone : (s.giveUpExtents slot).extent? n = none := State.giveUpEntries_gone hs hp mem h (.inl hx)
  rcases (State.giveUpExtents_givesUp h slot).gone n x hx with e | e
  · exact absurd (e.symm.trans gone) nofun
  · exact e

/-! ## Runs and the intake (R64, R121) -/

/-- The intake record at an abort: nothing in flight. -/
def IntakeRec.dropped (x : IntakeRec) : IntakeRec := { x.hunt with overrun := .clear, broken := none }

/-- From `s` to `t` the runs of some roles of a slot have been released and their intake dropped. -/
structure State.dropsRoles (s t : State) (slot : Nat) (rs : List Role) : Prop extends State.frees s t where
  extents : t.stc.extents = s.stc.extents
  discard : t.iku.discard = s.iku.discard
  run : ∀ r ∈ rs, t.run? slot r = none
  intake : ∀ r ∈ rs, t.intake slot r = (s.intake slot r).dropped
  others : ∀ r, r ∉ rs → t.run? slot r = s.run? slot r ∧ t.intake slot r = s.intake slot r
  gone : ∀ r ∈ rs, ∀ x, s.run? slot r = some x → t.dropped (.run slot r) ∧ s.allGaveUp t x.blocks

/-- With no claim waiting and nothing being relocated, a release gives the run's blocks up and frees its record. -/
theorem State.releaseRun_frees {s : State} (hc : s.stc.claims = []) (hr : s.stc.relocations = []) (slot : Nat)
    (r : Role) :
    s.frees (s.releaseRun slot r) ∧ (s.releaseRun slot r).stc.extents = s.stc.extents
      ∧ (s.releaseRun slot r).iku = s.iku ∧ (s.releaseRun slot r).run? slot r = none
      ∧ (∀ q, q ≠ r → (s.releaseRun slot r).run? slot q = s.run? slot q)
      ∧ ∀ x, s.run? slot r = some x →
        (s.releaseRun slot r).dropped (.run slot r) ∧ s.allGaveUp (s.releaseRun slot r) x.blocks := by
  unfold State.releaseRun
  split
  next hn => exact ⟨s.frees_refl, rfl, rfl, hn, fun _ _ => rfl, fun x hx => absurd (hn.symm.trans hx) nofun⟩
  next y hy =>
    dsimp only
    rw [State.withdrawClaim_calm hc]
    have up := State.giveUpBlocks_drops hr (.run slot r) y.blocks
    have dropped := State.giveUpBlocks_dropped hr (.run slot r) y.blocks
    have gave : s.allGaveUp (s.giveUpBlocks (.run slot r) y.blocks) y.blocks := fun g =>
      State.giveUpBlocks_gaveUp hr (.run slot r)
    obtain ⟨u, hu⟩ : ∃ u, u = s.giveUpBlocks (.run slot r) y.blocks := ⟨_, rfl⟩
    rw [← hu] at up dropped gave ⊢
    refine ⟨up.tofrees.trans (State.frees_of_kept rfl rfl rfl rfl), up.extents, up.iku, Table.at?_del_same ..,
      fun q hq => ?_, fun x hx => ?_⟩
    · exact (Table.at?_del_ne _ (roleKey_ne hq)).trans
        (congrArg (fun t : Table Run => t.at? (roleKey slot q)) up.runs)
    · obtain rfl : y = x := Option.some.inj (hy.symm.trans hx)
      have freed : u.frees { u with
          stc := { u.stc with runs := u.stc.runs.del (roleKey slot r) }
          sent := u.sent.filter (fun m => match m with
            | .sourceLowMark sl ro _ => !(sl == slot && ro == r)
            | _ => true) } := State.frees_of_kept rfl rfl rfl rfl
      exact ⟨freed.dropped dropped, gave.frees up.tofrees freed⟩

theorem State.releaseRole_dropsRoles {s : State} (hc : s.stc.claims = []) (hr : s.stc.relocations = []) (slot : Nat)
    (r : Role) : s.dropsRoles ((s.releaseRun slot r).dropRole slot r) slot [r] := by
  obtain ⟨frees, extents, iku, run, others, gone⟩ := State.releaseRun_frees hc hr slot r
  obtain ⟨u, hu⟩ : ∃ u, u = s.releaseRun slot r := ⟨_, rfl⟩
  rw [← hu] at frees extents iku run others gone ⊢
  have dropped : u.frees (u.dropRole slot r) := State.frees_of_kept rfl rfl rfl rfl
  have intakes : ∀ q, u.intake slot q = s.intake slot q := fun q =>
    congrArg (fun x : Iku => x.recs.atD (roleKey slot q) IntakeRec.reset) iku
  refine ⟨frees.trans dropped, extents, (congrArg Iku.discard iku :), ?_, ?_, fun q hq => ⟨?_, ?_⟩, ?_⟩
  · rintro q hq
    obtain rfl := List.mem_singleton.1 hq
    exact run
  · rintro q hq
    obtain rfl := List.mem_singleton.1 hq
    rw [← intakes]
    exact State.intake_setIntake_same ..
  · exact others q (fun e => hq (List.mem_singleton.2 e))
  · rw [← intakes]
    exact State.intake_setIntake_ne _ _ _ (fun e => hq (List.mem_singleton.2 e))
  · rintro q hq x hx
    obtain rfl := List.mem_singleton.1 hq
    obtain ⟨hd, hg⟩ := gone x hx
    exact ⟨dropped.dropped hd, hg.frees frees dropped⟩

theorem State.dropsRoles_nil (s : State) (slot : Nat) : s.dropsRoles s slot [] :=
  ⟨s.frees_refl, rfl, rfl, fun _ h => absurd h List.not_mem_nil, fun _ h => absurd h List.not_mem_nil,
    fun _ _ => ⟨rfl, rfl⟩, fun _ h => absurd h List.not_mem_nil⟩

theorem State.dropsRoles.cons {s t u : State} {slot : Nat} {r : Role} {rs : List Role} (hn : r ∉ rs)
    (h : s.dropsRoles t slot [r]) (h' : t.dropsRoles u slot rs) : s.dropsRoles u slot (r :: rs) := by
  have self : r ∈ [r] := List.mem_singleton.2 rfl
  have ne : ∀ {q}, q ∈ rs → q ∉ [r] := fun hq e => hn (List.mem_singleton.1 e ▸ hq)
  refine ⟨h.tofrees.trans h'.tofrees, h'.extents.trans h.extents, h'.discard.trans h.discard, fun q hq => ?_,
    fun q hq => ?_, fun q hq => ?_, fun q hq x hx => ?_⟩
  · rcases List.mem_cons.1 hq with rfl | hq
    · exact (h'.others q hn).1.trans (h.run q self)
    · exact h'.run q hq
  · rcases List.mem_cons.1 hq with rfl | hq
    · exact (h'.others q hn).2.trans (h.intake q self)
    · rw [h'.intake q hq, (h.others q (ne hq)).2]
  · obtain ⟨hqr, hq⟩ := not_or.1 (fun e => hq (List.mem_cons.2 e))
    obtain ⟨run, intake⟩ := h.others q (fun e => hqr (List.mem_singleton.1 e))
    obtain ⟨run', intake'⟩ := h'.others q hq
    exact ⟨run'.trans run, intake'.trans intake⟩
  · rcases List.mem_cons.1 hq with rfl | hq
    · obtain ⟨hd, hg⟩ := h.gone q self x hx
      exact ⟨h'.tofrees.dropped hd, hg.frees h.tofrees h'.tofrees⟩
    · obtain ⟨hd, hg⟩ := h'.gone q hq x ((h.others q (ne hq)).1.trans hx)
      exact ⟨hd, h.tofrees.allGaveUp hg⟩

theorem State.releaseRoles_dropsRoles {slot : Nat} {rs : List Role} (hn : rs.Nodup) {s : State}
    (hc : s.stc.claims = []) (hr : s.stc.relocations = []) :
    s.dropsRoles (rs.foldl (fun q r => (q.releaseRun slot r).dropRole slot r) s) slot rs := by
  induction rs generalizing s with
  | nil => exact s.dropsRoles_nil slot
  | cons r rs ih =>
    obtain ⟨hr', hn⟩ := List.nodup_cons.1 hn
    have first := State.releaseRole_dropsRoles hc hr slot r
    exact first.cons hr' (ih hn (first.claims.trans hc) (first.relocations.trans hr))

end Sys2Proof.Machine
end

section
/-! PROOF. The jobs of an abort (R87): the record of a queued job is freed, the lane of a running one is asked to discard
it, and the dispatch pass that follows touches listed jobs alone (R77). -/

namespace Sys2Proof.Machine

/-- A job stands in one of the two lists. -/
def State.listed (s : State) (k : Nat) : Prop := k ∈ s.jdp.live ∨ k ∈ s.jdp.backlog

/-- A job has no record and stands in no list. -/
def State.jobGone (s : State) (k : Nat) : Prop := s.job? k = none ∧ ¬ s.listed k

/-- From `s` to `t` no job has joined a list, no job record but those of `p` has changed, and the requests under way that
are no discard of such a job are so still. -/
structure State.movesJobs (s t : State) (p : Nat → Prop) : Prop where
  job : ∀ k, ¬ p k → t.job? k = s.job? k
  listed : ∀ k, t.listed k → s.listed k
  sent : ∀ m ∈ s.sent, isAsk m = true → (∀ k, p k → isDiscardOf k m = false) → m ∈ t.sent

theorem State.movesJobs.mono {s t : State} {p q : Nat → Prop} (h : s.movesJobs t p) (hpq : ∀ k, p k → q k) :
    s.movesJobs t q where
  job k hk := h.job k fun hp => hk (hpq k hp)
  listed := h.listed
  sent m hm ha hq := h.sent m hm ha fun k hp => hq k (hpq k hp)

theorem State.movesJobs.trans {s t u : State} {p : Nat → Prop} (h : s.movesJobs t p) (h' : t.movesJobs u p) :
    s.movesJobs u p where
  job k hk := (h'.job k hk).trans (h.job k hk)
  listed k hk := h.listed k (h'.listed k hk)
  sent m hm ha hq := h'.sent m (h.sent m hm ha hq) ha hq

theorem State.movesJobs.jobGone {s t : State} {p : Nat → Prop} (h : s.movesJobs t p) {k : Nat} (hk : ¬ p k)
    (hs : s.jobGone k) : t.jobGone k :=
  ⟨(h.job k hk).trans hs.1, fun hl => hs.2 (h.listed k hl)⟩

/-- A step that leaves the records and the lists of jobs, and the requests under way. -/
theorem State.movesJobs_of_kept {s t : State} (p : Nat → Prop) (hj : t.jdp.jobs = s.jdp.jobs)
    (hl : t.jdp.live = s.jdp.live) (hb : t.jdp.backlog = s.jdp.backlog) (ha : t.asks = s.asks) : s.movesJobs t p where
  job k _ := congrArg (fun x : Table Job => x.at? k) hj
  listed k hk := by
    rw [State.listed, hl, hb] at hk
    exact hk
  sent _ hm ask _ := State.sent_of_asks ha ask hm

theorem State.movesJobs_of_jdp {s t : State} (p : Nat → Prop) (hj : t.jdp = s.jdp) (ha : t.asks = s.asks) :
    s.movesJobs t p :=
  State.movesJobs_of_kept p (congrArg Jdp.jobs hj) (congrArg Jdp.live hj) (congrArg Jdp.backlog hj) ha

theorem State.movesJobs_refl (s : State) (p : Nat → Prop) : s.movesJobs s p := State.movesJobs_of_jdp p rfl rfl

/-! ## A job that leaves its list (R75, R80) -/

theorem State.listed_unlistJob (s : State) (k i : Nat) : (s.unlistJob k).listed i ↔ s.listed i ∧ i ≠ k := by
  simp only [State.listed, State.unlistJob, List.mem_filter, bne_iff_ne]
  tauto

theorem State.unlistJob_movesJobs (s : State) (k : Nat) : s.movesJobs (s.unlistJob k) (· = k) where
  job _ _ := rfl
  listed i hi := ((s.listed_unlistJob k i).1 hi).1
  sent _ hm _ _ := hm

theorem State.freeJob_movesJobs (s : State) (k : Nat) : s.movesJobs (s.freeJob k) (· = k) where
  job i hi := Table.at?_del_ne _ hi
  listed i hi := ((s.listed_unlistJob k i).1 hi).1
  sent m hm _ hd := by
    refine List.mem_append_left _ (List.mem_filter.2 ⟨hm, ?_⟩)
    rw [hd k rfl]
    rfl

theorem State.freeJob_jobGone (s : State) (k : Nat) : (s.freeJob k).jobGone k :=
  ⟨s.freeJob_job? k, fun hl => ((s.listed_unlistJob k k).1 hl).2 rfl⟩

theorem State.finishJob_movesJobs (s : State) (k : Nat) (j : Job) (e : Nat) :
    s.movesJobs (s.finishJob k j e) (· = k) := by
  have reports : s.movesJobs ((s.closeExtent e j.slot j.segment j.rendition).send
      (.jobOutcome j.slot j.segment j.rendition (.done e))) (· = k) :=
    State.movesJobs_of_jdp _ (State.closeExtent_jdp ..) ((State.send_asks _ rfl).trans (State.closeExtent_asks ..))
  exact reports.trans (State.freeJob_movesJobs _ k)

/-! ## The dispatch pass (R77, R78) -/

theorem State.setJob_movesJobs (s : State) (k : Nat) (j : Job) : s.movesJobs (s.setJob k j) (· = k) where
  job _ hi := Table.at?_put_ne _ _ hi
  listed _ hi := hi
  sent _ hm _ _ := hm

theorem State.beginJob_movesJobs (s : State) (n : Nat) (j : Job) (p : Nat → Prop) : s.movesJobs (s.beginJob n j) p := by
  unfold State.beginJob
  dsimp only
  split <;> exact State.movesJobs_of_jdp p rfl rfl

theorem State.handOver_movesJobs (s : State) (n k : Nat) (j : Job) : s.movesJobs (s.handOver n k j).1 (· = k) := by
  unfold State.handOver
  dsimp only
  have counted : ∀ (q : State) (j1 : Job) (c : Word32) (l : Lane), q.movesJobs
      ({ q.setJob k j1 with jdp := { (q.setJob k j1).jdp with count := c } }.setLane n l) (· = k) := fun q j1 _ _ =>
    (q.setJob_movesJobs k j1).trans (State.movesJobs_of_kept _ rfl rfl rfl rfl)
  have begun := ((s.unlistJob_movesJobs k).trans (counted (s.unlistJob k)
    { j with lane := some n, order := some (s.jdp.count + 1) } (s.jdp.count + 1)
    { s.lane n with state := .busy, job := some k })).trans (State.beginJob_movesJobs _ n
      { j with lane := some n, order := some (s.jdp.count + 1) } _)
  split
  · exact begun
  · exact begun.trans (State.movesJobs_of_jdp _ rfl rfl)

theorem State.offerJob_movesJobs (s : State) (n k : Nat) : s.movesJobs (s.offerJob n k).1 (· = k) := by
  have taken : ∀ (e : Nat) (j : Job) (st : ExtentState),
      s.movesJobs (s.takeExtent e j.slot j.segment j.rendition st) (· = k) := fun _ _ _ =>
    State.movesJobs_of_jdp _ rfl rfl
  unfold State.offerJob
  split
  · exact s.unlistJob_movesJobs k
  next j _ =>
    split
    next e _ =>
      split
      · exact s.finishJob_movesJobs k j e
      · exact s.handOver_movesJobs n k j
    next =>
      split
      · exact s.movesJobs_refl _
      split
      · exact State.movesJobs_of_kept _ rfl rfl rfl rfl
      next e _ =>
        dsimp only
        split
        · exact (taken e j .closed).trans (State.finishJob_movesJobs ..)
        · exact ((taken e j .writing).trans (State.setJob_movesJobs ..)).trans (State.handOver_movesJobs ..)

/-- The candidate of a dispatch pass stands in a list. -/
theorem State.candidate_listed {s : State} {k : Nat} (h : s.candidate = some k) : s.listed k := by
  unfold State.candidate at h
  split at h
  · exact .inr (List.mem_of_head? h)
  split at h
  next i l hl =>
    obtain rfl : i = k := Option.some.inj h
    exact .inl (hl ▸ List.mem_cons_self)
  · exact .inr (List.mem_of_head? h)

theorem State.dispatchLoop_movesJobs (fuel : Nat) (s : State) : s.movesJobs (State.dispatchLoop fuel s) s.listed := by
  induction fuel generalizing s with
  | zero => exact s.movesJobs_refl _
  | succ fuel ih =>
    unfold State.dispatchLoop
    split
    · exact s.movesJobs_refl _
    next n _ =>
      split
      · exact s.movesJobs_refl _
      next k hk =>
        have offers : s.movesJobs (s.offerJob n k).1 s.listed :=
          (s.offerJob_movesJobs n k).mono fun i hi => hi ▸ State.candidate_listed hk
        dsimp only
        split
        · exact offers
        · exact offers.trans ((ih _).mono offers.listed)

/-- The JDP's pass moves listed jobs alone; the yields that follow move none (R77, R81). -/
theorem State.settle_movesJobs (s : State) : s.movesJobs s.settle s.listed := by
  unfold State.settle
  refine (State.dispatchLoop_movesJobs (s.jdp.live.length + s.jdp.backlog.length + 1) s).trans ?_
  obtain ⟨u, hu⟩ : ∃ u, u = State.dispatchLoop (s.jdp.live.length + s.jdp.backlog.length + 1) s := ⟨_, rfl⟩
  dsimp only
  rw [← hu]
  obtain ⟨y, hy⟩ := State.withdrawYields_eq 13 u
  obtain ⟨z, hz⟩ := State.setYields_eq 12 (State.withdrawYields 13 u)
  rw [hz, hy]
  exact State.movesJobs_of_kept _ rfl rfl rfl rfl

/-! ## The jobs of an aborted lecture (R87) -/

theorem State.dropJob_movesJobs (s : State) (k : Nat) (j : Job) : s.movesJobs (s.dropJob k j) (· = k) := by
  unfold State.dropJob
  split
  · exact s.freeJob_movesJobs k
  · exact ⟨fun _ _ => rfl, fun _ => id, fun _ hm _ _ => List.mem_append_left _ hm⟩

/-- A job with a lane stays as it is: its lane is asked. -/
theorem State.dropJob_asks_lane {s : State} {k n : Nat} {j : Job} (h : j.lane = some n) (p : Nat → Prop) :
    s.movesJobs (s.dropJob k j) p ∧ .discardRequest n k ∈ (s.dropJob k j).sent := by
  simp only [State.dropJob, h]
  exact ⟨⟨fun _ _ => rfl, fun _ => id, fun _ hm _ _ => List.mem_append_left _ hm⟩,
    List.mem_append_right _ (List.mem_singleton.2 rfl)⟩

theorem State.dropJob_jobGone {s : State} {k : Nat} {j : Job} (h : j.lane = none) : (s.dropJob k j).jobGone k := by
  simp only [State.dropJob, h]
  exact s.freeJob_jobGone k

theorem State.jobGone_dropJob {s : State} {k : Nat} (h : s.jobGone k) (i : Nat) (j : Job) : (s.dropJob i j).jobGone k := by
  by_cases hk : k = i
  · subst hk
    cases hj : j.lane with
    | none => exact State.dropJob_jobGone hj
    | some n => exact (State.dropJob_asks_lane hj fun _ => False).1.jobGone id h
  · exact (s.dropJob_movesJobs i j).jobGone hk h

/-- Among the jobs dropped, one that is QUEUED leaves its list and its record. -/
theorem State.dropEach_jobGone {l : List (Nat × Job)} {k : Nat} {j : Job} (hl : (k, j) ∈ l) (hj : j.lane = none)
    (s : State) : (l.foldl (fun q e => q.dropJob e.1 e.2) s).jobGone k := by
  have stays : ∀ (l : List (Nat × Job)) (s : State), s.jobGone k →
      (l.foldl (fun q e => q.dropJob e.1 e.2) s).jobGone k := by
    intro l
    induction l with
    | nil => exact fun _ => id
    | cons e l ih => exact fun _ h => ih _ (State.jobGone_dropJob h e.1 e.2)
  induction l generalizing s with
  | nil => cases hl
  | cons e l ih =>
    rcases List.mem_cons.1 hl with rfl | hl
    · exact stays l _ (State.dropJob_jobGone hj)
    · exact ih hl _

/-- One that is RUNNING stays as it is where no other job has its number. -/
theorem State.dropEach_movesJobs {l : List (Nat × Job)} {k n : Nat} {j : Job} (hl : ∀ i, (k, i) ∈ l → i = j)
    (hj : j.lane = some n) (s : State) : s.movesJobs (l.foldl (fun q e => q.dropJob e.1 e.2) s) (· ≠ k) := by
  induction l generalizing s with
  | nil => exact s.movesJobs_refl _
  | cons e l ih =>
    refine State.movesJobs.trans ?_ (ih (fun i hi => hl i (List.mem_cons_of_mem _ hi)) _)
    obtain ⟨i, x⟩ := e
    by_cases hi : i = k
    · subst hi
      obtain rfl := hl x List.mem_cons_self
      exact (State.dropJob_asks_lane hj _).1
    · exact (s.dropJob_movesJobs i x).mono fun a ha => ha ▸ hi

theorem isDiscardOf_ne {i k : Nat} (n : Nat) (h : i ≠ k) : isDiscardOf i (.discardRequest n k) = false :=
  beq_eq_false_iff_ne.2 (Ne.symm h)

/-- Its lane is asked to discard it. -/
theorem State.dropEach_asks_lane {l : List (Nat × Job)} {k n : Nat} {j : Job} (hl : ∀ i, (k, i) ∈ l → i = j)
    (hm : (k, j) ∈ l) (hj : j.lane = some n) (s : State) :
    .discardRequest n k ∈ (l.foldl (fun q e => q.dropJob e.1 e.2) s).sent := by
  induction l generalizing s with
  | nil => cases hm
  | cons e l ih =>
    have rest : ∀ i, (k, i) ∈ l → i = j := fun i hi => hl i (List.mem_cons_of_mem _ hi)
    rcases List.mem_cons.1 hm with rfl | hm
    · exact (State.dropEach_movesJobs rest hj _).sent _ (State.dropJob_asks_lane hj fun _ => False).2 rfl
        fun i hi => isDiscardOf_ne n hi
    · exact ih rest hm _

theorem State.dropJobs_queued {s : State} {slot k : Nat} {j : Job} (h : s.job? k = some j) (hs : j.slot = slot)
    (hj : j.lane = none) : (s.dropJobs slot).jobGone k :=
  have mem : (k, j) ∈ s.jdp.jobs.filter (fun e => e.2.slot == slot) :=
    List.mem_filter.2 ⟨Table.mem_of_at? h, beq_iff_eq.2 hs⟩
  State.dropEach_jobGone mem hj s

theorem State.dropJobs_running {s : State} {slot k n : Nat} {j : Job} (h : s.job? k = some j) (hs : j.slot = slot)
    (hj : j.lane = some n) (sorted : s.jdp.jobs.sorted) :
    s.movesJobs (s.dropJobs slot) (· ≠ k) ∧ .discardRequest n k ∈ (s.dropJobs slot).sent := by
  have only : ∀ i, (k, i) ∈ s.jdp.jobs.filter (fun e => e.2.slot == slot) → i = j := fun i hi =>
    Option.some.inj ((Table.at?_of_mem sorted (List.mem_filter.1 hi).1).symm.trans h)
  have mem : (k, j) ∈ s.jdp.jobs.filter (fun e => e.2.slot == slot) :=
    List.mem_filter.2 ⟨Table.mem_of_at? h, beq_iff_eq.2 hs⟩
  exact ⟨State.dropEach_movesJobs only hj s, State.dropEach_asks_lane only mem hj s⟩

end Sys2Proof.Machine
end

section
/-! PROOF. LECTURE_ABORT (R17, R18, O32): what is left of the record, of the jobs and of the store. -/

namespace Sys2Proof.Machine

/-! ## The store (R18) -/

/-- The STC's and the IKU's part of an abort: the extents are given up and the roles dropped. -/
def State.abortStore (s : State) (slot : Nat) (l : Lecture) : State :=
  l.roles.foldl (fun q r => (q.releaseRun slot r).dropRole slot r) (s.giveUpExtents slot)

/-- What follows the drop of the jobs of an abort. -/
def State.abortRest (s : State) (slot : Nat) (l : Lecture) : State :=
  ((((s.abortStore slot l).send (.channelWake slot)).lectureEvent slot).settle).serveClaims

theorem State.abort_eq (s : State) (slot : Nat) (l : Lecture) :
    (s.abort slot l).serveClaims = ((s.abortRecord slot l).dropJobs slot).abortRest slot l := rfl

theorem State.abortStore_above (s : State) (slot : Nat) (l : Lecture) : (s.abortStore slot l).above = s.above :=
  (foldl_keeps State.above _ (fun q r => by simp) _ _).trans (foldl_keeps State.above _ (fun q e => by simp) _ _)

theorem State.abortStore_asks (s : State) (slot : Nat) (l : Lecture) : (s.abortStore slot l).asks = s.asks :=
  (foldl_keeps State.asks _ (fun q r => by simp) _ _).trans (foldl_keeps State.asks _ (fun q e => by simp) _ _)

/-- What an abort leaves of the extents, the runs, the page buffers and the intake of a slot. -/
structure State.abortsStore (s t : State) (slot : Nat) (rs : List Role) : Prop where
  kept : ∀ n x, s.extent? n = some x → x.slot ≠ slot ∨ x.state = .published → t.extent? n = some x
  extents : ∀ n x, s.extent? n = some x → x.slot = slot → x.state ≠ .published →
    t.extent? n = none ∧ t.dropped (.extent n) ∧ s.allGaveUp t x.blocks
  run : ∀ r ∈ rs, t.run? slot r = none
  runs : ∀ r ∈ rs, ∀ x, s.run? slot r = some x → t.dropped (.run slot r) ∧ s.allGaveUp t x.blocks
  intake : ∀ r ∈ rs, t.intake slot r = (s.intake slot r).dropped

theorem State.abortStore_frees {s : State} (hc : s.stc.claims = []) (hr : s.stc.relocations = []) (slot : Nat)
    (l : Lecture) : s.frees (s.abortStore slot l) := by
  have up := State.giveUpExtents_givesUp hr slot
  exact up.tofrees.trans
    (State.releaseRoles_dropsRoles l.roles_nodup (up.claims.trans hc) (up.relocations.trans hr)).tofrees

theorem State.abortStore_discard {s : State} (hc : s.stc.claims = []) (hr : s.stc.relocations = []) (slot : Nat)
    (l : Lecture) : (s.abortStore slot l).iku.discard = s.iku.discard := by
  have up := State.giveUpExtents_givesUp hr slot
  exact (State.releaseRoles_dropsRoles l.roles_nodup (up.claims.trans hc) (up.relocations.trans hr)).discard.trans
    (congrArg Iku.discard up.iku)

theorem State.abortStore_aborts {s : State} (hc : s.stc.claims = []) (hr : s.stc.relocations = []) (slot : Nat)
    (l : Lecture) : s.abortsStore (s.abortStore slot l) slot l.roles := by
  have up := State.giveUpExtents_givesUp hr slot
  have gone := fun n x => State.giveUpExtents_gone (n := n) (x := x) hr (slot := slot)
  have roles := State.releaseRoles_dropsRoles (slot := slot) l.roles_nodup (up.claims.trans hc)
    (up.relocations.trans hr)
  rw [State.abortStore]
  obtain ⟨u, hu⟩ : ∃ u, u = s.giveUpExtents slot := ⟨_, rfl⟩
  rw [← hu] at up gone roles ⊢
  have extent : ∀ n, (l.roles.foldl (fun q r => (q.releaseRun slot r).dropRole slot r) u).extent? n = u.extent? n :=
    fun n => congrArg (fun t : Table Extent => t.at? n) roles.extents
  have run : ∀ r, u.run? slot r = s.run? slot r := fun r =>
    congrArg (fun t : Table Run => t.at? (roleKey slot r)) up.runs
  have intake : ∀ r, u.intake slot r = s.intake slot r := fun r =>
    congrArg (fun x : Iku => x.recs.atD (roleKey slot r) IntakeRec.reset) up.iku
  refine ⟨fun n x hx hk => (extent n).trans (up.kept n x hx hk), fun n x hx hs hp => ?_, roles.run, fun r hr x hx => ?_,
    fun r hr => (roles.intake r hr).trans (congrArg IntakeRec.dropped (intake r))⟩
  · obtain ⟨none, dropped, gave⟩ := gone n x hx hs hp
    exact ⟨(extent n).trans none, roles.tofrees.dropped dropped, gave.frees up.tofrees roles.tofrees⟩
  · obtain ⟨dropped, gave⟩ := roles.gone r hr x ((run r).trans hx)
    exact ⟨dropped, up.tofrees.allGaveUp gave⟩

/-- With no lane IDLE and nothing to serve, what follows the store's part writes the yields alone. -/
theorem State.abortRest_eq {s : State} (hi : s.anyIdle = false) (hc : s.stc.claims = []) (hr : s.stc.relocations = [])
    (slot : Nat) (l : Lecture) :
    ∃ y, s.abortRest slot l = { ((s.abortStore slot l).send (.channelWake slot)).lectureEvent slot with
      jdp := { (s.abortStore slot l).jdp with yields := y } } := by
  have frees := State.abortStore_frees hc hr slot l
  have lanes := State.lanes_of_above (s.abortStore_above slot l)
  rw [State.abortRest]
  obtain ⟨u, hu⟩ : ∃ u, u = s.abortStore slot l := ⟨_, rfl⟩
  rw [← hu] at frees lanes ⊢
  have idle : ((u.send (.channelWake slot)).lectureEvent slot).anyIdle = false := by
    rw [← hi]
    exact congrArg (fun t : Table Lane => laneNumbers.any (fun n => (t.atD n Lane.reset).state == .idle)) lanes
  obtain ⟨y, hy⟩ := State.settle_eq _ (State.dispatchLoop_busy _ _ (State.find_of_noIdle idle))
  refine ⟨y, ?_⟩
  rw [hy]
  refine State.serveClaims_nil ⟨frees.claims.trans hc, fun r hm => ?_⟩
  have empty : u.stc.relocations = [] := frees.relocations.trans hr
  exact absurd (empty ▸ hm : r ∈ []) List.not_mem_nil

/-! ## The jobs, the channels and the record (R17, R87, R152) -/

theorem State.abortStore_movesJobs (s : State) (slot : Nat) (l : Lecture) (p : Nat → Prop) :
    s.movesJobs (s.abortStore slot l) p :=
  State.movesJobs_of_jdp p (State.jdp_of_above (s.abortStore_above slot l)) (s.abortStore_asks slot l)

theorem State.settleServe_movesJobs (s : State) : s.movesJobs s.settle.serveClaims s.listed :=
  s.settle_movesJobs.trans (State.movesJobs_of_jdp _ (State.serveClaims_jdp _) (State.serveClaims_asks _))

theorem State.abortRest_movesJobs (s : State) (slot : Nat) (l : Lecture) :
    s.movesJobs (s.abortRest slot l) s.listed := by
  have store := s.abortStore_movesJobs slot l s.listed
  rw [State.abortRest]
  obtain ⟨u, hu⟩ : ∃ u, u = s.abortStore slot l := ⟨_, rfl⟩
  rw [← hu] at store ⊢
  have wakes : u.movesJobs ((u.send (.channelWake slot)).lectureEvent slot) s.listed :=
    ⟨fun _ _ => rfl, fun _ => id, fun _ hm _ _ => List.mem_append_left _ hm⟩
  exact (store.trans wakes).trans ((State.settleServe_movesJobs _).mono (store.trans wakes).listed)

theorem State.abortRest_wakes (s : State) (slot : Nat) (l : Lecture) :
    .channelWake slot ∈ (s.abortRest slot l).sent :=
  (State.settleServe_movesJobs _).sent _ (List.mem_append_right _ (List.mem_singleton.2 rfl)) rfl fun _ _ => rfl

theorem State.abortRest_sgc (s : State) (slot : Nat) (l : Lecture) : (s.abortRest slot l).sgc = s.sgc :=
  (State.serveClaims_sgc _).trans ((State.settle_sgc _).trans (State.sgc_of_above (s.abortStore_above slot l)))

/-- An abort leaves of the SGC what its own part makes of it. -/
theorem State.abort_sgc (s : State) (slot : Nat) (l : Lecture) :
    (s.abort slot l).serveClaims.sgc = (s.abortRecord slot l).sgc := by
  rw [State.abort_eq, State.abortRest_sgc, State.dropJobs_sgc]

theorem State.abortRecord_lecture?_same (s : State) (slot : Nat) (l : Lecture) :
    (s.abortRecord slot l).lecture? slot = some { l.stopGaps.clearLists with
      state := .closed, aborted := true, window := [], forcedCut := false, stretch := .off } :=
  State.lecture?_setLecture_same ..

theorem State.abortRecord_lecture?_ne (s : State) {slot m : Nat} (l : Lecture) (h : m ≠ slot) :
    (s.abortRecord slot l).lecture? m = s.lecture? m :=
  State.lecture?_setLecture_ne s _ h

/-- The jobs of the slot: a QUEUED one is gone, a RUNNING one stays and its lane is asked to discard it. -/
theorem State.abort_jobs {s : State} {slot k : Nat} {l : Lecture} {j : Job} (h : s.job? k = some j)
    (hs : j.slot = slot) :
    (j.lane = none → (s.abort slot l).serveClaims.jobGone k)
      ∧ ∀ n, j.lane = some n → s.jdp.jobs.sorted → ¬ s.listed k →
        (s.abort slot l).serveClaims.job? k = some j
          ∧ .discardRequest n k ∈ (s.abort slot l).serveClaims.sent := by
  rw [State.abort_eq]
  have found : (s.abortRecord slot l).job? k = some j := h
  refine ⟨fun hj => ?_, fun n hj sorted unlisted => ?_⟩
  · have gone := State.dropJobs_queued found hs hj
    exact (State.abortRest_movesJobs _ slot l).jobGone gone.2 gone
  · obtain ⟨moves, asked⟩ := State.dropJobs_running found hs hj sorted
    have still : ¬ ((s.abortRecord slot l).dropJobs slot).listed k := fun hl => unlisted (moves.listed k hl)
    have rest := State.abortRest_movesJobs ((s.abortRecord slot l).dropJobs slot) slot l
    exact ⟨(rest.job k still).trans ((moves.job k (fun e => e rfl)).trans found), rest.sent _ asked rfl fun i hi =>
      isDiscardOf_ne n fun e => still (e ▸ hi)⟩

/-! ## An abort with the lanes and the store at rest -/

/-- Dropping jobs leaves the store, the intake, the lanes and the conditions. -/
theorem State.dropJobs_kept (s : State) (slot : Nat) :
    (s.dropJobs slot).stc = s.stc ∧ (s.dropJobs slot).iku = s.iku ∧ (s.dropJobs slot).lanes = s.lanes
      ∧ (s.dropJobs slot).ccu = s.ccu := by
  simp only [← Prod.mk.injEq]
  exact foldl_keeps (fun q => (q.stc, q.iku, q.lanes, q.ccu)) (fun q (e : Nat × Job) => q.dropJob e.1 e.2)
    (fun q e => by unfold State.dropJob; split <;> rfl) (s.jdp.jobs.filter (fun e => e.2.slot == slot)) s

theorem State.abort_atRest {s : State} (hi : s.anyIdle = false) (hc : s.stc.claims = [])
    (hr : s.stc.relocations = []) (slot : Nat) (l : Lecture) :
    s.abortsStore (s.abort slot l).serveClaims slot l.roles ∧ (s.abort slot l).serveClaims.discard slot = .off
      ∧ (s.abort slot l).serveClaims.condition .jobFailed = s.condition .jobFailed := by
  rw [State.abort_eq]
  obtain ⟨stc, iku, lanes, ccu⟩ := (s.abortRecord slot l).dropJobs_kept slot
  obtain ⟨w, hw⟩ : ∃ w, w = (s.abortRecord slot l).dropJobs slot := ⟨_, rfl⟩
  rw [← hw] at stc iku lanes ccu ⊢
  have stc : w.stc = s.stc := stc
  have idle : w.anyIdle = false := by
    rw [← hi]
    exact congrArg (fun t : Table Lane => laneNumbers.any (fun n => (t.atD n Lane.reset).state == .idle)) lanes
  have claims : w.stc.claims = [] := (congrArg Stc.claims stc).trans hc
  have relocations : w.stc.relocations = [] := (congrArg Stc.relocations stc).trans hr
  have store := State.abortStore_aborts claims relocations slot l
  have discard := State.abortStore_discard claims relocations slot l
  have failed := State.jobFailed_of_above (w.abortStore_above slot l)
  obtain ⟨y, hy⟩ := State.abortRest_eq idle claims relocations slot l
  obtain ⟨u, hu⟩ : ∃ u, u = w.abortStore slot l := ⟨_, rfl⟩
  rw [← hu] at store discard failed hy
  rw [hy]
  have before : s.frees w := State.frees_of_kept (congrArg (fun x : Stc => (x.claims, x.relocations)) stc)
    (congrArg Stc.buffers stc) (congrArg Stc.banks stc) (congrArg Stc.blocks stc)
  have extent : ∀ n, w.extent? n = s.extent? n := fun n => congrArg (fun x : Stc => x.extents.at? n) stc
  have run : ∀ r, w.run? slot r = s.run? slot r := fun r => congrArg (fun x : Stc => x.runs.at? (roleKey slot r)) stc
  have intake : ∀ r, w.intake slot r = s.intake slot r := fun r =>
    (congrArg (fun x : Iku => x.recs.atD (roleKey slot r) IntakeRec.reset) iku :)
  refine ⟨⟨fun n x hx => store.kept n x ((extent n).trans hx), fun n x hx hs hp => ?_, store.run, fun r hr x hx => ?_,
    fun r hr => (store.intake r hr).trans (congrArg IntakeRec.dropped (intake r))⟩, ?_, ?_⟩
  · obtain ⟨none, dropped, gave⟩ := store.extents n x ((extent n).trans hx) hs hp
    exact ⟨none, dropped, before.allGaveUp gave⟩
  · obtain ⟨dropped, gave⟩ := store.runs r hr x ((run r).trans hx)
    exact ⟨dropped, before.allGaveUp gave⟩
  · have off : u.discard slot = (s.setDiscard slot .off).discard slot :=
      congrArg (fun t : Table DiscardSetting => t.atD slot .off) (discard.trans (congrArg Iku.discard iku))
    exact off.trans (Table.atD_put_same ..)
  · exact failed.trans (congrArg (fun c : Ccu => c.conditions.jobFailed) ccu)

/-! ## The directive (R17) -/

theorem exec_lectureAbort {s : State} {tag : Word16} {slot : Byte} (hs : slot.toNat < 32)
    (h : s.accepts (.lectureAbort tag slot)) {l : Lecture} (hl : s.lecture? slot.toNat = some l)
    (hc : l.state ≠ .closed) :
    exec (.lectureAbort tag slot) s
      = .next (State.answer 0x33 tag (((s.taken 0x33 tag).abort slot.toNat l).serveClaims, .done, [])) := by
  have got : (s.taken 0x33 tag).lecture? slot.toNat = some l := hl
  have acts : actLectureAbort slot (s.taken 0x33 tag)
      = (((s.taken 0x33 tag).abort slot.toNat l).serveClaims, .done, []) := by
    rw [actLectureAbort, in_range hs, got]
    exact if_neg hc
  exact congrArg Host.Outcome.next (State.directive_acts h 0x33 tag (actLectureAbort slot) acts)

/-- LECTURE_ABORT of a slot that is VACANT, or of a lecture that is CLOSED already. -/
theorem exec_lectureAbort_refused {s : State} {tag : Word16} {slot : Byte} (hs : slot.toNat < 32)
    (h : s.accepts (.lectureAbort tag slot)) (hl : ∀ l, s.lecture? slot.toNat = some l → l.state = .closed) :
    exec (.lectureAbort tag slot) s = .next (s.answered 0x33 tag .state []) := by
  refine State.directive_replies h ?_
  rw [actLectureAbort, in_range hs, State.taken_lecture?]
  cases e : s.lecture? slot.toNat with
  | none => rfl
  | some l => exact if_pos (hl l e)

/-- Settles O32: the record and the jobs in every case, the store where it is at rest. -/
theorem lectureAbort : Obligations.LectureAbort := by
  refine fun s tag slot hs h => ⟨fun l hl hc => ?_, exec_lectureAbort_refused hs h⟩
  have acts := exec_lectureAbort hs h hl hc
  have sgc := (s.taken 0x33 tag).abort_sgc slot.toNat l
  have still : (((s.taken 0x33 tag).abort slot.toNat l).serveClaims).still = (s.taken 0x33 tag).still :=
    (State.serveClaims_still _).trans (State.abort_still ..)
  have wakes : .channelWake slot.toNat ∈ (((s.taken 0x33 tag).abort slot.toNat l).serveClaims).sent :=
    State.abortRest_wakes ..
  have jobs := fun k j => State.abort_jobs (s := s.taken 0x33 tag) (slot := slot.toNat) (k := k) (l := l) (j := j)
  have rest := State.abort_atRest (s := s.taken 0x33 tag) (slot := slot.toNat) (l := l)
  obtain ⟨u, hu⟩ : ∃ u, u = ((s.taken 0x33 tag).abort slot.toNat l).serveClaims := ⟨_, rfl⟩
  rw [← hu] at acts sgc still wakes jobs rest
  refine ⟨_, acts, (State.lecture?_of_sgc sgc _).trans (State.abortRecord_lecture?_same ..),
    (congrArg Sgc.catalogue sgc :), (congrArg Sgc.liveAdmission sgc :), (congrArg Sgc.backlogAdmission sgc :),
    fun m hm => (State.lecture?_of_sgc sgc _).trans (State.abortRecord_lecture?_ne _ _ hm), State.answer_still still _ _,
    wakes, fun k j hk hj => ?_, fun hi hclaims hr => ?_⟩
  · obtain ⟨queued, running⟩ := jobs k j hk hj
    refine ⟨fun hn => ?_, fun n hn sorted live backlog => running n hn sorted fun hl => hl.elim live backlog⟩
    obtain ⟨job, unlisted⟩ := queued hn
    exact ⟨job, fun e => unlisted (.inl e), fun e => unlisted (.inr e)⟩
  · obtain ⟨store, discard, failed⟩ := rest hi hclaims hr
    refine ⟨fun n x hx => ⟨fun hslot hp => ?_, store.kept n x hx⟩, fun r hr => ⟨store.run r hr, fun x hx => ?_,
      store.intake r hr⟩, fun i b hb ho => ?_, discard, failed⟩
    · obtain ⟨gone, _, gave⟩ := store.extents n x hx hslot hp
      exact ⟨gone, gave⟩
    · exact (store.runs r hr x hx).2
    · rcases ho with ⟨r, hr, ho, hx⟩ | ⟨n, x, hx, hslot, hp, ho⟩
      · obtain ⟨x, hx⟩ := Option.isSome_iff_exists.1 hx
        exact (store.runs r hr x hx).1 i b hb ho
      · exact (store.extents n x hx hslot hp).2.1 i b hb ho

end Sys2Proof.Machine
end

section
/-! PROOF. The target stamp of a segment (O37). -/

namespace Sys2Proof.Machine

/-- A quotient rounded up is the smallest integer whose product with the divisor reaches the dividend. -/
theorem ceilQuotient_spec {d n : Int} (h : 0 < n) : d ≤ -(-d / n) * n ∧ (-(-d / n) - 1) * n < d := by
  have euclid := Int.mul_ediv_add_emod (-d) n
  have low := Int.emod_nonneg (-d) h.ne'
  have high := Int.emod_lt_of_pos (-d) h
  constructor <;> linarith

/-- Settles O37: m is (L - base + S/2) / S, rounded up. -/
theorem targetStamp_smallest : Obligations.TargetStamp := fun base lead seg h =>
  ⟨-(-((lead - base).toInt + seg / 2) / seg), rfl, ceilQuotient_spec (Int.natCast_pos.2 h)⟩

end Sys2Proof.Machine
end

section
/-! PROOF. The jobs of a segment that is admitted (O41): one record a rendition, each of them free before (R44, R75). -/

namespace Sys2Proof.Machine

/-! ## Free records (log 7) -/

theorem Table.mem_keys_of_at? {α : Type} {t : Table α} {n : Nat} (h : (t.at? n).isNone = false) :
    n ∈ t.map Prod.fst := by
  obtain ⟨v, hv⟩ := Option.isSome_iff_exists.1 (by simpa using h)
  exact List.mem_map.2 ⟨_, Table.mem_of_at? hv, rfl⟩

/-- A table of fewer records than the pool has leaves one of the pool free. -/
theorem Table.freeFrom_of_room {α : Type} {t : Table α} {n : Nat} (h : t.length < n) :
    ∃ k, t.freeFrom n 0 = some k ∧ k < n ∧ t.at? k = none := by
  cases hf : t.freeFrom n 0 with
  | some k =>
    exact ⟨k, rfl, Table.freeFrom_lt hf,
      Option.isNone_iff_eq_none.1 (List.find?_some (p := fun k => (t.at? k).isNone) hf)⟩
  | none =>
    have listed : List.range n ⊆ t.map Prod.fst := fun k hk => by
      have hm : k ∈ (List.range n).map (fun i => (0 + i) % n) :=
        List.mem_map.2 ⟨k, hk, by rw [Nat.zero_add, Nat.mod_eq_of_lt (List.mem_range.1 hk)]⟩
      exact Table.mem_keys_of_at? (eq_false_of_ne_true (List.find?_eq_none.1 hf k hm))
    have count := (List.nodup_range.subperm listed).length_le
    rw [List.length_range, List.length_map] at count
    omega

theorem Table.length_put {α : Type} (t : Table α) (n : Nat) (v : α) : (t.put n v).length ≤ t.length + 1 := by
  induction t with
  | nil => exact le_rfl
  | cons e t ih =>
    obtain ⟨k, w⟩ := e
    unfold Table.put
    split
    · exact le_rfl
    · split
      · exact Nat.le_succ _
      · exact Nat.succ_le_succ ih

/-! ## Creating jobs (R44, R75, R76) -/

@[simp] theorem Jdp.list_setList_same (d : Jdp) (c : LectureClass) (ks : List Nat) : (d.setList c ks).list c = ks := by
  cases c <;> rfl

theorem Jdp.list_setList_ne (d : Jdp) {c b : LectureClass} (ks : List Nat) (h : b ≠ c) :
    (d.setList c ks).list b = d.list b := by
  cases b <;> cases c <;> first | rfl | exact absurd rfl h

/-- From `s` to `t` the jobs `js` of a class have been created, in order, in the records `ks`. -/
structure State.creates (s t : State) (c : LectureClass) (js : List Job) (ks : List Nat) : Prop where
  length : ks.length = js.length
  nodup : ks.Nodup
  tail : t.jdp.list c = s.jdp.list c ++ ks
  others : ∀ b, b ≠ c → t.jdp.list b = s.jdp.list b
  free : ∀ k ∈ ks, k < 256 ∧ s.job? k = none
  records : ∀ (i k : Nat) (j : Job), ks[i]? = some k → js[i]? = some j → t.job? k = some j
  kept : ∀ k, k ∉ ks → t.job? k = s.job? k

theorem State.creates_nil (s : State) (c : LectureClass) : s.creates s c [] [] where
  length := rfl
  nodup := List.nodup_nil
  tail := (List.append_nil _).symm
  others _ _ := rfl
  free _ hk := nomatch hk
  records _ _ _ hk := nomatch hk
  kept _ _ := rfl

theorem State.creates.cons {s t u : State} {c : LectureClass} {j : Job} {js : List Job} {k : Nat} {ks : List Nat}
    (h : s.creates t c [j] [k]) (h' : t.creates u c js ks) : s.creates u c (j :: js) (k :: ks) := by
  have taken : t.job? k = some j := h.records 0 k j rfl rfl
  have fresh : k ∉ ks := fun hk => nomatch taken.symm.trans (h'.free k hk).2
  refine ⟨congrArg (· + 1) h'.length, List.nodup_cons.2 ⟨fresh, h'.nodup⟩, ?_, fun b hb => (h'.others b hb).trans
    (h.others b hb), fun q hq => ?_, fun i q x hq hx => ?_, fun q hq => ?_⟩
  · rw [h'.tail, h.tail, List.append_assoc]
    rfl
  · rcases List.mem_cons.1 hq with rfl | hq
    · exact h.free q List.mem_cons_self
    · obtain ⟨lt, unused⟩ := h'.free q hq
      refine ⟨lt, (h.kept q fun e => ?_).symm.trans unused⟩
      exact fresh (List.mem_singleton.1 e ▸ hq)
  · cases i with
    | zero =>
      obtain rfl : k = q := Option.some.inj hq
      obtain rfl : j = x := Option.some.inj hx
      exact (h'.kept k fresh).trans taken
    | succ i => exact h'.records i q x hq hx
  · obtain ⟨hk, hks⟩ := not_or.1 (fun e => hq (List.mem_cons.2 e))
    exact (h'.kept q hks).trans (h.kept q fun e => hk (List.mem_singleton.1 e))

/-- With a record free, a job takes one and joins the tail of its class's list. -/
theorem State.createJob_creates {s : State} (h : s.jdp.jobs.length < 256) (j : Job) :
    ∃ k, s.creates (s.createJob j) j.cls [j] [k]
      ∧ (s.createJob j).jdp.jobs.length ≤ s.jdp.jobs.length + 1 := by
  obtain ⟨k, free, lt, unused⟩ := Table.freeFrom_of_room h
  have made : s.createJob j
      = { s with jdp := (s.setJob k j).jdp.setList j.cls ((s.setJob k j).jdp.list j.cls ++ [k]) } := by
    simp only [State.createJob, show s.jdp.jobs.freeFrom Config.jobs 0 = some k from free]
  have jobs : (s.createJob j).jdp.jobs = s.jdp.jobs.put k j := by
    rw [made]
    exact Jdp.setList_jobs ..
  have lists : ∀ b, (s.setJob k j).jdp.list b = s.jdp.list b := fun b => by cases b <;> rfl
  refine ⟨k, ⟨rfl, List.nodup_singleton k, ?_, fun b hb => ?_, fun q hq => ?_, fun i q x hq hx => ?_,
    fun q hq => ?_⟩, ?_⟩
  · rw [made, ← lists]
    exact Jdp.list_setList_same ..
  · rw [made, ← lists]
    exact Jdp.list_setList_ne _ _ hb
  · rw [List.mem_singleton.1 hq]
    exact ⟨lt, unused⟩
  · cases i with
    | zero =>
      obtain rfl : k = q := Option.some.inj hq
      obtain rfl : j = x := Option.some.inj hx
      rw [State.job?, jobs]
      exact Table.at?_put_same ..
    | succ i => cases hq
  · rw [State.job?, jobs]
    exact Table.at?_put_ne _ _ fun e => hq (List.mem_singleton.2 e)
  · rw [jobs]
    exact Table.length_put ..

theorem State.createEach_creates {c : LectureClass} (js : List Job) (hc : ∀ j ∈ js, j.cls = c) {s : State}
    (h : js.length + s.jdp.jobs.length ≤ 256) : ∃ ks, s.creates (js.foldl State.createJob s) c js ks := by
  induction js generalizing s with
  | nil => exact ⟨[], s.creates_nil c⟩
  | cons j js ih =>
    rw [List.length_cons] at h
    obtain ⟨k, creates, length⟩ := State.createJob_creates (s := s) (by omega) j
    rw [hc j List.mem_cons_self] at creates
    obtain ⟨ks, rest⟩ := ih (fun x hx => hc x (List.mem_cons_of_mem _ hx)) (s := s.createJob j) (by omega)
    exact ⟨k :: ks, creates.cons rest⟩

/-- The jobs that the admission of a segment asks for: one a rendition, in order (R44). -/
def Lecture.jobsOf (l : Lecture) (slot : Nat) (g : Segment) : List Job :=
  l.profiles.zipIdx.map (fun p => ⟨slot, g.number, p.2, p.1, l.cls, 0, g.chunkCount, 0, none, none, none⟩)

theorem Lecture.jobsOf_length (l : Lecture) (slot : Nat) (g : Segment) :
    (l.jobsOf slot g).length = l.profiles.length := by
  rw [Lecture.jobsOf, List.length_map, List.length_zipIdx]

theorem Lecture.jobsOf_at (l : Lecture) (slot : Nat) (g : Segment) {i p : Nat} (h : l.profiles[i]? = some p) :
    (l.jobsOf slot g)[i]? = some ⟨slot, g.number, i, p, l.cls, 0, g.chunkCount, 0, none, none, none⟩ := by
  simp [Lecture.jobsOf, h]

theorem State.createJobs_eq (s : State) (slot : Nat) (l : Lecture) (g : Segment) :
    s.createJobs slot l g = (l.jobsOf slot g).foldl State.createJob s :=
  (List.foldl_map ..).symm

theorem State.createJobs_creates {s : State} {l : Lecture} (h : l.profiles.length + s.jdp.jobs.length ≤ 256)
    (slot : Nat) (g : Segment) : ∃ ks, s.creates (s.createJobs slot l g) l.cls (l.jobsOf slot g) ks := by
  rw [State.createJobs_eq]
  refine State.createEach_creates _ (fun j hj => ?_) (by rwa [Lecture.jobsOf_length])
  obtain ⟨_, _, rfl⟩ := List.mem_map.1 hj
  rfl

theorem State.createJobs_lanes (s : State) (slot : Nat) (l : Lecture) (g : Segment) :
    (s.createJobs slot l g).lanes = s.lanes :=
  foldl_keeps State.lanes _ (fun _ _ => State.createJob_lanes ..) _ _

/-- What the creation of jobs depends on is the records and the two lists. -/
theorem State.creates.of_jdp {s t u v : State} {c : LectureClass} {js : List Job} {ks : List Nat}
    (h : s.creates t c js ks) (hs : v.jdp = s.jdp) (hl : ∀ b, u.jdp.list b = t.jdp.list b)
    (hj : u.jdp.jobs = t.jdp.jobs) : v.creates u c js ks := by
  have before : ∀ k, v.job? k = s.job? k := fun k => State.job?_of_jdp hs k
  have after : ∀ k, u.job? k = t.job? k := fun k => congrArg (fun x : Table Job => x.at? k) hj
  refine ⟨h.length, h.nodup, ?_, fun b hb => ?_, fun k hk => ?_, fun i k j hk hj => ?_, fun k hk => ?_⟩
  · rw [hl, hs]
    exact h.tail
  · rw [hl, hs]
    exact h.others b hb
  · rw [before]
    exact h.free k hk
  · rw [after]
    exact h.records i k j hk hj
  · rw [after, before]
    exact h.kept k hk

/-! ## The admission that a freed job record lets through (R43) -/

/-- The head of the LIVE list fits exactly where the pool has room for its renditions. -/
theorem State.fits_iff {s : State} {slot : Nat} {l : Lecture} (h : s.lecture? slot = some l) :
    s.fits slot = true ↔ l.profiles.length ≤ 256 - s.jdp.jobs.length := by
  simp only [State.fits, h, decide_eq_true_eq]
  exact Iff.rfl

/-- Admission tried with one segment waiting, in the LIVE list. -/
theorem State.tryAdmission_one {s : State} {slot n : Nat} (hl : s.sgc.liveAdmission = [(slot, n)])
    (hb : s.sgc.backlogAdmission = []) : s.tryAdmission
      = if s.fits slot then State.admitSegment { s with sgc := { s.sgc with liveAdmission := [] } } slot n else s := by
  simp only [State.tryAdmission, State.admitLoop, hl, hb, List.length_singleton, List.length_nil]

/-- The record with a segment admitted. -/
def Lecture.working (l : Lecture) (n : Nat) : Lecture := l.modSegment n (fun g => { g with state := .working })

theorem Lecture.working_segment {l : Lecture} {n : Nat} {g : Segment} (h : l.segment n = some g) :
    (l.working n).segment n = some { g with state := .working } := by
  have number : g.number = n := eq_of_beq (List.find?_some (p := fun g : Segment => g.number == n) h)
  have same : (fun g : Segment => g.number == n) ∘ (fun g => if g.number = n then { g with state := .working } else g)
      = fun g => g.number == n := by
    funext d
    by_cases hd : d.number = n <;> simp [hd]
  rw [Lecture.segment, Lecture.working, Lecture.modSegment, List.find?_map, same]
  rw [Lecture.segment] at h
  rw [h, Option.map_some, if_pos number]

theorem State.admitSegment_eq {s : State} {slot n : Nat} {l : Lecture} {g : Segment} (h : s.lecture? slot = some l)
    (hg : l.segment n = some g) :
    s.admitSegment slot n = ((s.setLecture slot (l.working n)).createJobs slot l g).settle := by
  simp only [State.admitSegment, h, hg]
  rfl

/-- A dispatch pass and the yields leave the job records and the lists where no lane is IDLE. -/
theorem State.settle_of_noIdle {s : State} (h : s.anyIdle = false) :
    (∀ b, s.settle.jdp.list b = s.jdp.list b) ∧ s.settle.jdp.jobs = s.jdp.jobs := by
  obtain ⟨y, hy⟩ := State.settle_eq s (State.dispatchLoop_busy _ _ (State.find_of_noIdle h))
  rw [hy]
  exact ⟨fun b => by cases b <;> rfl, rfl⟩

theorem State.anyIdle_of_lanes {s t : State} (h : t.lanes = s.lanes) : t.anyIdle = s.anyIdle := by
  simp only [State.anyIdle, State.lane_of_lanes h]

/-- The segment at the head of the LIVE list is admitted where it fits. -/
theorem jobRecordFreed_admits {s : State} {slot n : Nat} {l : Lecture} {g : Segment}
    (hl : s.sgc.liveAdmission = [(slot, n)]) (hb : s.sgc.backlogAdmission = []) (h : s.lecture? slot = some l)
    (hg : l.segment n = some g) (room : l.profiles.length + s.jdp.jobs.length ≤ 256) :
    ∃ t, exec .jobRecordFreed s = .next t ∧ t.sgc.liveAdmission = [] ∧ t.lecture? slot = some (l.working n)
      ∧ (s.anyIdle = false → ∃ ks, s.creates t l.cls (l.jobsOf slot g) ks) := by
  obtain ⟨q, hq⟩ : ∃ q : State, q = { s.received .jobRecordFreed with
      sgc := { s.sgc with liveAdmission := [] } } := ⟨_, rfl⟩
  have got : q.lecture? slot = some l := by rw [hq]; exact h
  have jdp : q.jdp = s.jdp := by rw [hq]; rfl
  have fits : (s.received .jobRecordFreed).fits slot = true := (State.fits_iff h).2 (by
    show _ ≤ 256 - s.jdp.jobs.length
    omega)
  have step : exec .jobRecordFreed s = .next (q.admitSegment slot n).serveClaims := by
    show Host.Outcome.next (State.tryAdmission (s.received .jobRecordFreed)).serveClaims = _
    rw [State.tryAdmission_one (s := s.received .jobRecordFreed) hl hb, if_pos fits, hq]
    rfl
  have sgc := State.admitSegment_sgc got hg
  rw [State.admitSegment_eq got hg] at step sgc
  refine ⟨_, step, ?_, ?_, fun idle => ?_⟩
  · rw [State.serveClaims_sgc, sgc, hq]
    rfl
  · rw [State.lecture?_of_sgc (State.serveClaims_sgc _), State.lecture?_of_sgc sgc]
    exact State.lecture?_setLecture_same ..
  · obtain ⟨ks, creates⟩ := State.createJobs_creates (s := q.setLecture slot (l.working n)) (l := l)
      (by rw [State.setLecture_jdp, jdp]; exact room) slot g
    obtain ⟨lists, jobs⟩ := State.settle_of_noIdle (s := (q.setLecture slot (l.working n)).createJobs slot l g) (by
      rw [State.anyIdle_of_lanes (State.createJobs_lanes ..), hq]
      exact idle)
    refine ⟨ks, creates.of_jdp ((State.setLecture_jdp ..).trans jdp).symm (fun b => ?_) ?_⟩
    · rw [State.serveClaims_jdp, lists]
    · rw [State.serveClaims_jdp, jobs]

/-- Without room for its renditions the segment at the head waits on. -/
theorem jobRecordFreed_waits {s : State} {slot n : Nat} {l : Lecture} (hl : s.sgc.liveAdmission = [(slot, n)])
    (hb : s.sgc.backlogAdmission = []) (h : s.lecture? slot = some l) (one : 0 < l.profiles.length)
    (full : 256 < l.profiles.length + s.jdp.jobs.length) : ∃ t, exec .jobRecordFreed s = .next t ∧ t.sgc = s.sgc := by
  have fits : ¬ (s.received .jobRecordFreed).fits slot = true := fun e => by
    have room : l.profiles.length ≤ 256 - s.jdp.jobs.length := (State.fits_iff (s := s.received .jobRecordFreed) h).1 e
    omega
  refine ⟨_, rfl, (State.serveClaims_sgc _).trans ?_⟩
  rw [State.tryAdmission_one (s := s.received .jobRecordFreed) hl hb, if_neg fits]
  rfl

end Sys2Proof.Machine
end

section
/-! PROOF. The messages under way and the extents, which the copies of the relocations leave as they are (R134). -/

namespace Sys2Proof.Machine

/-- The messages under way, and the extent records. -/
def State.ledger (s : State) : List Instr × Table Extent := (s.sent, s.stc.extents)

@[simp] theorem State.setBank_ledger (s : State) (b : Nat) (x : Bank) : (s.setBank b x).ledger = s.ledger := rfl

@[simp] theorem State.setBlock_ledger (s : State) (g : Nat) (x : BlockRec) : (s.setBlock g x).ledger = s.ledger := rfl

@[simp] theorem State.setBlockState_ledger (s : State) (g : Nat) (x : BlockState) :
    (s.setBlockState g x).ledger = s.ledger := rfl

@[simp] theorem State.setBuf_ledger (s : State) (i : Nat) (x : Buf) : (s.setBuf i x).ledger = s.ledger := rfl

@[simp] theorem State.losePages_ledger (s : State) (g : Nat) (pages : List Nat) :
    (s.losePages g pages).ledger = s.ledger := rfl

@[simp] theorem State.setReloc_ledger (s : State) (x : Relocation) : (s.setReloc x).ledger = s.ledger := rfl

@[simp] theorem State.addClaim_ledger (s : State) (c : Claim) : (s.addClaim c).ledger = s.ledger := rfl

@[simp] theorem State.storeEvent_ledger (s : State) : s.storeEvent.ledger = s.ledger := rfl

@[simp] theorem State.queueAlarm_ledger (s : State) : s.queueAlarm.ledger = s.ledger := by
  unfold State.queueAlarm
  split <;> rfl

@[simp] theorem State.raise_ledger (s : State) (k : Condition) : (s.raise k).ledger = s.ledger := by
  unfold State.raise
  split
  · rfl
  · rw [State.queueAlarm_ledger]
    rfl

@[simp] theorem State.badlistFull_ledger (s : State) : s.badlistFull.ledger = s.ledger := by
  unfold State.badlistFull
  split <;> simp

@[simp] theorem State.startProgram_ledger (s : State) (b : Nat) (x : Bank) (p : ProgramReq) :
    (s.startProgram b x p).ledger = s.ledger := by
  unfold State.startProgram
  dsimp only
  split <;> simp

@[simp] theorem State.grantCopy_ledger (s : State) (b : Nat) (x : Bank) (l : List CopyReq) :
    (s.grantCopy b x l).1.ledger = s.ledger := by
  induction l generalizing s with
  | nil => rfl
  | cons c l ih =>
    cases c with
    | read r => rfl
    | program p => exact State.startProgram_ledger ..
    | append g =>
      unfold State.grantCopy
      split
      · rw [ih, State.badlistFull_ledger]
      · rfl

@[simp] theorem State.grantErase_ledger (s : State) (b : Nat) : (s.grantErase b).ledger = s.ledger := by
  unfold State.grantErase
  dsimp only
  (repeat' split) <;> simp

@[simp] theorem State.arbitrate_ledger (s : State) (b : Nat) : (s.arbitrate b).ledger = s.ledger := by
  unfold State.arbitrate
  dsimp only
  (repeat' split) <;> simp

@[simp] theorem State.afterJoin_ledger (s : State) (b : Nat) : (s.afterJoin b).ledger = s.ledger := by
  unfold State.afterJoin
  dsimp only
  (repeat' split) <;> simp

@[simp] theorem State.joinCopy_ledger (s : State) (b : Nat) (r : CopyReq) : (s.joinCopy b r).ledger = s.ledger := by
  simp [State.joinCopy]

@[simp] theorem State.giveBuffer_ledger (s : State) (o : BufOwner) (g page : Nat) :
    (s.giveBuffer o g page).ledger = s.ledger := by
  unfold State.giveBuffer
  split <;> simp

/-- The buffers of a burst given out. -/
@[simp] theorem State.giveBuffers_ledger (l : List Nat) (o : BufOwner) (t : Nat) (s : State) :
    (l.foldl (fun (q : State) p => q.giveBuffer o t p) s).ledger = s.ledger :=
  foldl_keeps State.ledger _ (fun _ _ => State.giveBuffer_ledger ..) _ _

@[simp] theorem State.copyOn_ledger (s : State) (o : Owner) (most : Nat) : (s.copyOn o most).ledger = s.ledger := by
  unfold State.copyOn
  dsimp only
  (repeat' split) <;> simp

theorem State.resumeCopies_ledger (s : State) : s.resumeCopies.ledger = s.ledger :=
  foldl_keeps State.ledger _ (fun _ _ => by split <;> simp) _ _

/-- With no claim waiting, what is served at the end of a step is copies alone (R129, R134). -/
theorem State.serveClaims_noClaims {s : State} (h : s.stc.claims = []) : s.serveClaims = s.resumeCopies := by
  unfold State.serveClaims State.endOverruns
  rw [State.serveLoop_nil h, h]
  rfl

end Sys2Proof.Machine
end

section
/-! PROOF. The dispatch pass that a freed extent record brings: a job handed to a lane, or ended at once (R71, R77,
R78), and O41. -/

namespace Sys2Proof.Machine

/-! ## The candidate and its source -/

/-- The candidate depends on the lanes, the job records, the two lists and the floor. -/
theorem State.candidate_of {s t : State} (lanes : t.lanes = s.lanes) (jobs : t.jdp.jobs = s.jdp.jobs)
    (live : t.jdp.live = s.jdp.live) (backlog : t.jdp.backlog = s.jdp.backlog) (floor : t.jdp.floor = s.jdp.floor) :
    t.candidate = s.candidate := by
  have job : t.job? = s.job? := funext fun k => congrArg (fun x : Table Job => x.at? k) jobs
  have runs : ∀ n, t.laneRuns .backlog n = s.laneRuns .backlog n := fun n => by
    simp only [State.laneRuns, State.laneJob, State.lane, job, lanes]
  have count : t.backlogCount = s.backlogCount := by simp only [State.backlogCount, funext runs]
  simp only [State.candidate, count, live, backlog, floor]

/-- Whether a job's source is EMPTY depends on the SGC alone. -/
theorem State.emptySource_of_sgc {s t : State} (h : t.sgc = s.sgc) (j : Job) : t.emptySource j = s.emptySource j := by
  simp only [State.emptySource, State.jobSegment, State.jobRoles, State.lecture?, State.profile?, h]

/-- With one job queued it is the candidate. -/
theorem State.candidate_only {s : State} {k : Nat} (h : s.jdp.live ++ s.jdp.backlog = [k]) :
    s.candidate = some k := by
  rcases List.append_eq_singleton_iff.1 h with ⟨live, backlog⟩ | ⟨live, backlog⟩ <;>
    simp [State.candidate, live, backlog]

/-! ## One round of a dispatch pass (R77, R78) -/

theorem State.dispatchLoop_offers {s : State} {n k : Nat}
    (hn : laneNumbers.find? (fun m => (s.lane m).state == .idle) = some n) (hk : s.candidate = some k)
    (ho : (s.offerJob n k).2 ≠ .waits) (fuel : Nat) :
    State.dispatchLoop (fuel + 1) s = State.dispatchLoop fuel (s.offerJob n k).1 := by
  rw [State.dispatchLoop, hn, hk]
  cases h : (s.offerJob n k).2 with
  | handed => simp only [h]
  | waits => exact absurd h ho
  | ended => simp only [h]

/-- After its dispatch pass the JDP writes the yields alone (R81, R83). -/
theorem State.settle_yields (s : State) : ∃ y, s.settle
    = { State.dispatchLoop (s.jdp.live.length + s.jdp.backlog.length + 1) s with
        jdp := { (State.dispatchLoop (s.jdp.live.length + s.jdp.backlog.length + 1) s).jdp with yields := y } } := by
  unfold State.settle
  obtain ⟨u, hu⟩ : ∃ u, u = State.dispatchLoop (s.jdp.live.length + s.jdp.backlog.length + 1) s := ⟨_, rfl⟩
  rw [← hu]
  obtain ⟨y, hy⟩ := State.withdrawYields_eq 13 u
  obtain ⟨z, hz⟩ := State.setYields_eq 12 (State.withdrawYields 13 u)
  dsimp only
  rw [hz, hy]
  exact ⟨z, rfl⟩

theorem State.beginJob_lane (s : State) (n : Nat) (j : Job) :
    ((s.beginJob n j).lane n).state = (s.lane n).state ∧ ((s.beginJob n j).lane n).job = (s.lane n).job := by
  unfold State.beginJob
  dsimp only
  split
  · rw [State.startChunk, State.lane_setLane_same]
    exact ⟨rfl, rfl⟩
  · rw [State.startWalk, State.lane_setLane_same]
    exact ⟨rfl, rfl⟩

/-- The lane that is handed a job is BUSY with it (R78). -/
theorem State.handOver_lane (s : State) (n k : Nat) (j : Job) :
    ((s.handOver n k j).1.lane n).state = .busy ∧ ((s.handOver n k j).1.lane n).job = some k := by
  have begun : ∀ (q : State) (l : Lane) (i : Job), l.state = .busy → l.job = some k →
      (((q.setLane n l).beginJob n i).lane n).state = .busy ∧ (((q.setLane n l).beginJob n i).lane n).job = some k :=
    fun q l i hs hj => by
      obtain ⟨state, job⟩ := (q.setLane n l).beginJob_lane n i
      rw [State.lane_setLane_same] at state job
      exact ⟨state.trans hs, job.trans hj⟩
  unfold State.handOver
  dsimp only
  split
  · exact begun _ _ _ rfl rfl
  · exact begun _ _ _ rfl rfl

/-- A candidate without an extent that waits for no record is offered the next free one (R78). -/
theorem State.offerJob_takes {s : State} {k e : Nat} {j : Job} (n : Nat) (hj : s.job? k = some j)
    (hx : j.extent = none) (hw : s.jdp.waits = []) (he : s.freeExtent = some e) :
    s.offerJob n k = if s.emptySource j
      then ((s.takeExtent e j.slot j.segment j.rendition .closed).finishJob k { j with extent := some e } e, .ended)
      else ((s.takeExtent e j.slot j.segment j.rendition .writing).setJob k { j with extent := some e }).handOver n k
        { j with extent := some e } := by
  have asks : s.jdp.waits.contains k = false := by rw [hw]; rfl
  simp only [State.offerJob, hj, hx, asks, he, Bool.false_eq_true, if_false]

/-! ## A freed extent record (R78) -/

/-- The state in which the dispatch pass after a freed extent record begins. -/
def State.extentReported (s : State) : State := (s.received .extentRecordFreed).extentFreed.evalLaneFailed

theorem exec_extentRecordFreed (s : State) :
    exec .extentRecordFreed s = .next s.extentReported.settle.serveClaims := rfl

@[simp] theorem State.extentReported_lanes (s : State) : s.extentReported.lanes = s.lanes :=
  State.evalLaneFailed_lanes _

@[simp] theorem State.extentReported_jdp (s : State) : s.extentReported.jdp = { s.jdp with waits := [] } :=
  State.evalLaneFailed_jdp _

@[simp] theorem State.extentReported_sgc (s : State) : s.extentReported.sgc = s.sgc :=
  State.evalLaneFailed_sgc _

@[simp] theorem State.extentReported_stc (s : State) : s.extentReported.stc = s.stc :=
  State.level_stc ..

theorem State.extentReported_idle {s : State} {n : Nat}
    (h : laneNumbers.find? (fun m => (s.lane m).state == .idle) = some n) :
    laneNumbers.find? (fun m => (s.extentReported.lane m).state == .idle) = some n := by
  simpa only [State.lane_of_lanes s.extentReported_lanes] using h

theorem State.extentReported_candidate (s : State) : s.extentReported.candidate = s.candidate := by
  refine State.candidate_of s.extentReported_lanes ?_ ?_ ?_ ?_ <;> rw [State.extentReported_jdp]

/-- What the candidate is offered once an extent record has been reported freed. -/
theorem State.extentReported_offers {s : State} {k e : Nat} {j : Job} (n : Nat) (hj : s.job? k = some j)
    (hx : j.extent = none) (he : s.freeExtent = some e) {empty : Bool} (hs : s.emptySource j = empty) :
    s.extentReported.offerJob n k = if empty
      then ((s.extentReported.takeExtent e j.slot j.segment j.rendition .closed).finishJob k
        { j with extent := some e } e, .ended)
      else ((s.extentReported.takeExtent e j.slot j.segment j.rendition .writing).setJob k
        { j with extent := some e }).handOver n k { j with extent := some e } := by
  have source : s.extentReported.emptySource j = empty :=
    (State.emptySource_of_sgc s.extentReported_sgc _).trans hs
  have job : s.extentReported.job? k = some j := by
    rw [State.job?, State.extentReported_jdp]
    exact hj
  rw [State.offerJob_takes n job hx (by rw [State.extentReported_jdp])
    ((congrArg (fun x : Stc => x.extents.freeFrom Config.extents x.extentPick) s.extentReported_stc).trans he), source]

/-- The candidate is handed to the lowest IDLE lane. -/
theorem extentRecordFreed_hands {s : State} {n k e : Nat} {j : Job}
    (hn : laneNumbers.find? (fun m => (s.lane m).state == .idle) = some n) (hk : s.candidate = some k)
    (hj : s.job? k = some j) (hx : j.extent = none) (he : s.freeExtent = some e) (hs : s.emptySource j = false) :
    ∃ t, exec .extentRecordFreed s = .next t ∧ (t.lane n).state = .busy ∧ (t.lane n).job = some k := by
  have offered := State.extentReported_offers n hj hx he hs
  rw [if_neg Bool.false_ne_true] at offered
  obtain ⟨busy, job⟩ := State.handOver_lane
    ((s.extentReported.takeExtent e j.slot j.segment j.rendition .writing).setJob k { j with extent := some e }) n k { j with extent := some e }
  rw [← offered] at busy job
  have handed : (s.extentReported.offerJob n k).2 ≠ .waits := by
    rw [offered]
    exact Offered.noConfusion
  obtain ⟨y, settles⟩ := s.extentReported.settle_yields
  have lane : s.extentReported.settle.lane n = (s.extentReported.offerJob n k).1.lane n := by
    rw [settles]
    show (State.dispatchLoop _ _).lane n = _
    rw [State.dispatchLoop_offers (State.extentReported_idle hn) (s.extentReported_candidate.trans hk) handed]
    exact State.dispatchLoop_lane _ _ _ (by rw [busy]; exact LaneState.noConfusion)
  refine ⟨_, exec_extentRecordFreed s, ?_, ?_⟩
  · rw [State.serveClaims_lane_state, lane, busy]
  · rw [State.serveClaims_lane_job, lane, job]

/-! ## A job whose source is EMPTY (R71) -/

theorem State.takeExtent_extentFor (s : State) (n slot segment rendition : Nat) (st : ExtentState) :
    (s.takeExtent n slot segment rendition st).extentFor n slot segment rendition
      = some ⟨slot, segment, rendition, [], 0, st⟩ := by
  have taken : (s.takeExtent n slot segment rendition st).extent? n = some ⟨slot, segment, rendition, [], 0, st⟩ :=
    Table.at?_put_same ..
  simp [State.extentFor, taken]

/-- An extent that is taken CLOSED is not closed again. -/
theorem State.takeExtent_closeExtent (s : State) (n slot segment rendition : Nat) :
    (s.takeExtent n slot segment rendition .closed).closeExtent n slot segment rendition
      = s.takeExtent n slot segment rendition .closed := by
  simp only [State.closeExtent, State.takeExtent_extentFor, reduceCtorEq, if_false]

/-- The state once a job without an extent has ended DONE with an empty one (R71). -/
def State.endsEmpty (s : State) (k e : Nat) (j : Job) : State :=
  (s.takeExtent e j.slot j.segment j.rendition .closed).finishJob k { j with extent := some e } e

theorem State.endsEmpty_eq (s : State) (k e : Nat) (j : Job) : s.endsEmpty k e j
    = ((s.takeExtent e j.slot j.segment j.rendition .closed).send
        (.jobOutcome j.slot j.segment j.rendition (.done e))).freeJob k := by
  rw [State.endsEmpty, State.finishJob, State.takeExtent_closeExtent]

/-- The outcome and the freed record are under way, and the extent is CLOSED and empty. -/
theorem State.endsEmpty_reports (s : State) (k e : Nat) (j : Job) :
    .jobOutcome j.slot j.segment j.rendition (.done e) ∈ (s.endsEmpty k e j).sent
      ∧ .jobRecordFreed ∈ (s.endsEmpty k e j).sent
      ∧ (s.endsEmpty k e j).extent? e = some ⟨j.slot, j.segment, j.rendition, [], 0, .closed⟩ := by
  rw [State.endsEmpty_eq]
  refine ⟨List.mem_append_left _ (List.mem_filter.2 ⟨?_, rfl⟩), ?_, Table.at?_put_same ..⟩
  · exact List.mem_append_right _ (List.mem_singleton.2 rfl)
  · exact List.mem_append_right _ (List.mem_singleton.2 rfl)

theorem State.endsEmpty_claims (s : State) (k e : Nat) (j : Job) : (s.endsEmpty k e j).stc.claims = s.stc.claims := by
  rw [State.endsEmpty_eq]
  rfl

theorem State.endsEmpty_lanes (s : State) (k e : Nat) (j : Job) : (s.endsEmpty k e j).lanes = s.lanes :=
  State.finishJob_lanes ..

/-- The only job queued leaves both lists empty, and its record. -/
theorem State.endsEmpty_jdp {s : State} {k : Nat} (h : s.jdp.live ++ s.jdp.backlog = [k]) (e : Nat) (j : Job) :
    (s.endsEmpty k e j).jdp.live = [] ∧ (s.endsEmpty k e j).jdp.backlog = [] ∧ (s.endsEmpty k e j).job? k = none := by
  have jdp := (s.takeExtent e j.slot j.segment j.rendition .closed).finishJob_jdp k { j with extent := some e } e
  rw [State.job?, State.endsEmpty, jdp]
  refine ⟨?_, ?_, Table.at?_del_same ..⟩ <;>
    rcases List.append_eq_singleton_iff.1 h with ⟨live, backlog⟩ | ⟨live, backlog⟩ <;> simp [live, backlog]

/-- The dispatch pass ends the only job queued, its source EMPTY, and finds no other. -/
theorem State.extentReported_passes {s : State} {n k e : Nat} {j : Job}
    (hn : laneNumbers.find? (fun m => (s.lane m).state == .idle) = some n) (hk : s.jdp.live ++ s.jdp.backlog = [k])
    (hj : s.job? k = some j) (hx : j.extent = none) (he : s.freeExtent = some e) (hs : s.emptySource j = true)
    (fuel : Nat) : State.dispatchLoop (fuel + 1) s.extentReported = s.extentReported.endsEmpty k e j := by
  have offered : s.extentReported.offerJob n k = (s.extentReported.endsEmpty k e j, .ended) :=
    (State.extentReported_offers n hj hx he hs).trans (if_pos rfl)
  obtain ⟨live, backlog, _⟩ := State.endsEmpty_jdp (s := s.extentReported)
    (by rw [State.extentReported_jdp]; exact hk) e j
  rw [State.dispatchLoop_offers (State.extentReported_idle hn)
    (s.extentReported_candidate.trans (State.candidate_only hk)) (by rw [offered]; exact Offered.noConfusion), offered]
  exact State.dispatchLoop_empty _ _ live backlog

/-- The only job queued, its source EMPTY, ends DONE at its dispatch. -/
theorem extentRecordFreed_ends {s : State} {n k e : Nat} {j : Job}
    (hn : laneNumbers.find? (fun m => (s.lane m).state == .idle) = some n) (hk : s.jdp.live ++ s.jdp.backlog = [k])
    (hj : s.job? k = some j) (hx : j.extent = none) (he : s.freeExtent = some e) (hs : s.emptySource j = true)
    (hc : s.stc.claims = []) :
    ∃ t, exec .extentRecordFreed s = .next t ∧ t.job? k = none ∧ t.jdp.live = [] ∧ t.jdp.backlog = []
      ∧ (t.lane n).state = .idle ∧ t.extent? e = some ⟨j.slot, j.segment, j.rendition, [], 0, .closed⟩
      ∧ .jobOutcome j.slot j.segment j.rendition (.done e) ∈ t.sent ∧ .jobRecordFreed ∈ t.sent := by
  have passes := State.extentReported_passes hn hk hj hx he hs
    (s.extentReported.jdp.live.length + s.extentReported.jdp.backlog.length)
  obtain ⟨live, backlog, gone⟩ := State.endsEmpty_jdp (s := s.extentReported)
    (by rw [State.extentReported_jdp]; exact hk) e j
  obtain ⟨outcome, freed, extent⟩ := s.extentReported.endsEmpty_reports k e j
  have claims := (s.extentReported.endsEmpty_claims k e j).trans (congrArg Stc.claims s.extentReported_stc)
  have lanes := (s.extentReported.endsEmpty_lanes k e j).trans s.extentReported_lanes
  obtain ⟨y, settles⟩ := s.extentReported.settle_yields
  rw [passes] at settles
  obtain ⟨u, hu⟩ : ∃ u, u = s.extentReported.endsEmpty k e j := ⟨_, rfl⟩
  rw [← hu] at settles live backlog gone outcome freed extent claims lanes
  have served : s.extentReported.settle.serveClaims.ledger = u.ledger := by
    rw [State.serveClaims_noClaims (by rw [settles]; exact claims.trans hc), State.resumeCopies_ledger, settles]
    rfl
  have sent : s.extentReported.settle.serveClaims.sent = u.sent := congrArg Prod.fst served
  have jdp : s.extentReported.settle.serveClaims.jdp = { u.jdp with yields := y } := by
    rw [State.serveClaims_jdp, settles]
  refine ⟨_, exec_extentRecordFreed s, ?_, by rw [jdp]; exact live, by rw [jdp]; exact backlog, ?_,
    (congrArg (fun x : List Instr × Table Extent => x.2.at? e) served).trans extent, by rw [sent]; exact outcome,
    by rw [sent]; exact freed⟩
  · rw [State.job?, jdp]
    exact gone
  · rw [State.serveClaims_lane_state, settles]
    show (u.lane n).state = .idle
    rw [State.lane_of_lanes lanes]
    exact eq_of_beq (List.find?_some (p := fun m => (s.lane m).state == .idle) hn)

/-! ## The statement -/

/-- Settles O41: the admission, and what the dispatch pass makes of its candidate. -/
theorem freedRecords : Obligations.FreedRecords := by
  refine ⟨fun s slot n l g hl hb h hg => ⟨fun room => ?_, jobRecordFreed_waits hl hb h⟩,
    fun s n k e j hn hk hj hx he hs _ => extentRecordFreed_hands hn hk hj hx he hs,
    fun s n k e j hn hk hj hx he hs hc => extentRecordFreed_ends hn hk hj hx he hs hc⟩
  obtain ⟨t, step, live, record, jobs⟩ := jobRecordFreed_admits hl hb h hg room
  refine ⟨t, _, _, step, live, record, Lecture.working_segment hg, rfl, fun idle => ?_⟩
  obtain ⟨ks, made⟩ := jobs idle
  have number : g.number = n := eq_of_beq (List.find?_some (p := fun g : Segment => g.number == n) hg)
  exact ⟨ks, made.length.trans (l.jobsOf_length slot g), made.nodup, made.tail, made.others,
    fun i q hq => made.free q (List.mem_of_getElem? hq),
    fun i q p hq hp => number ▸ made.records i q _ hq (l.jobsOf_at slot g hp), made.kept⟩

end Sys2Proof.Machine
end

section
/-! PROOF. What an operation of the SGC on its records leaves of the store and of the intake (R33, R42). -/

namespace Sys2Proof.Machine

theorem State.presentMark_below (slot : Nat) (s : State) (r : Role) :
    (State.presentMark slot s r).stc = s.stc ∧ (State.presentMark slot s r).iku = s.iku := by
  unfold State.presentMark
  split
  · exact ⟨rfl, rfl⟩
  · dsimp only
    split <;> exact ⟨rfl, rfl⟩

theorem State.presentMarks_stc (s : State) (slot : Nat) : (s.presentMarks slot).stc = s.stc := by
  unfold State.presentMarks
  split
  · rfl
  · exact foldl_keeps State.stc _ (fun q r => (State.presentMark_below slot q r).1) _ _

theorem State.presentMarks_iku (s : State) (slot : Nat) : (s.presentMarks slot).iku = s.iku := by
  unfold State.presentMarks
  split
  · rfl
  · exact foldl_keeps State.iku _ (fun q r => (State.presentMark_below slot q r).2) _ _

theorem State.setStretch_stc (s : State) (slot : Nat) (m : Stretch) : (s.setStretch slot m).stc = s.stc := by
  unfold State.setStretch
  split <;> rfl

theorem State.endStretch_stc (s : State) (slot : Nat) : (s.endStretch slot).stc = s.stc := by
  unfold State.endStretch
  (repeat' split) <;> first | rfl | exact State.setStretch_stc ..

theorem State.moveStretch_stc (s : State) (slot : Nat) : (s.moveStretch slot).stc = s.stc := by
  unfold State.moveStretch
  (repeat' split) <;> first | rfl | exact State.setStretch_stc ..

theorem State.openNext_stc (s : State) (slot : Nat) (lead : Option Stamp) (ranges : PerRole RoleRange) :
    (s.openNext slot lead ranges).stc = s.stc := by
  unfold State.openNext
  split
  · rfl
  · exact State.endStretch_stc ..

theorem State.openDue_stc (s : State) (slot : Nat) : (s.openDue slot).stc = s.stc := by
  unfold State.openDue
  (repeat' split) <;> first | rfl | exact State.openNext_stc ..

end Sys2Proof.Machine
end

section
/-! PROOF. The protection of the extents of a published segment (R46, R123). -/

namespace Sys2Proof.Machine

/-- From `s` to `t` extents have been protected: a CLOSED one may be PUBLISHED, a block that no page buffer is bound to
may be PROTECTED, and the page buffers, the claims and the relocations stand as they were. -/
structure State.protects (s t : State) : Prop where
  buffers : t.stc.buffers = s.stc.buffers
  waits : t.waits = s.waits
  block : ∀ b, (t.block b).state = (s.block b).state ∨ ((t.block b).state = .guarded ∧ s.bufferBound b = false)

theorem State.protects_refl (s : State) : s.protects s := ⟨rfl, rfl, fun _ => .inl rfl⟩

theorem State.protects.bufferBound {s t : State} (h : s.protects t) (b : Nat) : t.bufferBound b = s.bufferBound b := by
  simp only [State.bufferBound, h.buffers]

theorem State.protects.relocating {s t : State} (h : s.protects t) (b : Nat) : t.relocating b = s.relocating b :=
  congrArg (fun w : List Claim × List Relocation => w.2.any (fun r => r.failed == b)) h.waits

theorem State.protects.trans {s t u : State} (h : s.protects t) (h' : t.protects u) : s.protects u where
  buffers := h'.buffers.trans h.buffers
  waits := h'.waits.trans h.waits
  block b := by
    rcases h'.block b with e | ⟨e, free⟩
    · rw [e]
      exact h.block b
    · exact .inr ⟨e, (h.bufferBound b).symm.trans free⟩

/-- What has been protected is a matter of the store alone. -/
theorem State.protects.of_stc {s t u : State} (h : s.protects t) (e : u.stc = t.stc) : s.protects u where
  buffers := (congrArg Stc.buffers e).trans h.buffers
  waits := (congrArg (fun x : Stc => (x.claims, x.relocations)) e).trans h.waits
  block b := by
    rw [show u.block b = t.block b from congrArg (fun x : Stc => x.blocks.atD b BlockRec.reset) e]
    exact h.block b

/-- A block that is PROTECTED stays so. -/
theorem State.protects.guarded {s t : State} (h : s.protects t) {b : Nat} (hb : (s.block b).state = .guarded) :
    (t.block b).state = .guarded := by
  rcases h.block b with e | ⟨e, _⟩
  · exact e.trans hb
  · exact e

/-! ## One block (R123) -/

theorem State.protectTest_protects (s : State) (g : Nat) : s.protects (s.protectTest g) := by
  unfold State.protectTest
  split
  next c =>
    simp only [Bool.and_eq_true, Bool.not_eq_true'] at c
    obtain ⟨⟨_, free⟩, _⟩ := c
    refine ⟨rfl, rfl, fun b => ?_⟩
    by_cases hb : b = g
    · subst hb
      exact .inr ⟨State.block_setBlockState_same .., free⟩
    · exact .inl (by rw [State.block_setBlockState_ne _ _ hb])
  next => exact s.protects_refl

theorem State.protectTest_extents (s : State) (g : Nat) : (s.protectTest g).stc.extents = s.stc.extents := by
  unfold State.protectTest
  split <;> rfl

theorem State.protectTest_guards {s : State} {g : Nat} (hp : s.inPublished g = true) (hb : s.bufferBound g = false)
    (hr : s.relocating g = false) : ((s.protectTest g).block g).state = .guarded := by
  rw [State.protectTest, hp, hb, hr]
  exact State.block_setBlockState_same ..

/-! ## The blocks of an extent -/

theorem State.protectTests_protects (l : List Nat) (s : State) : s.protects (l.foldl State.protectTest s) := by
  induction l generalizing s with
  | nil => exact s.protects_refl
  | cons g l ih => exact (s.protectTest_protects g).trans (ih _)

theorem State.protectTests_extents (l : List Nat) (s : State) :
    (l.foldl State.protectTest s).stc.extents = s.stc.extents :=
  foldl_keeps (fun q => q.stc.extents) State.protectTest State.protectTest_extents l s

theorem State.protectTests_guards {l : List Nat} {g : Nat} (hg : g ∈ l) {s : State} (hp : s.inPublished g = true)
    (hb : s.bufferBound g = false) (hr : s.relocating g = false) :
    ((l.foldl State.protectTest s).block g).state = .guarded := by
  induction l generalizing s with
  | nil => cases hg
  | cons b l ih =>
    have first := s.protectTest_protects b
    rcases List.mem_cons.1 hg with rfl | hg
    · exact (State.protectTests_protects l _).guarded (State.protectTest_guards hp hb hr)
    · refine ih hg ?_ ((first.bufferBound g).trans hb) ((first.relocating g).trans hr)
      rw [State.inPublished, State.protectTest_extents]
      exact hp

/-! ## One extent (R123) -/

/-- Extent `n` is CLOSED with the blocks of `x`, or it is PUBLISHED and each of its blocks that no page buffer of `s` is
bound to, and that is in no relocation of `s`, is PROTECTED. -/
def State.guards (s t : State) (n : Nat) (x : Extent) : Prop :=
  t.extent? n = some { x with state := .published }
    ∧ ∀ b ∈ x.blocks, s.bufferBound b = false → s.relocating b = false → (t.block b).state = .guarded

theorem State.guards.of_stc {s t u : State} {n : Nat} {x : Extent} (h : s.guards t n x) (e : u.stc = t.stc) :
    s.guards u n x := by
  obtain ⟨extent, blocks⟩ := h
  refine ⟨(congrArg (fun x : Stc => x.extents.at? n) e).trans extent, fun b hb free still => ?_⟩
  rw [show u.block b = t.block b from congrArg (fun x : Stc => x.blocks.atD b BlockRec.reset) e]
  exact blocks b hb free still

theorem State.protectExtent_own {s q : State} (h : s.protects q) {n slot segment rendition : Nat} {x : Extent}
    (hx : q.extentFor n slot segment rendition = some x) (hc : x.state = .closed) :
    s.protects (q.protectExtent n slot segment rendition)
      ∧ s.guards (q.protectExtent n slot segment rendition) n x
      ∧ ∀ m, m ≠ n → (q.protectExtent n slot segment rendition).extent? m = q.extent? m := by
  have step : q.protectExtent n slot segment rendition
      = x.blocks.foldl State.protectTest (q.setExtent n { x with state := .published }) := by
    simp only [State.protectExtent, hx, if_pos hc]
  have set : s.protects (q.setExtent n { x with state := .published }) := ⟨h.buffers, h.waits, h.block⟩
  have extents := State.protectTests_extents x.blocks (q.setExtent n { x with state := .published })
  have published : (q.setExtent n { x with state := .published }).extent? n = some { x with state := .published } :=
    Table.at?_put_same ..
  rw [step]
  refine ⟨set.trans (State.protectTests_protects ..), ⟨?_, fun b hb free still => ?_⟩, fun m hm => ?_⟩
  · rw [State.extent?, extents]
    exact published
  · refine State.protectTests_guards hb ?_ ((set.bufferBound b).trans free) ((set.relocating b).trans still)
    exact List.any_eq_true.2 ⟨_, Table.mem_of_at? published, by simpa using hb⟩
  · rw [State.extent?, extents]
    exact Table.at?_put_ne _ _ hm

/-- Any extent's protection either does nothing or protects that extent. -/
theorem State.protectExtent_cases (q : State) (n slot segment rendition : Nat) :
    q.protectExtent n slot segment rendition = q
      ∨ ∃ x, q.extentFor n slot segment rendition = some x ∧ x.state = .closed := by
  unfold State.protectExtent
  split
  next => exact .inl rfl
  next x hx =>
    split
    next hc => exact .inr ⟨x, hx, hc⟩
    next => exact .inl rfl

theorem State.extent?_of_extentFor {s : State} {n slot segment rendition : Nat} {x : Extent}
    (h : s.extentFor n slot segment rendition = some x) : s.extent? n = some x :=
  (Option.filter_eq_some_iff.1 h).1

/-- The protection of an extent, whichever it is, keeps another that stands CLOSED or has been protected as it is. -/
theorem State.protectExtent_keeps {s q : State} (h : s.protects q) {n : Nat} {x : Extent}
    (m slot segment rendition : Nat) : s.protects (q.protectExtent m slot segment rendition)
      ∧ (q.extent? n = some x → (q.protectExtent m slot segment rendition).extent? n = some x
          ∨ s.guards (q.protectExtent m slot segment rendition) n x)
      ∧ (s.guards q n x → s.guards (q.protectExtent m slot segment rendition) n x) := by
  rcases q.protectExtent_cases m slot segment rendition with e | ⟨y, hy, hc⟩
  · rw [e]
    exact ⟨h, .inl, id⟩
  obtain ⟨protects, own, others⟩ := State.protectExtent_own h hy hc
  obtain ⟨stays, _, _⟩ := State.protectExtent_own q.protects_refl hy hc
  refine ⟨protects, fun hn => ?_, fun ⟨hn, blocks⟩ => ?_⟩
  · by_cases hm : n = m
    · subst hm
      obtain rfl : y = x := Option.some.inj ((State.extent?_of_extentFor hy).symm.trans hn)
      exact .inr own
    · exact .inl ((others n hm).trans hn)
  · have hm : n ≠ m := fun e => by
      subst e
      obtain rfl : y = { x with state := .published } :=
        Option.some.inj ((State.extent?_of_extentFor hy).symm.trans hn)
      cases hc
    exact ⟨(others n hm).trans hn, fun b hb free still => stays.guarded (blocks b hb free still)⟩

/-! ## The extents of a segment's entries (R46) -/

/-- The protection of the extent of one catalogue entry. -/
def State.protectEntry (segment slot : Nat) (q : State) (e : CatalogueEntry) : State :=
  match e.extent with
  | none => q
  | some n => q.protectExtent n slot segment e.rendition

theorem State.protectEntry_keeps {s q : State} (h : s.protects q) {n : Nat} {x : Extent} (segment slot : Nat)
    (e : CatalogueEntry) :
    s.protects (State.protectEntry segment slot q e)
      ∧ (q.extent? n = some x → (State.protectEntry segment slot q e).extent? n = some x
          ∨ s.guards (State.protectEntry segment slot q e) n x)
      ∧ (s.guards q n x → s.guards (State.protectEntry segment slot q e) n x) := by
  unfold State.protectEntry
  split
  · exact ⟨h, .inl, id⟩
  · exact State.protectExtent_keeps h ..

theorem State.protectEntries_keeps (segment slot : Nat) (l : List CatalogueEntry) {s q : State} (h : s.protects q)
    (n : Nat) (x : Extent) : s.protects (l.foldl (State.protectEntry segment slot) q)
      ∧ (s.guards q n x → s.guards (l.foldl (State.protectEntry segment slot) q) n x) := by
  induction l generalizing q with
  | nil => exact ⟨h, id⟩
  | cons e l ih =>
    obtain ⟨protects, _, stays⟩ := State.protectEntry_keeps (n := n) (x := x) h segment slot e
    obtain ⟨all, rest⟩ := ih protects
    exact ⟨all, fun hg => rest (stays hg)⟩

/-- The extent of an entry is protected by the fold over the entries. -/
theorem State.protectEntries_guards {segment slot n : Nat} {x : Extent} {e : CatalogueEntry} (he : e.extent = some n)
    (hc : x.state = .closed) (hf : x.slot = slot ∧ x.segment = segment ∧ x.rendition = e.rendition)
    {l : List CatalogueEntry} (hm : e ∈ l) {s q : State} (h : s.protects q) (hx : q.extent? n = some x) :
    s.guards (l.foldl (State.protectEntry segment slot) q) n x := by
  induction l generalizing q with
  | nil => cases hm
  | cons d l ih =>
    obtain ⟨protects, keeps, _⟩ := State.protectEntry_keeps (n := n) (x := x) h segment slot d
    rcases List.mem_cons.1 hm with rfl | hm
    · refine (State.protectEntries_keeps segment slot l protects n x).2 ?_
      obtain ⟨hslot, hsegment, hrendition⟩ := hf
      have found : q.extentFor n slot segment e.rendition = some x :=
        Option.filter_eq_some_iff.2 ⟨hx, by simp [hslot, hsegment, hrendition]⟩
      simp only [State.protectEntry, he]
      exact (State.protectExtent_own h found hc).2.1
    · rcases keeps hx with e | guards
      · exact ih hm protects e
      · exact (State.protectEntries_keeps segment slot l protects n x).2 guards

theorem State.protectEntries_sgc (segment slot : Nat) (l : List CatalogueEntry) (s : State) :
    (l.foldl (State.protectEntry segment slot) s).sgc = s.sgc :=
  foldl_keeps State.sgc _ (fun q e => by
    unfold State.protectEntry
    split
    · rfl
    · exact State.protectExtent_sgc ..) l s

end Sys2Proof.Machine
end

section
/-! PROOF. The outcome of a job, and the publication of the head of the window (O39). -/

namespace Sys2Proof.Machine

/-! ## The outcome in the segment (R45) -/

/-- A record with another window. -/
def Lecture.windowed (l : Lecture) (w : List Segment) : Lecture := { l with window := w }

/-- A change of the head's number changes the head alone, where no other record has it. -/
theorem Lecture.modSegment_head {l : Lecture} {g : Segment} {rest : List Segment} (hw : l.window = g :: rest)
    (hn : ∀ h ∈ rest, h.number ≠ g.number) (f : Segment → Segment) :
    l.modSegment g.number f = l.windowed (f g :: rest) := by
  have same : rest.map (fun d => if d.number = g.number then f d else d) = rest :=
    (List.map_congr_left fun d hd => if_neg (hn d hd)).trans (List.map_id' rest)
  rw [Lecture.modSegment, hw, List.map_cons, if_pos rfl, same]
  rfl

theorem Lecture.segment_head {l : Lecture} {g : Segment} {rest : List Segment} (hw : l.window = g :: rest) :
    l.segment g.number = some g := by
  simp [Lecture.segment, hw]

/-- With a rendition still PENDING an outcome sets its rendition alone. -/
theorem Segment.outcome_pending {g : Segment} {rendition : Nat} {v : RenditionState}
    (h : ∃ w ∈ (g.outcome rendition v).renditions, w = .pending) :
    g.outcome rendition v = { g with renditions := g.renditions.set rendition v } := by
  obtain ⟨w, hw, rfl⟩ := h
  have notLast : ¬ (g.state = .working ∧ (setRendition g.renditions rendition v).all (· != .pending) = true) :=
    fun c => absurd (List.all_eq_true.1 c.2 _ hw) nofun
  simp only [Segment.outcome, if_neg notLast]
  rfl

/-- The last outcome of a WORKING segment makes it COMPLETE. -/
theorem Segment.outcome_complete {g : Segment} {rendition : Nat} {v : RenditionState} (hg : g.state = .working)
    (h : ∀ w ∈ (g.outcome rendition v).renditions, w ≠ .pending) : (g.outcome rendition v).state = .complete :=
  if_pos ⟨hg, List.all_eq_true.2 fun w hw => bne_iff_ne.2 (h w hw)⟩

/-- The outcome of a job of the head of the window. -/
theorem State.takeOutcome_head {s : State} {slot : Nat} {l : Lecture} {g : Segment} {rest : List Segment}
    (h : s.lecture? slot = some l) (hw : l.window = g :: rest) (hn : ∀ h ∈ rest, h.number ≠ g.number) (rendition : Nat)
    (v : RenditionState) : s.takeOutcome slot g.number rendition v
      = if (g.outcome rendition v).state = .complete
        then ((s.setLecture slot (l.windowed (g.outcome rendition v :: rest))).presentMarks slot).tryPublish slot
        else (s.setLecture slot (l.windowed (g.outcome rendition v :: rest))).presentMarks slot := by
  simp only [State.takeOutcome, h, Lecture.segment_head hw, Lecture.modSegment_head hw hn]

/-! ## Publishing one head (R46 steps 1 to 3) -/

/-- The record once the head of its window has been published. -/
def Lecture.publishedHead (l : Lecture) : Lecture :=
  { l with window := l.window.tail, nextPublish := l.nextPublish + 1, published := l.published + 1 }

theorem State.publishHead_eq (s : State) (slot : Nat) (l : Lecture) (g : Segment) :
    s.publishHead slot l g
      = (let s2 := ((entriesOf slot l g).foldl (State.protectEntry g.number slot) s).setLecture slot l.publishedHead
         { s2 with sgc := { s2.sgc with
             catalogue := s2.sgc.catalogue ++ entriesOf slot l g, waiting := s2.sgc.waiting.filter (· != slot) } }) :=
  rfl

theorem State.publishHead_lecture? (s : State) (slot : Nat) (l : Lecture) (g : Segment) :
    (s.publishHead slot l g).lecture? slot = some l.publishedHead := by
  rw [State.publishHead_eq]
  exact State.lecture?_setLecture_same ..

theorem State.publishHead_catalogue (s : State) (slot : Nat) (l : Lecture) (g : Segment) :
    (s.publishHead slot l g).sgc.catalogue = s.sgc.catalogue ++ entriesOf slot l g := by
  have same : ((entriesOf slot l g).foldl (State.protectEntry g.number slot) s).sgc.catalogue = s.sgc.catalogue := by
    rw [State.protectEntries_sgc]
  rw [State.publishHead_eq]
  exact congrArg (· ++ entriesOf slot l g) same

theorem State.publishHead_stc (s : State) (slot : Nat) (l : Lecture) (g : Segment) :
    (s.publishHead slot l g).stc = ((entriesOf slot l g).foldl (State.protectEntry g.number slot) s).stc := by
  rw [State.publishHead_eq]
  rfl

/-! ## What follows a publication (R22, R16, R33) -/

/-- The record once the segment that waited for room has opened. -/
def Lecture.opensDue (l : Lecture) : Lecture :=
  if l.opensNext then l.opening none (PerRole.all RoleRange.fresh) else l

/-- The record of an ENDING lecture with an empty window is CLOSED. -/
def Lecture.closesEmpty (l : Lecture) : Lecture :=
  if l.state = .ending ∧ l.window = [] then l.stopGaps.inState .closed else l

theorem State.openDue_turns {s : State} {slot : Nat} {l : Lecture} (h : s.lecture? slot = some l) :
    s.turns (s.openDue slot) slot l.opensDue := by
  simp only [State.openDue, h, Lecture.opensDue]
  split
  · exact State.openNext_turns h ..
  · exact State.turns_refl h

theorem State.testClosed_of_not {s : State} {slot : Nat} {l : Lecture} (h : s.lecture? slot = some l)
    (hc : ¬ (l.state = .ending ∧ l.window = [])) : s.testClosed slot = s := by
  simp only [State.testClosed, h, List.isEmpty_iff, if_neg hc]

theorem State.testClosed_turns {s : State} {slot : Nat} {l : Lecture} (h : s.lecture? slot = some l) :
    s.turns (s.testClosed slot) slot l.closesEmpty := by
  by_cases hc : l.state = .ending ∧ l.window = []
  · simp only [State.testClosed, h, List.isEmpty_iff, Lecture.closesEmpty, if_pos hc]
    exact State.closeLecture_turns h
  · rw [State.testClosed_of_not h hc, Lecture.closesEmpty, if_neg hc]
    exact State.turns_refl h

theorem Lecture.opensNext_running {l : Lecture} (h : l.opensNext = true) : l.state = .running := by
  simp only [Lecture.opensNext, Bool.and_eq_true] at h
  exact eq_of_beq h.1.1.1

/-- A segment that opens leaves no lecture ENDING with an empty window. -/
theorem Lecture.opensDue_ends (l : Lecture) :
    (l.opensDue.state = .ending ∧ l.opensDue.window = []) ↔ l.state = .ending ∧ l.window = [] := by
  unfold Lecture.opensDue
  split
  next c =>
    have running := Lecture.opensNext_running c
    refine ⟨fun h => ?_, fun h => ?_⟩
    · exact absurd (running.symm.trans h.1) nofun
    · exact absurd (running.symm.trans h.1) nofun
  next => exact Iff.rfl

/-- What follows a publication opens the segment that waited for room, may move a stretch discard, presents the low
marks, and closes an ENDING lecture with an empty window. -/
theorem State.afterPublication_turns {s : State} {slot : Nat} {l : Lecture} (h : s.lecture? slot = some l) :
    (∃ m f, s.turns (s.afterPublication slot) slot ((l.opensDue.stretched m).marked f).closesEmpty)
      ∧ (¬ (l.state = .ending ∧ l.window = []) → (s.afterPublication slot).stc = s.stc) := by
  have opens := State.openDue_turns (s := s.send (.channelWake slot)) (slot := slot) (l := l) h
  obtain ⟨m, moves, _⟩ := State.moveStretch_turns opens.record
  obtain ⟨f, marks⟩ := State.presentMarks_turns moves.record
  refine ⟨⟨m, f, ?_⟩, fun hc => ?_⟩
  · exact (((opens.trans moves).trans marks).trans (State.testClosed_turns marks.record)).from_sgc rfl
  · have stays := State.testClosed_of_not marks.record fun c => hc (l.opensDue_ends.1 c)
    rw [State.afterPublication, stays, State.presentMarks_stc, State.moveStretch_stc, State.openDue_stc]
    rfl

/-! ## The publication (R46, R47) -/

theorem Lecture.publishable_head {l : Lecture} {g : Segment} {rest : List Segment} (hw : l.window = g :: rest)
    (hs : g.state = .complete) (hn : g.number = l.nextPublish) : l.publishable = some g := by
  simp [Lecture.publishable, hw, hs, hn]

theorem Lecture.publishable_none {l : Lecture} (h : ∀ d, l.window.head? = some d → d.state ≠ .complete) :
    l.publishable = none := by
  cases hd : l.window.head? with
  | none => simp [Lecture.publishable, hd]
  | some d => simp [Lecture.publishable, hd, h d hd]

/-- With no lecture waiting, entries enough, and the record behind it not COMPLETE, the head alone is published. -/
theorem State.tryPublish_one {s : State} {slot : Nat} {l : Lecture} {g : Segment} {rest : List Segment}
    (h : s.lecture? slot = some l) (hw : l.window = g :: rest) (hs : g.state = .complete)
    (hn : g.number = l.nextPublish) (waiting : s.sgc.waiting = [])
    (room : l.profiles.length + s.sgc.catalogue.length ≤ 4096)
    (next : ∀ d, rest.head? = some d → d.state ≠ .complete) :
    s.tryPublish slot = (s.publishHead slot l g).afterPublication slot := by
  have head := Lecture.publishable_head hw hs hn
  have fits : l.profiles.length ≤ s.freeEntries := by
    show l.profiles.length ≤ 4096 - s.sgc.catalogue.length
    omega
  have stops : l.publishedHead.publishable = none :=
    Lecture.publishable_none (by rw [Lecture.publishedHead, hw]; exact next)
  have loop : State.publishLoop slot 9 s = s.publishHead slot l g := by
    simp only [State.publishLoop, h, head, if_pos fits, State.publishHead_lecture?, stops]
  have now : (s.sgc.waiting.isEmpty && s.headFits slot) = true := by
    simp [waiting, State.headFits, h, head, fits]
  simp only [State.tryPublish, h, Option.bind_some, head, now, if_true, State.publishFrom, loop]

/-! ## The statement -/

theorem entriesOf_marked (slot : Nat) (l : Lecture) (f : Role → Nat) (g : Segment) :
    entriesOf slot (l.marked f) g = entriesOf slot l g := by
  have roles : (l.marked f).roles = l.roles := Lecture.roles_of_present fun r => by rw [Lecture.marked_part]
  simp only [entriesOf, Segment.short, roles]

/-- The entry of a DONE rendition. -/
theorem entriesOf_done {slot i n : Nat} {l : Lecture} {g : Segment} (h : g.renditions[i]? = some (.done n)) :
    ∃ e ∈ entriesOf slot l g, e.extent = some n ∧ e.rendition = i :=
  ⟨_, List.mem_map.2 ⟨(.done n, i), List.mem_zipIdx_iff_getElem?.2 h, rfl⟩, rfl, rfl⟩

/-- A job's outcome with another rendition still PENDING. -/
theorem jobOutcome_waits {s : State} {slot rendition : Nat} {result : JobResult} {l : Lecture} {g : Segment}
    {rest : List Segment} (h : s.lecture? slot = some l) (hw : l.window = g :: rest) (hg : g.state = .working)
    (hn : ∀ h ∈ rest, h.number ≠ g.number)
    (hp : ∃ v ∈ (g.outcome rendition (outcomeState result)).renditions, v = .pending) :
    ∃ t k, exec (.jobOutcome slot g.number rendition result) s = .next t ∧ t.lecture? slot = some k
      ∧ k.window = { g with renditions := g.renditions.set rendition (outcomeState result) } :: rest
      ∧ t.sgc.catalogue = s.sgc.catalogue := by
  have got : (s.received (.jobOutcome slot g.number rendition result)).lecture? slot = some l := h
  have taken := State.takeOutcome_head got hw hn rendition (outcomeState result)
  rw [Segment.outcome_pending hp, if_neg (by rw [hg]; exact SegmentState.noConfusion)] at taken
  have set := State.setLecture_turns (s.received (.jobOutcome slot g.number rendition result)) slot
    (l.windowed ({ g with renditions := g.renditions.set rendition (outcomeState result) } :: rest))
  obtain ⟨f, marks⟩ := State.presentMarks_turns set.record
  have turned := (set.trans marks).of_sgc (State.serveClaims_sgc _)
  rw [← taken] at turned
  exact ⟨_, _, rfl, turned.record, rfl, turned.catalogue⟩

/-- The last outcome of a head that can be published: the step, in one publication of that head. -/
theorem State.takeOutcome_publishes {s : State} {slot rendition : Nat} {v : RenditionState} {l : Lecture} {g : Segment}
    {rest : List Segment} (h : s.lecture? slot = some l) (hw : l.window = g :: rest) (hg : g.state = .working)
    (hn : ∀ h ∈ rest, h.number ≠ g.number) (last : ∀ w ∈ (g.outcome rendition v).renditions, w ≠ .pending)
    (number : g.number = l.nextPublish) (waiting : s.sgc.waiting = [])
    (room : l.profiles.length + s.sgc.catalogue.length ≤ 4096)
    (next : ∀ d, rest.head? = some d → d.state ≠ .complete) :
    ∃ (q : State) (f : Role → Nat), q.stc = s.stc ∧ q.sgc.catalogue = s.sgc.catalogue
      ∧ s.takeOutcome slot g.number rendition v
        = (q.publishHead slot ((l.windowed (g.outcome rendition v :: rest)).marked f)
            (g.outcome rendition v)).afterPublication slot := by
  have complete := Segment.outcome_complete hg last
  have taken := State.takeOutcome_head h hw hn rendition v
  rw [if_pos complete] at taken
  have set := State.setLecture_turns s slot (l.windowed (g.outcome rendition v :: rest))
  obtain ⟨f, marks⟩ := State.presentMarks_turns set.record
  have turned := set.trans marks
  refine ⟨_, f, State.presentMarks_stc (s.setLecture slot _) slot, turned.catalogue, taken.trans ?_⟩
  refine State.tryPublish_one (rest := rest) turned.record rfl complete number ?_ ?_ next
  · exact (congrArg Sgc.waiting turned.rest).trans waiting
  · rw [turned.catalogue]
    exact room

/-- The publication of a head protects the extents of its DONE renditions. -/
theorem State.publishHead_guards {s q : State} (stc : q.stc = s.stc) {slot : Nat} (l : Lecture) {g : Segment}
    {i n : Nat} {x : Extent} (hi : g.renditions[i]? = some (.done n)) (hx : s.extentFor n slot g.number i = some x)
    (hc : x.state = .closed) :
    s.protects (q.publishHead slot l g) ∧ s.guards (q.publishHead slot l g) n x := by
  have starts : s.protects q := ⟨congrArg Stc.buffers stc,
    congrArg (fun x : Stc => (x.claims, x.relocations)) stc,
    fun b => .inl (congrArg (fun x : Stc => (x.blocks.atD b BlockRec.reset).state) stc)⟩
  obtain ⟨hxn, hf⟩ := Option.filter_eq_some_iff.1 hx
  simp only [Bool.and_eq_true, beq_iff_eq] at hf
  obtain ⟨⟨hslot, hsegment⟩, hrendition⟩ := hf
  obtain ⟨e, he, extent, rendition⟩ := entriesOf_done (slot := slot) (l := l) hi
  have guards := State.protectEntries_guards extent hc ⟨hslot, hsegment, hrendition.trans rendition.symm⟩ he starts
    ((congrArg (fun x : Stc => x.extents.at? n) stc).trans hxn)
  obtain ⟨protects, _⟩ := State.protectEntries_keeps g.number slot (entriesOf slot l g) starts n x
  have same := q.publishHead_stc slot l g
  exact ⟨protects.of_stc same, guards.of_stc same⟩

/-- Protected blocks, and the others, with nothing left to serve. -/
theorem State.protects.served {s t : State} (h : s.protects t) {n : Nat} {x : Extent} (hg : s.guards t n x)
    (hs : s.atRest) : t.serveClaims.extent? n = some { x with state := .published }
      ∧ ∀ b ∈ x.blocks, s.relocating b = false →
          (t.serveClaims.block b).state = if s.bufferBound b then (s.block b).state else .guarded := by
  rw [State.serveClaims_nil (State.atRest_of_waits h.waits hs)]
  obtain ⟨extent, blocks⟩ := hg
  refine ⟨extent, fun b hb still => ?_⟩
  split
  next bound =>
    rcases h.block b with e | ⟨_, free⟩
    · exact e
    · exact absurd (bound.symm.trans free) nofun
  next free => exact blocks b hb (eq_false_of_ne_true free) still

/-- The record that a publication leaves. -/
theorem Lecture.afterPublished {l : Lecture} {rest : List Segment} (hw : l.window.tail = rest) (m : Stretch)
    (f : Role → Nat) :
    let k := ((l.publishedHead.opensDue.stretched m).marked f).closesEmpty
    k.nextPublish = l.nextPublish + 1 ∧ k.published = l.published + 1
      ∧ ((l.windowed rest).opensNext = false → k.window = rest)
      ∧ ((l.windowed rest).opensNext = true →
          ∃ d, k.window = rest ++ [d] ∧ d.state = .opened ∧ d.number = l.nextSegment)
      ∧ (l.state = .ending → rest = [] → k.state = .closed) := by
  have opensNext : l.publishedHead.opensNext = (l.windowed rest).opensNext := by
    subst hw
    rfl
  have window : l.publishedHead.window = rest := hw
  have closes : ∀ j : Lecture, j.closesEmpty.nextPublish = j.nextPublish ∧ j.closesEmpty.published = j.published
      ∧ j.closesEmpty.window = j.window := fun j => by
    unfold Lecture.closesEmpty
    split <;> exact ⟨rfl, rfl, rfl⟩
  obtain ⟨nextPublish, published, same⟩ := closes ((l.publishedHead.opensDue.stretched m).marked f)
  dsimp only
  rw [nextPublish, published, same]
  by_cases c : (l.windowed rest).opensNext = true
  · have opens : l.publishedHead.opensDue = l.publishedHead.opening none (PerRole.all RoleRange.fresh) :=
      if_pos (opensNext.trans c)
    rw [opens]
    refine ⟨rfl, rfl, fun e => absurd (c.symm.trans e) nofun, fun _ => ⟨_, congrArg (· ++ _) window, rfl, rfl⟩,
      fun e => ?_⟩
    have running : l.state = .running := Lecture.opensNext_running (l := l.windowed rest) c
    exact absurd (running.symm.trans e) nofun
  · have stays : l.publishedHead.opensDue = l.publishedHead := if_neg (by rw [opensNext]; exact c)
    rw [stays]
    refine ⟨rfl, rfl, fun _ => window, fun e => absurd e c, fun e hr => ?_⟩
    have ends : ((l.publishedHead.stretched m).marked f).state = .ending
        ∧ ((l.publishedHead.stretched m).marked f).window = [] := ⟨e, window.trans hr⟩
    rw [Lecture.closesEmpty, if_pos ends]
    rfl

/-- The last outcome: the head is published, and its extents are protected. -/
theorem jobOutcome_publishes {s : State} {slot rendition : Nat} {result : JobResult} {l : Lecture} {g : Segment}
    {rest : List Segment} (h : s.lecture? slot = some l) (hw : l.window = g :: rest) (hg : g.state = .working)
    (hn : ∀ h ∈ rest, h.number ≠ g.number)
    (last : ∀ v ∈ (g.outcome rendition (outcomeState result)).renditions, v ≠ .pending)
    (number : g.number = l.nextPublish) (waiting : s.sgc.waiting = [])
    (room : l.profiles.length + s.sgc.catalogue.length ≤ 4096)
    (next : ∀ d, rest.head? = some d → d.state ≠ .complete) :
    let h := g.outcome rendition (outcomeState result)
    ∃ t k, exec (.jobOutcome slot g.number rendition result) s = .next t ∧ t.lecture? slot = some k
      ∧ k.nextPublish = l.nextPublish + 1 ∧ k.published = l.published + 1
      ∧ t.sgc.catalogue = s.sgc.catalogue ++ entriesOf slot l h
      ∧ (({ l with window := rest } : Lecture).opensNext = false → k.window = rest)
      ∧ (({ l with window := rest } : Lecture).opensNext = true →
          ∃ d, k.window = rest ++ [d] ∧ d.state = .opened ∧ d.number = l.nextSegment)
      ∧ (l.state = .ending → rest = [] → k.state = .closed)
      ∧ (s.atRest → (l.state = .ending → rest ≠ []) → ∀ (i n : Nat) (x : Extent), h.renditions[i]? = some (.done n) →
          s.extentFor n slot g.number i = some x → x.state = .closed →
          t.extent? n = some { x with state := .published }
          ∧ ∀ b ∈ x.blocks, s.relocating b = false →
              (t.block b).state = if s.bufferBound b then (s.block b).state else .guarded) := by
  have got : (s.received (.jobOutcome slot g.number rendition result)).lecture? slot = some l := h
  obtain ⟨q, f, stc, catalogue, taken⟩ := State.takeOutcome_publishes got hw hg hn last number waiting room next
  obtain ⟨hd, hhd⟩ : ∃ d, d = g.outcome rendition (outcomeState result) := ⟨_, rfl⟩
  have named : hd.number = g.number := by rw [hhd]; rfl
  rw [← hhd] at taken ⊢
  have record := q.publishHead_lecture? slot ((l.windowed (hd :: rest)).marked f) hd
  obtain ⟨⟨m, f', turned⟩, store⟩ := State.afterPublication_turns record
  rw [← taken] at turned store
  have final := turned.of_sgc (State.serveClaims_sgc _)
  obtain ⟨nextPublish, published, keeps, opens, closes⟩ :=
    Lecture.afterPublished (l := (l.windowed (hd :: rest)).marked f) (rest := rest) rfl m f'
  refine ⟨_, _, rfl, final.record, nextPublish, published, ?_, keeps, opens, closes,
    fun rests ends i n x hi hx hc => ?_⟩
  · rw [final.catalogue, State.publishHead_catalogue, catalogue, entriesOf_marked]
    rfl
  obtain ⟨protects, guards⟩ := State.publishHead_guards stc ((l.windowed (hd :: rest)).marked f) hi (named ▸ hx) hc
  have same := store fun c => ends c.1 c.2
  exact (protects.of_stc same).served (guards.of_stc same) rests

/-- Settles O39: an outcome with renditions left, and the last one. -/
theorem jobOutcome : Obligations.JobOutcome :=
  fun _ _ _ _ _ _ _ h hw hg hn => ⟨jobOutcome_waits h hw hg hn, jobOutcome_publishes h hw hg hn⟩

end Sys2Proof.Machine
end

section
/-! PROOF. A unit notice of a role that has not ended, in RUNNING and ENDING: the step, but for what filing makes of the
record (R9, R28). -/

namespace Sys2Proof.Machine

/-! ## The record of a notice -/

@[simp] theorem Lecture.noticed_lead (l : Lecture) (n : UnitNotice) : (l.noticed n).lead = l.lead := rfl

theorem Lecture.openSegment_of_window {l k : Lecture} (h : k.window = l.window) : k.openSegment = l.openSegment := by
  rw [Lecture.openSegment, h, Lecture.openSegment]

theorem Lecture.cuttingSegment_of_window {l k : Lecture} (h : k.window = l.window) :
    k.cuttingSegment = l.cuttingSegment := by
  rw [Lecture.cuttingSegment, h, Lecture.cuttingSegment]

/-- A notice leaves whether each role is present, and has ended. -/
theorem Lecture.noticed_flags (l : Lecture) (n : UnitNotice) (q : Role) :
    ((l.noticed n).parts.get q).present = (l.parts.get q).present
      ∧ ((l.noticed n).parts.get q).ended = (l.parts.get q).ended
      ∧ ((l.noticed n).parts.get q).candidates = (l.parts.get q).candidates := by
  by_cases h : q = n.role
  · subst h
    simp only [Lecture.noticed, Lecture.noted, Lecture.heard, Lecture.modPart, PerRole.get_set_same]
    (repeat' split) <;> exact ⟨rfl, rfl, rfl⟩
  · rw [Lecture.noticed_part_ne _ _ h]
    exact ⟨rfl, rfl, rfl⟩

theorem Lecture.noticed_roles (l : Lecture) (n : UnitNotice) : (l.noticed n).roles = l.roles :=
  Lecture.roles_of_present fun q => (l.noticed_flags n q).1

/-- A live lead keeps the lead at a notice of any role. -/
theorem Lecture.noticed_failedOver {l : Lecture} {slot : Nat} {r : Role} {stamp : Stamp} {key : Bool} {p : UnitPlace}
    (hs : l.state = .running) (hl : l.live l.lead = true) (hp : (l.parts.get r).present = true)
    (he : (l.parts.get r).ended = false) :
    (l.noticed (placed slot r stamp key p)).failedOver = l.noticed (placed slot r stamp key p) := by
  refine Lecture.failedOver_of_live ?_
  rw [Lecture.noticed_lead]
  by_cases h : r = l.lead
  · rw [← h]
    exact Lecture.noticed_live hp he (by simp [hs])
  · exact (l.noticed_live_ne (placed slot r stamp key p) (Ne.symm h)).trans hl

theorem State.failover_of_live {s : State} {slot : Nat} {l : Lecture} (h : s.lecture? slot = some l)
    (hl : l.live l.lead = true) : s.failover slot = s := by
  have hc : (l.state = .ending ∨ l.state = .closed) ∨ l.live l.lead = true := .inr hl
  simp only [State.failover, h, if_pos hc]

theorem State.failover_stc (s : State) (slot : Nat) : (s.failover slot).stc = s.stc := by
  unfold State.failover
  split
  · rfl
  split
  · rfl
  split
  · rfl
  · dsimp only
    split
    · exact State.setStretch_stc ..
    · rfl

/-! ## The step -/

/-- The state in which a unit is filed: its notice has been noted, and a failover may have moved the lead. -/
def State.heardOf (s : State) (slot : Nat) (l : Lecture) (n : UnitNotice) : State :=
  ((s.received (.unitNotice n)).setLecture slot (l.noticed n)).failover slot

theorem State.heardOf_turns (s : State) (slot : Nat) (l : Lecture) (n : UnitNotice) :
    s.turns (s.heardOf slot l n) slot (l.noticed n).failedOver := by
  have heard := State.setLecture_turns (s.received (.unitNotice n)) slot (l.noticed n)
  exact (heard.trans (State.failover_turns heard.record)).from_sgc rfl

theorem State.heardOf_stc (s : State) (slot : Nat) (l : Lecture) (n : UnitNotice) : (s.heardOf slot l n).stc = s.stc :=
  State.failover_stc ..

/-- Where the lead stays, a notice leaves the IKU alone. -/
theorem State.heardOf_iku {s : State} {slot : Nat} {l : Lecture} {n : UnitNotice}
    (hl : (l.noticed n).live (l.noticed n).lead = true) : (s.heardOf slot l n).iku = s.iku := by
  rw [State.heardOf, State.failover_of_live (State.lecture?_setLecture_same ..) hl]
  rfl

theorem State.takeNotice_eq {s : State} {n : UnitNotice} {l : Lecture} (h : s.lecture? n.slot = some l)
    (hl : ¬ (l.state = .closed ∨ (l.parts.get n.role).present = false)) :
    (s.received (.unitNotice n)).takeNotice n
      = (((s.heardOf n.slot l n).resume n.slot).useNotice n.slot n).presentMarks n.slot := by
  have got : (s.received (.unitNotice n)).lecture? n.slot = some l := h
  simp only [State.takeNotice, got, if_neg hl]
  rfl

/-- The step of a notice whose unit is filed: what filing makes of the state is left as `u`. -/
theorem exec_unitNotice_files {s : State} {slot : Nat} {r : Role} {stamp : Stamp} {key : Bool} {p : UnitPlace}
    {l : Lecture} (h : s.lecture? slot = some l) (hs : l.state = .running ∨ l.state = .ending)
    (hp : (l.parts.get r).present = true) (he : (l.parts.get r).ended = false) {u : State} {k : Lecture}
    (hu : (s.heardOf slot l (placed slot r stamp key p)).fileUnit slot (placedUnit r stamp key p) = u)
    (hk : u.lecture? slot = some k) :
    ∃ t f, exec (.unitNotice (placed slot r stamp key p)) s = .next t ∧ t.lecture? slot = some (k.marked f)
      ∧ (u.stc = s.stc → s.atRest → t.discard slot = u.discard slot) := by
  have live : ¬ (l.state = .closed ∨ (l.parts.get r).present = false) := by
    rcases hs with e | e <;> simp [e, hp]
  obtain ⟨q, hq⟩ : ∃ q, q = s.heardOf slot l (placed slot r stamp key p) := ⟨_, rfl⟩
  have record := (s.heardOf_turns slot l (placed slot r stamp key p)).record
  rw [← hq] at hu record
  have state : (l.noticed (placed slot r stamp key p)).failedOver.state = l.state := Lecture.failedOver_state _
  have ended : ((l.noticed (placed slot r stamp key p)).failedOver.parts.get r).ended = false := by
    obtain ⟨c, hc⟩ := (l.noticed (placed slot r stamp key p)).failedOver_part r
    rw [hc]
    exact (l.noticed_flags _ r).2.1.trans he
  have taken : (s.received (.unitNotice (placed slot r stamp key p))).takeNotice (placed slot r stamp key p)
      = u.presentMarks slot := by
    have step : (s.received (.unitNotice (placed slot r stamp key p))).takeNotice (placed slot r stamp key p)
        = ((q.resume slot).useNotice slot (placed slot r stamp key p)).presentMarks slot := by
      rw [hq]
      exact State.takeNotice_eq (n := placed slot r stamp key p) h live
    rw [step, State.resume_of_not_stalled record (by rw [state]; rcases hs with e | e <;> simp [e]),
      State.useNotice_files record (by rw [state]; rcases hs with e | e <;> simp [e]) ended, hu]
  obtain ⟨f, marks⟩ := State.presentMarks_turns hk
  refine ⟨_, f, rfl, ?_, fun stc rest => ?_⟩
  · rw [State.lecture?_of_sgc (State.serveClaims_sgc _), taken]
    exact marks.record
  · have same : ((s.received (.unitNotice (placed slot r stamp key p))).takeNotice (placed slot r stamp key p)).stc
        = s.stc := by
      rw [taken, State.presentMarks_stc, stc]
    rw [State.serveClaims_nil (State.atRest_of_waits
      (congrArg (fun x : Stc => (x.claims, x.relocations)) same) rest), taken]
    exact congrArg (fun x : Iku => x.discard.atD slot .off) (u.presentMarks_iku slot)

/-! ## A unit of a role whose start in the OPEN segment is known (R28 step 4) -/

theorem State.fileOpen_known {s : State} {slot : Nat} {l : Lecture} {g : Segment} (h : s.lecture? slot = some l)
    (hg : l.openSegment = some g) {u : FiledUnit} (known : (g.ranges.get u.role).startOffset ≠ none) :
    s.fileOpen slot u = if u.role = l.lead then s.fileLead slot l g u else s.fileOther slot l g u := by
  have started : ¬ (g.ranges.get u.role).startOffset.isNone = true := fun e => known (Option.isNone_iff_eq_none.1 e)
  simp only [State.fileOpen, h, hg, if_neg started]

theorem State.fileUnit_decided {s : State} {slot : Nat} {l : Lecture} (h : s.lecture? slot = some l) {u : FiledUnit}
    (hc : ∀ c, l.cuttingSegment = some c → (c.ranges.get u.role).cut ≠ .pending) :
    s.fileUnit slot u = s.fileOpen slot u := by
  unfold State.fileUnit
  rw [h]
  cases e : l.cuttingSegment with
  | none => simp only [e]
  | some c => simp only [e, if_neg (hc c e)]

/-! ## A unit of another role than the lead (R31, R32) -/

/-- The record with the unit filed as the last of its role in a segment. -/
def Lecture.lies (l : Lecture) (g : Segment) (u : FiledUnit) : Lecture :=
  l.modSegment g.number (fun _ => g.modRange u.role (fun x => { x with lastUnit := some u.stamp }))

theorem State.fileOther_due {s : State} {slot : Nat} {l : Lecture} {g : Segment} {u : FiledUnit}
    (due : (u.good && g.target.any (fun t => stampFrom u.stamp t)) = true) :
    s.fileOther slot l g u = if (l.parts.get u.role).candidates.length < 256
      then s.setLecture slot ((l.lies g u).modPart u.role (fun p => { p with
        candidates := p.candidates ++ [⟨u.stamp, u.start⟩] }))
      else s.setLecture slot { l.lies g u with forcedCut := true } := by
  simp only [State.fileOther, due, if_true]
  rfl

/-- A GOOD unit of another role at or beyond the target joins the candidate list, or arms a forced cut. -/
theorem unitNotice_candidate {s : State} {slot : Nat} {r : Role} {stamp : Stamp} {key : Bool} {p : UnitPlace}
    {l : Lecture} {g : Segment} {target : Stamp} (h : s.lecture? slot = some l) (hs : l.state = .running)
    (hl : l.live l.lead = true) (hw : l.window = [g]) (hg : g.state = .opened) (ht : g.target = some target)
    (known : (g.ranges.get r).startOffset ≠ none) (hp : (l.parts.get r).present = true)
    (he : (l.parts.get r).ended = false) (hr : r ≠ l.lead) (good : p.good = true)
    (due : stampFrom stamp target = true) : ∃ t k, exec (.unitNotice (placed slot r stamp key p)) s = .next t ∧ t.lecture? slot = some k
      ∧ k.window.length = 1
      ∧ ((l.parts.get r).candidates.length < 256 →
          (k.parts.get r).candidates = (l.parts.get r).candidates ++ [⟨stamp, p.start⟩] ∧ k.forcedCut = l.forcedCut)
      ∧ (256 ≤ (l.parts.get r).candidates.length →
          (k.parts.get r).candidates = (l.parts.get r).candidates ∧ k.forcedCut = true) := by
  obtain ⟨j, hj⟩ : ∃ j, j = l.noticed (placed slot r stamp key p) := ⟨_, rfl⟩
  have record := (s.heardOf_turns slot l (placed slot r stamp key p)).record
  rw [Lecture.noticed_failedOver hs hl hp he, ← hj] at record
  have window : j.window = [g] := by rw [hj]; exact hw
  have opened : j.openSegment = some g := by simp [Lecture.openSegment, window, hg]
  have cutting : j.cuttingSegment = none := by simp [Lecture.cuttingSegment, window, hg]
  have candidates : (j.parts.get r).candidates = (l.parts.get r).candidates := by
    rw [hj]
    exact (l.noticed_flags _ r).2.2
  have forcedCut : j.forcedCut = l.forcedCut := by rw [hj]; rfl
  have other : ¬ (placedUnit r stamp key p).role = j.lead := by rw [hj]; exact hr
  have length : (j.lies g (placedUnit r stamp key p)).window.length = 1 := by
    rw [Lecture.lies, Lecture.modSegment_length, window]
    rfl
  have files := State.fileUnit_decided record (u := placedUnit r stamp key p)
    fun c hc => absurd (cutting.symm.trans hc) nofun
  rw [State.fileOpen_known record opened known, if_neg other, State.fileOther_due (by
    show (p.good && g.target.any (fun t => stampFrom stamp t)) = true
    simp [good, ht, due])] at files
  by_cases room : (l.parts.get r).candidates.length < 256
  · rw [if_pos (by rw [show (placedUnit r stamp key p).role = r from rfl, candidates]; exact room)] at files
    obtain ⟨t, f, ht, hk, _⟩ := exec_unitNotice_files h (.inl hs) hp he files (State.lecture?_setLecture_same ..)
    refine ⟨t, _, ht, hk, length, fun _ => ⟨?_, forcedCut⟩, fun full => absurd room (by omega)⟩
    rw [Lecture.marked_part, ← candidates]
    exact congrArg RolePart.candidates (PerRole.get_set_same ..)
  · rw [if_neg (by rw [show (placedUnit r stamp key p).role = r from rfl, candidates]; exact room)] at files
    obtain ⟨t, f, ht, hk, _⟩ := exec_unitNotice_files h (.inl hs) hp he files (State.lecture?_setLecture_same ..)
    refine ⟨t, _, ht, hk, length, fun c => absurd c room, fun _ => ⟨?_, rfl⟩⟩
    rw [Lecture.marked_part]
    exact candidates

end Sys2Proof.Machine
end

section
/-! PROOF. A unit of the lead that takes no cut: it lies in the OPEN segment, which may be POSTPONED, and at the stretch
limit a stretch discard starts (R30, R33). -/

namespace Sys2Proof.Machine

/-! ## What filing makes of the record -/

/-- Whether a cut is due at a unit of the lead: it is KEY and at or beyond the target, or a forced cut is armed
(R29). -/
def Lecture.dueAt (l : Lecture) (g : Segment) (u : FiledUnit) : Bool :=
  l.forcedCut || (u.key && g.target.any (fun t => stampFrom u.stamp t))

/-- The OPEN segment with a unit of the lead in it that did not cut (R30). -/
def Lecture.holds (l : Lecture) (g : Segment) (u : FiledUnit) : Segment :=
  { g.modRange u.role (fun x => { x with lastUnit := some u.stamp }) with postponed := g.postponed || l.dueAt g u }

/-- The record with a unit of the lead in its OPEN segment that did not cut. -/
def Lecture.postpones (l : Lecture) (g : Segment) (u : FiledUnit) : Lecture :=
  l.modSegment g.number (fun _ => l.holds g u)

/-- Whether a unit of the lead reaches the stretch limit, with no stretch discard in force (R33; log 26). -/
def Lecture.reachesLimit (l : Lecture) (g : Segment) (stamp : Stamp) : Prop :=
  l.stretch = .off ∧ ∃ start, g.leadStart = some start
    ∧ stampFrom stamp (start + BitVec.ofNat 32 (4 * (1000 * l.segLength))) = true

/-- The test that `State.fileLead` makes of the stretch limit. -/
theorem Lecture.reachesLimit_iff (l : Lecture) (g : Segment) (stamp : Stamp) : l.reachesLimit g stamp
    ↔ l.stretch = .off ∧ (g.leadStart.map (fun a => a + BitVec.ofNat 32 (4 * l.segMs))).any
        (fun t => stampFrom stamp t) = true := by
  rw [Lecture.reachesLimit, Lecture.segMs, Nat.mul_comm l.segLength]
  cases g.leadStart <;> simp

theorem State.fileLead_stays {s : State} {slot : Nat} {l : Lecture} {g : Segment} {u : FiledUnit}
    (stays : (l.dueAt g u && l.canCut g) = false) [Decidable (l.reachesLimit g u.stamp)] :
    s.fileLead slot l g u = if l.reachesLimit g u.stamp
      then (s.setLecture slot (l.postpones g u)).startStretch slot (l.postpones g u) (l.holds g u)
      else s.setLecture slot (l.postpones g u) := by
  have cut : ¬ ((l.forcedCut || (u.key && g.target.any (fun t => stampFrom u.stamp t))) && l.canCut g) = true :=
    ne_true_of_eq_false stays
  simp only [State.fileLead, if_neg cut, Lecture.reachesLimit_iff]
  rfl

/-- A segment that a stretch discard damages, and the lists emptied (R33). -/
def Lecture.stretching (l : Lecture) (g : Segment) : Lecture :=
  { (l.modSegment g.number (fun g => { g with damaged := true })).clearLists with forcedCut := false }

/-- The stretch discard that starts: KEY_ONLY where a cut is possible at once, else ALL (R33). -/
def Lecture.stretchFor (l : Lecture) (g : Segment) : Stretch := if l.canCut g then .keyOnly else .all

theorem State.startStretch_turns (s : State) (slot : Nat) (l : Lecture) (g : Segment) :
    s.turns (s.startStretch slot l g) slot ((l.stretching g).stretched (l.stretchFor g))
      ∧ (s.startStretch slot l g).stc = s.stc
      ∧ (s.startStretch slot l g).discard slot = (match l.stretchFor g with
          | .off => .off
          | .all => .all
          | .keyOnly => .keyOnly l.lead false) := by
  have set := State.setLecture_turns s slot (l.stretching g)
  have step : s.startStretch slot l g = (s.setLecture slot (l.stretching g)).setStretch slot (l.stretchFor g) := rfl
  rw [step]
  refine ⟨set.trans (State.setStretch_turns set.record _), State.setStretch_stc .., ?_⟩
  rw [State.setStretch_eq set.record, State.discard_setDiscard_same]
  rfl

/-- A unit that lies in the OPEN segment leaves whether a cut is possible. -/
theorem Lecture.postpones_canCut {l : Lecture} {g : Segment} (hg : g.state = .opened)
    (only : ∀ h ∈ l.window, h.number = g.number → h = g) (u : FiledUnit) :
    (l.postpones g u).canCut (l.holds g u) = l.canCut g := by
  have cutting : (l.postpones g u).cuttingSegment.isNone = l.cuttingSegment.isNone := by
    rw [Bool.eq_iff_iff, Option.isNone_iff_eq_none, Option.isNone_iff_eq_none, Lecture.cuttingSegment_none,
      Lecture.cuttingSegment_none]
    have opened : (l.holds g u).state ≠ .cutting := by
      show g.state ≠ .cutting
      rw [hg]
      exact SegmentState.noConfusion
    refine ⟨fun all d hd => ?_, fun all d hd => ?_⟩
    · by_cases hn : d.number = g.number
      · rw [only d hd hn]
        exact opened
      · exact all d (List.mem_map.2 ⟨d, hd, if_neg hn⟩)
    · obtain ⟨e, he, rfl⟩ := List.mem_map.1 hd
      by_cases hn : e.number = g.number
      · rw [if_pos hn]
        exact opened
      · rw [if_neg hn]
        exact all e he
  have length : (l.postpones g u).window.length = l.window.length := Lecture.modSegment_length ..
  rw [Lecture.canCut, cutting, length]
  rfl

/-- What a unit of the lead that did not cut leaves of the window. -/
theorem Lecture.postpones_window {l : Lecture} {g : Segment} (mem : g ∈ l.window) (u : FiledUnit) :
    (l.postpones g u).window.map Segment.number = l.window.map Segment.number
      ∧ l.holds g u ∈ (l.postpones g u).window := by
  refine ⟨?_, List.mem_map.2 ⟨g, mem, if_pos rfl⟩⟩
  rw [Lecture.postpones, Lecture.modSegment, List.map_map]
  refine List.map_congr_left fun d _ => ?_
  by_cases hd : d.number = g.number <;> simp [hd, Lecture.holds, Segment.modRange]

/-- What the start of a stretch discard leaves of the window. -/
theorem Lecture.stretching_window {l : Lecture} {g : Segment} (mem : g ∈ l.window) (m : Stretch) :
    ((l.stretching g).stretched m).window.map Segment.number = l.window.map Segment.number
      ∧ { g with damaged := true } ∈ ((l.stretching g).stretched m).window := by
  refine ⟨?_, List.mem_map.2 ⟨g, mem, if_pos rfl⟩⟩
  show (l.modSegment g.number (fun g => { g with damaged := true })).window.map Segment.number = _
  rw [Lecture.modSegment, List.map_map]
  refine List.map_congr_left fun d _ => ?_
  by_cases hd : d.number = g.number <;> simp [hd]

/-! ## The step -/

/-- A live role is present and has not ended. -/
theorem Lecture.live_flags {l : Lecture} {r : Role} (h : l.live r = true) :
    (l.parts.get r).present = true ∧ (l.parts.get r).ended = false := by
  simp only [Lecture.live, Bool.and_eq_true, Bool.not_eq_true'] at h
  exact h.1

/-- The filing of a unit of the lead whose start is known comes to `State.fileLead`. -/
theorem State.heardOf_fileLead {s : State} {slot : Nat} {stamp : Stamp} {key : Bool} {p : UnitPlace} {l : Lecture}
    {g : Segment} (hs : l.state = .running) (hl : l.live l.lead = true)
    (hg : l.openSegment = some g) (known : (g.ranges.get l.lead).startOffset ≠ none)
    (hc : ∀ c, l.cuttingSegment = some c → (c.ranges.get l.lead).cut ≠ .pending) :
    (s.heardOf slot l (placed slot l.lead stamp key p)).lecture? slot
        = some (l.noticed (placed slot l.lead stamp key p))
      ∧ (s.heardOf slot l (placed slot l.lead stamp key p)).fileUnit slot (placedUnit l.lead stamp key p)
        = (s.heardOf slot l (placed slot l.lead stamp key p)).fileLead slot
            (l.noticed (placed slot l.lead stamp key p)) g (placedUnit l.lead stamp key p) := by
  obtain ⟨hp, he⟩ := Lecture.live_flags hl
  have record := (s.heardOf_turns slot l (placed slot l.lead stamp key p)).record
  rw [Lecture.noticed_failedOver hs hl hp he] at record
  refine ⟨record, ?_⟩
  rw [State.fileUnit_decided (u := placedUnit l.lead stamp key p) record hc,
    State.fileOpen_known (u := placedUnit l.lead stamp key p) record hg known]
  exact if_pos rfl

/-- A unit of the lead that takes no cut. -/
theorem unitNotice_stays {s : State} {slot : Nat} {stamp : Stamp} {key : Bool} {p : UnitPlace} {l : Lecture}
    {g : Segment} (h : s.lecture? slot = some l) (hs : l.state = .running) (hl : l.live l.lead = true)
    (hg : l.openSegment = some g) (only : ∀ h ∈ l.window, h.number = g.number → h = g)
    (known : (g.ranges.get l.lead).startOffset ≠ none)
    (hc : ∀ c, l.cuttingSegment = some c → (c.ranges.get l.lead).cut ≠ .pending)
    (stays : (l.dueAt g (placedUnit l.lead stamp key p) && l.canCut g) = false) :
    ∃ t k a, exec (.unitNotice (placed slot l.lead stamp key p)) s = .next t ∧ t.lecture? slot = some k
      ∧ k.window.map Segment.number = l.window.map Segment.number ∧ a ∈ k.window
      ∧ a.number = g.number ∧ a.state = .opened
      ∧ a.postponed = (g.postponed || l.dueAt g (placedUnit l.lead stamp key p))
      ∧ a.ranges.get l.lead = { g.ranges.get l.lead with lastUnit := some stamp }
      ∧ (¬ l.reachesLimit g stamp → a.damaged = g.damaged ∧ k.forcedCut = l.forcedCut ∧ k.stretch = l.stretch
          ∧ (∀ q, (k.parts.get q).candidates = (l.parts.get q).candidates)
          ∧ (s.atRest → t.discard slot = s.discard slot))
      ∧ (l.reachesLimit g stamp → a.damaged = true ∧ k.forcedCut = false ∧ (∀ q, (k.parts.get q).candidates = [])
          ∧ (l.canCut g = true → k.stretch = .keyOnly ∧ (s.atRest → t.discard slot = .keyOnly l.lead false))
          ∧ (l.canCut g = false → k.stretch = .all ∧ (s.atRest → t.discard slot = .all))) := by
  classical
  obtain ⟨hp, he⟩ := Lecture.live_flags hl
  obtain ⟨_, files⟩ := State.heardOf_fileLead (s := s) (slot := slot) (stamp := stamp) (key := key) (p := p) hs hl hg
    known hc
  have mem : g ∈ l.window := Lecture.openSegment_mem hg
  have opened : g.state = .opened := Lecture.openSegment_state hg
  have live : (l.noticed (placed slot l.lead stamp key p)).live (l.noticed (placed slot l.lead stamp key p)).lead
      = true := Lecture.noticed_live hp he (by simp [hs])
  have stc := s.heardOf_stc slot l (placed slot l.lead stamp key p)
  have iku : (s.heardOf slot l (placed slot l.lead stamp key p)).iku = s.iku := State.heardOf_iku live
  obtain ⟨j, hj⟩ : ∃ j, j = l.noticed (placed slot l.lead stamp key p) := ⟨_, rfl⟩
  have candidates : ∀ q, (j.parts.get q).candidates = (l.parts.get q).candidates := fun q => by
    rw [hj]
    exact (l.noticed_flags _ q).2.2
  have jmem : g ∈ j.window := by rw [hj]; exact mem
  have jonly : ∀ h ∈ j.window, h.number = g.number → h = g := by rw [hj]; exact only
  have limit : j.reachesLimit g (placedUnit l.lead stamp key p).stamp ↔ l.reachesLimit g stamp := by
    rw [hj]
    exact Iff.rfl
  have canCut := Lecture.postpones_canCut opened jonly (placedUnit l.lead stamp key p)
  rw [show j.canCut g = l.canCut g by rw [hj]; rfl] at canCut
  have range : (j.holds g (placedUnit l.lead stamp key p)).ranges.get l.lead
      = { g.ranges.get l.lead with lastUnit := some stamp } := PerRole.get_set_same ..
  rw [← hj, State.fileLead_stays (by rw [hj]; exact stays)] at files
  obtain ⟨numbers, holds⟩ := Lecture.postpones_window jmem (placedUnit l.lead stamp key p)
  by_cases lim : l.reachesLimit g stamp
  · rw [if_pos (limit.2 lim)] at files
    obtain ⟨u, hu⟩ : ∃ u, u = (s.heardOf slot l (placed slot l.lead stamp key p)).setLecture slot
      (j.postpones g (placedUnit l.lead stamp key p)) := ⟨_, rfl⟩
    rw [← hu] at files
    obtain ⟨turned, same, told⟩ := u.startStretch_turns slot (j.postpones g (placedUnit l.lead stamp key p))
      (j.holds g (placedUnit l.lead stamp key p))
    obtain ⟨t, f, ht, hk, rest⟩ := exec_unitNotice_files h (.inl hs) hp he files turned.record
    obtain ⟨numbers', damaged⟩ := Lecture.stretching_window holds ((j.postpones g
      (placedUnit l.lead stamp key p)).stretchFor (j.holds g (placedUnit l.lead stamp key p)))
    have discard : s.atRest → t.discard slot = _ := fun r => (rest (same.trans (by rw [hu]; exact stc)) r).trans told
    have lead : (j.postpones g (placedUnit l.lead stamp key p)).lead = l.lead := by rw [hj]; rfl
    rw [lead] at discard
    refine ⟨t, _, _, ht, hk, (numbers'.trans numbers).trans (by rw [hj]; rfl), damaged, rfl, opened, by rw [hj]; rfl,
      range, fun c => absurd lim c, fun _ => ⟨rfl, rfl, fun q => ?_, fun c => ?_, fun c => ?_⟩⟩
    · rw [Lecture.marked_part]
      exact congrArg RolePart.candidates (PerRole.get_map ..)
    · have keyOnly : (j.postpones g (placedUnit l.lead stamp key p)).stretchFor
          (j.holds g (placedUnit l.lead stamp key p)) = .keyOnly := if_pos (canCut.trans c)
      rw [keyOnly] at discard
      exact ⟨keyOnly, discard⟩
    · have all : (j.postpones g (placedUnit l.lead stamp key p)).stretchFor
          (j.holds g (placedUnit l.lead stamp key p)) = .all := if_neg (ne_true_of_eq_false (canCut.trans c))
      rw [all] at discard
      exact ⟨all, discard⟩
  · rw [if_neg (fun c => lim (limit.1 c))] at files
    obtain ⟨t, f, ht, hk, rest⟩ := exec_unitNotice_files h (.inl hs) hp he files (State.lecture?_setLecture_same ..)
    refine ⟨t, _, _, ht, hk, numbers.trans (by rw [hj]; rfl), holds, rfl, opened, by rw [hj]; rfl, range,
      fun _ => ⟨rfl, by rw [hj]; rfl, by rw [hj]; rfl, fun q => ?_, fun r => (rest stc r).trans ?_⟩,
      fun c => absurd c lim⟩
    · rw [Lecture.marked_part]
      exact candidates q
    · exact congrArg (fun x : Iku => x.discard.atD slot .off) iku

end Sys2Proof.Machine
end

section
/-! PROOF. The lead cut (R29, R32, R35, R41): the segment it leaves, and the segment it opens. -/

namespace Sys2Proof.Machine

/-! ## The cut segment -/

/-- The ranges of the roles at the lead cut (R29 steps 1 and 2). -/
def Lecture.cutRanges (l : Lecture) (g : Segment) (u : FiledUnit) : PerRole RoleRange :=
  g.ranges.map (fun r x =>
    if !(l.parts.get r).present then x
    else if r = u.role then { x with endOffset := some u.start, endStamp := some u.stamp, cut := .cut }
    else cutRange l u.stamp r x)

/-- The OPEN segment at the lead cut, before it is sealed or left CUTTING. -/
def Lecture.cutsAt (l : Lecture) (g : Segment) (u : FiledUnit) : Segment :=
  { g with cutRole := some u.role, cutStamp := some u.stamp, ranges := l.cutRanges g u,
           forcedCut := g.forcedCut || l.forcedCut }

/-- A segment left CUTTING, its skew timer started (R36). -/
def Lecture.leftCutting (l : Lecture) (c : Segment) : Segment :=
  { c with state := .cutting, skewRunning := true, skewLeft := l.skewLimit * 1000 * Config.ticksPerMs }

/-- The segment that the lead cut leaves, but for its admission: sealed where no role is PENDING, else CUTTING. -/
def Lecture.cutSegment (l : Lecture) (g : Segment) (u : FiledUnit) : Segment :=
  if (l.cutsAt g u).settled l.roles then (l.cutsAt g u).fixed l else l.leftCutting (l.cutsAt g u)

/-- The record that the lead cut leaves, before the next segment opens or the lecture ends. -/
def Lecture.cutLeaves (l : Lecture) (g : Segment) (u : FiledUnit) (p : Nat → Bool) : Lecture :=
  { ((l.modSegment g.number (fun _ => l.cutSegment g u)).clearLists.admitted p) with
      forcedCut := false, stretch := .off }

/-- The record after the lead cut: the next segment opens, or after segment 65535 the lecture ends. -/
def Lecture.afterCut (l : Lecture) (g : Segment) (u : FiledUnit) (p : Nat → Bool) : Lecture :=
  if g.number = 65535 then
    (l.cutLeaves g u p).stopped (if (l.cutLeaves g u p).window = [] then .closed else .ending)
  else (l.cutLeaves g u p).opening (some u.stamp) ((l.cutRanges g u).map (fun r x => nextRange l u r x))

theorem Lecture.cutSegment_number (l : Lecture) (g : Segment) (u : FiledUnit) :
    (l.cutSegment g u).number = g.number := by
  unfold Lecture.cutSegment
  split <;> rfl

/-- The window with the segments of a number replaced, and some admitted. -/
theorem Lecture.modSegment_admitted_window (l : Lecture) {n : Nat} {a : Segment} (hn : a.number = n) (p : Nat → Bool) :
    ((l.modSegment n (fun _ => a)).admitted p).window = l.window.map (fun d =>
      (if d.number = n then a else d).admittedIf (p d.number)) := by
  simp only [Lecture.admitted, Lecture.modSegment, List.map_map]
  refine List.map_congr_left fun d _ => ?_
  by_cases hd : d.number = n
  · simp [hd, hn]
  · simp [hd]

theorem Lecture.cutLeaves_window (l : Lecture) (g : Segment) (u : FiledUnit) (p : Nat → Bool) :
    (l.cutLeaves g u p).window = l.window.map (fun d =>
      (if d.number = g.number then l.cutSegment g u else d).admittedIf (p d.number)) :=
  l.modSegment_admitted_window (l.cutSegment_number g u) p

theorem Lecture.cutLeaves_numbers (l : Lecture) (g : Segment) (u : FiledUnit) (p : Nat → Bool) :
    (l.cutLeaves g u p).window.map Segment.number = l.window.map Segment.number := by
  rw [Lecture.cutLeaves_window, List.map_map]
  refine List.map_congr_left fun d _ => ?_
  by_cases hd : d.number = g.number <;> simp [hd, Lecture.cutSegment_number]

theorem Lecture.cutLeaves_mem {l : Lecture} {g : Segment} (mem : g ∈ l.window) (u : FiledUnit) (p : Nat → Bool) :
    (l.cutSegment g u).admittedIf (p g.number) ∈ (l.cutLeaves g u p).window := by
  rw [Lecture.cutLeaves_window]
  exact List.mem_map.2 ⟨g, mem, by rw [if_pos rfl]⟩

/-- What the lead cut leaves of the lecture. -/
theorem Lecture.cutLeaves_shares (l : Lecture) (g : Segment) (u : FiledUnit) (p : Nat → Bool) :
    (l.cutLeaves g u p).state = l.state ∧ (l.cutLeaves g u p).lead = l.lead
      ∧ (l.cutLeaves g u p).nextSegment = l.nextSegment := by
  rw [Lecture.cutLeaves, Lecture.admitted, Lecture.clearLists, Lecture.mapParts, Lecture.modSegment]
  exact ⟨rfl, rfl, rfl⟩

/-- What the opening of the next segment leaves of the lecture. -/
theorem Lecture.opening_shares (l : Lecture) (lead : Option Stamp) (ranges : PerRole RoleRange) (f : Role → Nat) :
    ((l.opening lead ranges).marked f).state = l.state ∧ ((l.opening lead ranges).marked f).lead = l.lead
      ∧ ((l.opening lead ranges).marked f).nextSegment = min 65535 (l.nextSegment + 1)
      ∧ ((l.opening lead ranges).marked f).window = l.window ++ [freshSegment l lead ranges] :=
  ⟨rfl, rfl, rfl, rfl⟩

theorem Lecture.opening_cutCleared (l : Lecture) (lead : Option Stamp) (ranges : PerRole RoleRange) :
    (l.opening lead ranges).cutCleared :=
  ⟨rfl, fun q => congrArg RolePart.candidates (l.opening_part lead ranges q), rfl⟩

theorem Lecture.cutLeaves_cutCleared (l : Lecture) (g : Segment) (u : FiledUnit) (p : Nat → Bool) :
    (l.cutLeaves g u p).cutCleared :=
  ⟨rfl, fun _ => congrArg RolePart.candidates (PerRole.get_map ..), rfl⟩

/-! ## The step of the lead cut -/

/-- What sealing fixes depends on the present roles and the segment length alone. -/
theorem Segment.fixed_congr {l k : Lecture} (present : ∀ r, (k.parts.get r).present = (l.parts.get r).present)
    (length : k.segLength = l.segLength) (g : Segment) : g.fixed k = g.fixed l := by
  simp only [Segment.fixed, Lecture.segMs, Lecture.roles_of_present present, present, length]

/-- Sealing the segments of a number that have just been replaced. -/
theorem Lecture.modSegment_sealing (l : Lecture) {n : Nat} {c : Segment} (hn : c.number = n) :
    (l.modSegment n (fun _ => c)).sealing n = l.modSegment n (fun _ => c.fixed l) := by
  have window : ((l.modSegment n (fun _ => c)).sealing n).window = (l.modSegment n (fun _ => c.fixed l)).window := by
    simp only [Lecture.sealing, Lecture.modSegment, List.map_map]
    refine List.map_congr_left fun d _ => ?_
    by_cases hd : d.number = n
    · simp only [Function.comp, if_pos hd, if_pos hn]
      rfl
    · simp only [Function.comp, if_neg hd]
  exact congrArg (fun w => { l with window := w }) window

/-- The record in which the cut segment stands before it is sealed. -/
def Lecture.cutWith (l : Lecture) (g c : Segment) : Lecture :=
  { (l.modSegment g.number (fun _ => c)).clearLists with forcedCut := false }

theorem Lecture.cutWith_sealed (l : Lecture) {g c : Segment} (hn : c.number = g.number) :
    (l.cutWith g c).sealing g.number = l.cutWith g (c.fixed l) := by
  have fixed : c.fixed { l.clearLists with forcedCut := false } = c.fixed l :=
    Segment.fixed_congr (fun r => by rw [Lecture.clearLists, Lecture.mapParts, PerRole.get_map]) rfl c
  have sealed := Lecture.modSegment_sealing { l.clearLists with forcedCut := false } hn
  rw [fixed] at sealed
  exact sealed

/-- The lead cut of the OPEN segment, its stretch discard ended: the next segment has not opened yet. -/
def State.cutOpen (s : State) (slot : Nat) (l : Lecture) (g : Segment) (u : FiledUnit) : State :=
  let c := l.cutsAt g u
  let t := s.setLecture slot (l.cutWith g (if c.settled l.roles then c else l.leftCutting c))
  (if c.settled l.roles then t.sealSegment slot g.number else t).endStretch slot

theorem State.leadCut_eq (s : State) (slot : Nat) (l : Lecture) (g : Segment) (u : FiledUnit) :
    s.leadCut slot l g u = if g.number = 65535 then (s.cutOpen slot l g u).enterEnding slot
      else (s.cutOpen slot l g u).openNext slot (some u.stamp)
        ((l.cutRanges g u).map (fun r x => nextRange l u r x)) := rfl

theorem State.cutOpen_record (s : State) (slot : Nat) (l : Lecture) (g : Segment) (u : FiledUnit) :
    ∃ p, (∀ j, p j = true → (l.cutsAt g u).settled l.roles = true)
      ∧ (s.cutOpen slot l g u).lecture? slot = some (l.cutLeaves g u p) := by
  unfold State.cutOpen Lecture.cutLeaves Lecture.cutSegment
  by_cases settled : (l.cutsAt g u).settled l.roles = true
  · simp only [if_pos settled]
    obtain ⟨m, p, record, _⟩ := State.sealSegment_record
      (State.setLecture_turns s slot (l.cutWith g (l.cutsAt g u))).record g.number
    rw [Lecture.cutWith_sealed (g := g) (c := l.cutsAt g u) l rfl] at record
    exact ⟨p, fun _ _ => settled, (State.endStretch_turns record).record⟩
  · simp only [if_neg settled]
    have record := (State.setLecture_turns s slot (l.cutWith g (l.leftCutting (l.cutsAt g u)))).record
    refine ⟨fun _ => false, nofun, (State.endStretch_turns record).record.trans (congrArg some ?_)⟩
    rw [Lecture.admitted_none]
    rfl

theorem State.leadCut_record (s : State) (slot : Nat) (l : Lecture) (g : Segment) (u : FiledUnit) :
    ∃ p, (∀ j, p j = true → (l.cutsAt g u).settled l.roles = true)
      ∧ (s.leadCut slot l g u).lecture? slot = some (l.afterCut g u p) := by
  obtain ⟨p, settled, record⟩ := s.cutOpen_record slot l g u
  refine ⟨p, settled, ?_⟩
  rw [State.leadCut_eq, Lecture.afterCut]
  split
  next => exact (State.enterEnding_turns record).record
  next => exact (State.openNext_turns record ..).record

theorem State.fileLead_cuts {s : State} {slot : Nat} {l : Lecture} {g : Segment} {u : FiledUnit}
    (cuts : (l.dueAt g u && l.canCut g) = true) : s.fileLead slot l g u = s.leadCut slot l g u :=
  if_pos cuts

/-! ## How a role stands at the lead cut -/

theorem cutRange_resolves {l : Lecture} {x : RoleRange} (hx : x.cut = .pending) (b : Stamp) (q : Role) :
    (l.parts.get q).resolvesCut b x (cutRange l b q x) := by
  refine ⟨fun unstarted => ?_, fun start started => ?_⟩
  · have ends : cutRange l b q x = x.endAt (l.parts.get q).noticedEnd := if_pos (by simp [unstarted])
    rw [ends, RoleRange.endAt_unstarted unstarted]
    exact ⟨rfl, rfl, rfl, rfl, rfl⟩
  · by_cases he : (l.parts.get q).ended = true
    · have ends : cutRange l b q x = x.endAt (l.parts.get q).noticedEnd := if_pos (by simp [he])
      rw [ends, RoleRange.endAt_started started]
      exact ⟨started, rfl, fun _ => ⟨rfl, rfl, rfl⟩, fun _ e => absurd he (ne_true_of_eq_false e),
        fun e => absurd he (ne_true_of_eq_false e)⟩
    · have takes : cutRange l b q x = match (l.parts.get q).candidates.find? (fun c => stampFrom c.stamp b) with
          | some c => { x with endOffset := some c.offset, endStamp := some c.stamp, cut := .cut }
          | none => x := if_neg (by simp [he, started])
      rw [takes]
      cases hf : (l.parts.get q).candidates.find? (fun c => stampFrom c.stamp b) with
      | none =>
        exact ⟨started, rfl, fun e => absurd e he, fun _ _ e => absurd e nofun, fun _ _ => ⟨hx, rfl⟩⟩
      | some c =>
        refine ⟨started, rfl, fun e => absurd e he, fun d _ e => ?_, fun _ all => ?_⟩
        · obtain rfl : c = d := Option.some.inj e
          exact ⟨rfl, rfl, rfl⟩
        · have passes := List.find?_some (p := fun c : CutCandidate => stampFrom c.stamp b) hf
          exact absurd passes (ne_true_of_eq_false (all c (List.mem_of_find?_eq_some hf)))

/-- A role that the lead cut has CUT has the place and the stamp of its cut unit. -/
theorem cutRange_cut {l : Lecture} {x : RoleRange} (hx : x.cut = .pending) {b : Stamp} {q : Role}
    (hc : (cutRange l b q x).cut = .cut) :
    ∃ o e, (cutRange l b q x).endOffset = some o ∧ (cutRange l b q x).endStamp = some e := by
  unfold cutRange at hc ⊢
  dsimp only at hc ⊢
  split at hc
  next =>
    obtain ⟨ended, _⟩ := x.endAt_takesEnd (l.parts.get q).noticedEnd
    rw [ended] at hc
    cases hc
  next h =>
    rw [if_neg h]
    split at hc
    next => exact ⟨_, _, rfl, rfl⟩
    next => rw [hx] at hc; cases hc

/-- Sealing changes the status of a range alone. -/
theorem RolePart.resolvesCut_status {p : RolePart} {b : Stamp} {x y : RoleRange} (h : p.resolvesCut b x y)
    (hy : y.cut ≠ .pending) (st : RoleStatus) : p.resolvesCut b x { y with status := st } := by
  obtain ⟨unstarted, started⟩ := h
  refine ⟨unstarted, fun a ha => ?_⟩
  obtain ⟨start, stamp, ended, cut, pending⟩ := started a ha
  exact ⟨start, stamp, ended, cut, fun e all => absurd (pending e all).1 hy⟩

theorem Lecture.cutRanges_lead {l : Lecture} {u : FiledUnit} (hp : (l.parts.get u.role).present = true) (g : Segment) :
    (l.cutRanges g u).get u.role = { g.ranges.get u.role with
      endOffset := some u.start, endStamp := some u.stamp, cut := .cut } := by
  rw [Lecture.cutRanges, PerRole.get_map, if_neg (by simp [hp]), if_pos rfl]

theorem Lecture.cutRanges_other {l : Lecture} {u : FiledUnit} {q : Role} (hp : (l.parts.get q).present = true)
    (hq : q ≠ u.role) (g : Segment) : (l.cutRanges g u).get q = cutRange l u.stamp q (g.ranges.get q) := by
  rw [Lecture.cutRanges, PerRole.get_map, if_neg (by simp [hp]), if_neg hq]

theorem Segment.settled_iff {g : Segment} {roles : List Role} :
    g.settled roles = true ↔ ∀ q ∈ roles, (g.ranges.get q).cut ≠ .pending := by
  simp [Segment.settled, bne_iff_ne]

/-- The range of a present role in the segment that the cut leaves. -/
theorem Lecture.cutSegment_range {l : Lecture} {q : Role} (hp : (l.parts.get q).present = true) (g : Segment)
    (u : FiledUnit) (b : Bool) : ∃ st, ((l.cutSegment g u).admittedIf b).ranges.get q
        = { (l.cutRanges g u).get q with status := st }
      ∧ ((l.cutsAt g u).settled l.roles = false →
          ((l.cutSegment g u).admittedIf b).ranges.get q = (l.cutRanges g u).get q) := by
  rw [((l.cutSegment g u).admittedIf_keeps b).1, Lecture.cutSegment]
  split
  next h =>
    refine ⟨_, Segment.fixed_range _ hp, fun e => ?_⟩
    rw [e] at h
    cases h
  next => exact ⟨_, rfl, fun _ => rfl⟩

/-- The segment that the lead cut leaves. -/
theorem Lecture.cutSegment_leadCuts {l : Lecture} {g : Segment} {u : FiledUnit} (hu : u.role = l.lead)
    (hp : (l.parts.get l.lead).present = true)
    (pending : ∀ q ∈ l.roles, q ≠ l.lead → (g.ranges.get q).cut = .pending) {b : Bool}
    (admitted : b = true → (l.cutsAt g u).settled l.roles = true) :
    l.leadCuts u.stamp u.start g ((l.cutSegment g u).admittedIf b) := by
  have resolves : ∀ q ∈ l.roles, q ≠ l.lead →
      (l.parts.get q).resolvesCut u.stamp (g.ranges.get q) ((l.cutRanges g u).get q) := fun q hq hne => by
    rw [Lecture.cutRanges_other (Lecture.mem_roles.1 hq) (fun e => hne (e.trans hu))]
    exact cutRange_resolves (pending q hq hne) ..
  have cuts : ∀ q ∈ l.roles, (((l.cutSegment g u).admittedIf b).ranges.get q).cut = ((l.cutRanges g u).get q).cut :=
    fun q hq => by
      obtain ⟨st, range, _⟩ := Lecture.cutSegment_range (Lecture.mem_roles.1 hq) g u b
      rw [range]
  obtain ⟨st, lead, _⟩ := Lecture.cutSegment_range hp g u b
  have atLead := Lecture.cutRanges_lead (u := u) (by rw [hu]; exact hp) g
  rw [hu] at atLead
  by_cases settled : (l.cutsAt g u).settled l.roles = true
  · have decided := Segment.settled_iff.1 settled
    have sealed : l.cutSegment g u = (l.cutsAt g u).fixed l := if_pos settled
    obtain ⟨_, endStamp, _, _⟩ := (l.cutSegment g u).admittedIf_keeps b
    have same : (l.cutSegment g u).admittedIf b
        = { (l.cutsAt g u).fixed l with state := ((l.cutSegment g u).admittedIf b).state } := by
      rw [sealed]
      cases b <;> rfl
    refine ⟨by rw [same]; rfl, by rw [same]; rfl, by rw [same, ← hu]; rfl, by rw [same]; rfl, by rw [same]; rfl,
      by rw [same]; rfl, ?_, fun q hq hne => ?_, fun ⟨q, hq, hc⟩ => ?_, fun _ => ⟨?_, ?_, by rw [same]; rfl⟩⟩
    · rw [lead, atLead]
      exact ⟨rfl, rfl, rfl, rfl⟩
    · obtain ⟨_, range, _⟩ := Lecture.cutSegment_range (Lecture.mem_roles.1 hq) g u b
      rw [range]
      exact RolePart.resolvesCut_status (resolves q hq hne) (decided q hq) _
    · exact absurd ((cuts q hq).symm.trans hc) (decided q hq)
    · rw [sealed]
      exact Segment.admittedIf_sealed rfl b
    · rw [endStamp, sealed]
      exact Segment.fixed_endStamp_cut rfl l
  · have notSettled := eq_false_of_ne_true settled
    have left : l.cutSegment g u = l.leftCutting (l.cutsAt g u) := if_neg settled
    obtain rfl : b = false := eq_false_of_ne_true fun e => settled (admitted e)
    rw [left]
    refine ⟨rfl, rfl, congrArg some hu, rfl, rfl, rfl, ?_, resolves, fun _ => ⟨rfl, rfl, ?_⟩,
      fun h => absurd (Segment.settled_iff.2 h) settled⟩
    · rw [left] at lead
      rw [lead, atLead]
      exact ⟨rfl, rfl, rfl, rfl⟩
    · show l.skewLimit * 1000 * 8 = l.skewLimit * 8000
      omega

/-- The segment that opens at the lead cut. -/
theorem Lecture.opening_opensAtCut {l : Lecture} {g : Segment} {u : FiledUnit} (hu : u.role = l.lead)
    (pending : ∀ q ∈ l.roles, q ≠ l.lead → (g.ranges.get q).cut = .pending) (p : Nat → Bool) (b : Bool) :
    l.opensAtCut u.stamp u.start ((l.cutSegment g u).admittedIf b) (freshSegment (l.cutLeaves g u p) (some u.stamp)
      ((l.cutRanges g u).map (fun r x => nextRange l u r x))) := by
  have range : ∀ q, ((l.cutRanges g u).map (fun r x => nextRange l u r x)).get q
      = nextRange l u q ((l.cutRanges g u).get q) := fun q => PerRole.get_map ..
  have lead : ((l.cutRanges g u).map (fun r x => nextRange l u r x)).get l.lead = startRange u.stamp u.start := by
    rw [range]
    exact if_pos hu.symm
  refine ⟨rfl, rfl, rfl, ?_, rfl, congrArg RoleRange.startOffset lead, congrArg RoleRange.startStamp lead,
    fun q hq hne => ?_⟩
  · show (match some u.stamp, l.base with
      | some a, some b => some (targetStamp b a l.segMs)
      | _, _ => none) = _
    rw [Lecture.segMs, Nat.mul_comm l.segLength]
    cases l.base <;> rfl
  have hp := Lecture.mem_roles.1 hq
  have other : q ≠ u.role := fun e => hne (e.trans hu)
  obtain ⟨st, cut, _⟩ := Lecture.cutSegment_range hp g u b
  have atCut := Lecture.cutRanges_other hp other g
  have next : (freshSegment (l.cutLeaves g u p) (some u.stamp)
      ((l.cutRanges g u).map (fun r x => nextRange l u r x))).ranges.get q
        = nextRange l u q (cutRange l u.stamp q (g.ranges.get q)) := by
    rw [← atCut]
    exact range q
  rw [cut, next, atCut]
  refine ⟨fun hc => ?_, fun hc => ?_⟩
  · obtain ⟨o, e, ho, he⟩ := cutRange_cut (pending q hq hne) hc
    have starts : nextRange l u q (cutRange l u.stamp q (g.ranges.get q))
        = { startRange e o with lastUnit := (l.parts.get q).noticedStamp } := by
      rw [nextRange, if_neg other, show (cutRange l u.stamp q (g.ranges.get q)).cut = .cut from hc, ho, he]
    rw [starts]
    exact ⟨ho.symm, he.symm⟩
  · rw [nextRange, if_neg other]
    split
    next h _ _ => exact absurd h hc
    next => rfl

end Sys2Proof.Machine
end

section
/-! PROOF. A unit of the lead that takes the lead cut (R29, R30): the step. -/

namespace Sys2Proof.Machine

/-! ## What a notice of the lead leaves of the statements about the cut -/

theorem Lecture.noticed_leadCuts {l : Lecture} {n : UnitNotice} (hn : n.role = l.lead) {stamp : Stamp} {offset : Nat}
    {g a : Segment} (h : (l.noticed n).leadCuts stamp offset g a) : l.leadCuts stamp offset g a := by
  rw [Lecture.leadCuts, Lecture.noticed_roles] at h
  obtain ⟨number, leadStart, cutRole, cutStamp, forced, postponed, lead, others, rest⟩ := h
  refine ⟨number, leadStart, cutRole, cutStamp, forced, postponed, lead, fun q hq hne => ?_, rest⟩
  rw [← Lecture.noticed_part_ne l n (fun e => hne (e.trans hn))]
  exact others q hq hne

theorem Lecture.noticed_opensAtCut {l j : Lecture} {n : UnitNotice} (hj : j = l.noticed n) {stamp : Stamp}
    {offset : Nat} {a b : Segment} (h : j.opensAtCut stamp offset a b) : l.opensAtCut stamp offset a b := by
  rw [hj, Lecture.opensAtCut, Lecture.noticed_roles] at h
  exact h

/-! ## The step -/

/-- A unit of the lead at which a cut is due and possible. -/
theorem unitNotice_cuts {s : State} {slot : Nat} {stamp : Stamp} {key : Bool} {p : UnitPlace} {l : Lecture}
    {g : Segment} (h : s.lecture? slot = some l) (hs : l.state = .running) (hl : l.live l.lead = true)
    (hg : l.openSegment = some g) (known : (g.ranges.get l.lead).startOffset ≠ none) (hc : l.cuttingSegment = none)
    (due : l.dueAt g (placedUnit l.lead stamp key p) = true) (room : l.window.length < 8 ∨ g.number = 65535) :
    ∃ j t w f, j = l.noticed (placed slot l.lead stamp key p)
      ∧ exec (.unitNotice (placed slot l.lead stamp key p)) s = .next t
      ∧ t.lecture? slot = some ((j.afterCut g (placedUnit l.lead stamp key p) w).marked f)
      ∧ ∀ n, w n = true → (j.cutsAt g (placedUnit l.lead stamp key p)).settled j.roles = true := by
  obtain ⟨hp, he⟩ := Lecture.live_flags hl
  obtain ⟨_, files⟩ := State.heardOf_fileLead (s := s) (slot := slot) (stamp := stamp) (key := key) (p := p) hs hl hg
    known fun c e => absurd (hc.symm.trans e) nofun
  obtain ⟨j, hj⟩ : ∃ j, j = l.noticed (placed slot l.lead stamp key p) := ⟨_, rfl⟩
  have canCut : l.canCut g = true := by
    rcases room with room | room <;> simp [Lecture.canCut, hc, room]
  have cuts : (j.dueAt g (placedUnit l.lead stamp key p) && j.canCut g) = true := by
    rw [hj]
    exact Bool.and_eq_true_iff.2 ⟨due, canCut⟩
  rw [← hj, State.fileLead_cuts cuts] at files
  obtain ⟨w, settled, record⟩ := State.leadCut_record (s.heardOf slot l (placed slot l.lead stamp key p)) slot j g
    (placedUnit l.lead stamp key p)
  obtain ⟨t, f, ht, hk, _⟩ := exec_unitNotice_files h (.inl hs) hp he files record
  exact ⟨j, t, w, f, hj, ht, hk, settled⟩

/-- The segments that a lead cut leaves in the window: `a` is the cut one. -/
theorem Lecture.cutLeaves_leadCuts {l j : Lecture} {g : Segment} {slot : Nat} {stamp : Stamp} {key : Bool}
    {p : UnitPlace} (hj : j = l.noticed (placed slot l.lead stamp key p)) (hp : (l.parts.get l.lead).present = true)
    (pending : ∀ q ∈ l.roles, q ≠ l.lead → (g.ranges.get q).cut = .pending) {b : Bool}
    (settled : b = true → (j.cutsAt g (placedUnit l.lead stamp key p)).settled j.roles = true) :
    l.leadCuts stamp p.start g ((j.cutSegment g (placedUnit l.lead stamp key p)).admittedIf b) := by
  subst hj
  refine Lecture.noticed_leadCuts (n := placed slot l.lead stamp key p) rfl
    (Lecture.cutSegment_leadCuts rfl ((l.noticed_flags _ _).1.trans hp) (fun q hq => pending q ?_) settled)
  rwa [Lecture.noticed_roles] at hq

/-- The lead cut of a segment below 65535: the next segment opens. -/
theorem unitNotice_opens {s : State} {slot : Nat} {stamp : Stamp} {key : Bool} {p : UnitPlace} {l : Lecture}
    {g : Segment} (h : s.lecture? slot = some l) (hs : l.state = .running) (hl : l.live l.lead = true)
    (hg : l.openSegment = some g) (known : (g.ranges.get l.lead).startOffset ≠ none) (hc : l.cuttingSegment = none)
    (due : l.dueAt g (placedUnit l.lead stamp key p) = true) (room : l.window.length < 8) (below : g.number < 65535)
    (pending : ∀ q ∈ l.roles, q ≠ l.lead → (g.ranges.get q).cut = .pending) :
    ∃ t k w a b, exec (.unitNotice (placed slot l.lead stamp key p)) s = .next t ∧ t.lecture? slot = some k
      ∧ k.state = .running ∧ k.lead = l.lead ∧ k.nextSegment = min 65535 (l.nextSegment + 1)
      ∧ k.window = w ++ [b] ∧ w.map Segment.number = l.window.map Segment.number
      ∧ a ∈ w ∧ l.leadCuts stamp p.start g a ∧ l.opensAtCut stamp p.start a b ∧ k.cutCleared := by
  obtain ⟨j, t, w, f, hj, ht, hk, settled⟩ := unitNotice_cuts h hs hl hg known hc due (.inl room)
  rw [Lecture.afterCut, if_neg (by omega)] at hk
  have window : j.window = l.window := by rw [hj]; rfl
  have mem : g ∈ j.window := by rw [window]; exact Lecture.openSegment_mem hg
  obtain ⟨state, lead, next⟩ := j.cutLeaves_shares g (placedUnit l.lead stamp key p) w
  obtain ⟨state', lead', next', opened⟩ := (j.cutLeaves g (placedUnit l.lead stamp key p) w).opening_shares
    (some stamp) ((j.cutRanges g (placedUnit l.lead stamp key p)).map
      (fun r x => nextRange j (placedUnit l.lead stamp key p) r x)) f
  refine ⟨t, _, _, _, _, ht, hk, state'.trans (state.trans ?_), lead'.trans (lead.trans ?_),
    next'.trans ?_, opened, ?_, Lecture.cutLeaves_mem mem _ w,
    Lecture.cutLeaves_leadCuts hj (Lecture.live_flags hl).1 pending (settled _), ?_,
    Lecture.marked_cutCleared (Lecture.opening_cutCleared ..) f⟩
  · rw [hj]
    exact hs
  · rw [hj]
    rfl
  · rw [next, hj]
    rfl
  · rw [Lecture.cutLeaves_numbers, window]
  · have leads : j.lead = l.lead := by rw [hj]; rfl
    refine Lecture.noticed_opensAtCut hj (Lecture.opening_opensAtCut (u := placedUnit l.lead stamp key p) leads.symm
      (fun q hq hne => pending q ?_ (by rwa [leads] at hne)) w _)
    rwa [hj, Lecture.noticed_roles] at hq

/-- The lead cut of segment 65535: the lecture ends. -/
theorem unitNotice_lastCut {s : State} {slot : Nat} {stamp : Stamp} {key : Bool} {p : UnitPlace} {l : Lecture}
    {g : Segment} (h : s.lecture? slot = some l) (hs : l.state = .running) (hl : l.live l.lead = true)
    (hg : l.openSegment = some g) (known : (g.ranges.get l.lead).startOffset ≠ none) (hc : l.cuttingSegment = none)
    (due : l.dueAt g (placedUnit l.lead stamp key p) = true) (last : g.number = 65535)
    (pending : ∀ q, (g.ranges.get q).cut = .pending) :
    ∃ t k a, exec (.unitNotice (placed slot l.lead stamp key p)) s = .next t ∧ t.lecture? slot = some k
      ∧ k.state = .ending ∧ k.lead = l.lead ∧ k.nextSegment = l.nextSegment
      ∧ (∀ q, (k.parts.get q).gapRunning = false)
      ∧ k.window.map Segment.number = l.window.map Segment.number ∧ a ∈ k.window ∧ l.leadCuts stamp p.start g a
      ∧ k.cutCleared := by
  obtain ⟨j, t, w, f, hj, ht, hk, settled⟩ := unitNotice_cuts h hs hl hg known hc due (.inr last)
  have window : j.window = l.window := by rw [hj]; rfl
  have mem : g ∈ j.window := by rw [window]; exact Lecture.openSegment_mem hg
  have stands := Lecture.cutLeaves_mem mem (placedUnit l.lead stamp key p) w
  rw [Lecture.afterCut, if_pos last, if_neg (List.ne_nil_of_mem stands)] at hk
  obtain ⟨_, lead, next⟩ := j.cutLeaves_shares g (placedUnit l.lead stamp key p) w
  refine ⟨t, _, _, ht, hk, rfl, lead.trans ?_, next.trans ?_, fun q => ?_, ?_, stands,
    Lecture.cutLeaves_leadCuts hj (Lecture.live_flags hl).1 (fun q _ _ => pending q) (settled _),
    Lecture.marked_cutCleared (Lecture.stopped_cutCleared (j.cutLeaves_cutCleared ..) _) f⟩
  · rw [hj]
    rfl
  · rw [hj]
    rfl
  · rw [Lecture.marked_part, Lecture.stopped_part]
  · exact (j.cutLeaves_numbers g (placedUnit l.lead stamp key p) w).trans (congrArg _ window)

/-- The lead cut of a lecture with one role and one segment. -/
theorem unitNotice_cutsAlone {s : State} {slot : Nat} {stamp : Stamp} {p : UnitPlace} {l : Lecture} {g : Segment}
    {target : Stamp} (h : s.lecture? slot = some l) (hs : l.state = .running) (hl : l.live l.lead = true)
    (hw : l.window = [g]) (opened : g.state = .opened) (ht : g.target = some target)
    (known : (g.ranges.get l.lead).startOffset ≠ none) (alone : l.roles = [l.lead])
    (due : stampFrom stamp target = true) (below : g.number < 65535) :
    ∃ t k a b, exec (.unitNotice (placed slot l.lead stamp true p)) s = .next t ∧ t.lecture? slot = some k
      ∧ k.window = [a, b] ∧ k.state = .running
      ∧ a.number = g.number ∧ a.cutRole = some l.lead ∧ a.cutStamp = some stamp ∧ a.endStamp = some stamp
      ∧ (a.ranges.get l.lead).endOffset = some p.start ∧ (a.ranges.get l.lead).endStamp = some stamp
      ∧ (a.ranges.get l.lead).cut = .cut ∧ a.forcedCut = (g.forcedCut || l.forcedCut)
      ∧ b.number = l.nextSegment ∧ b.state = .opened ∧ b.leadStart = some stamp
      ∧ (b.ranges.get l.lead).startOffset = some p.start ∧ (b.ranges.get l.lead).startStamp = some stamp
      ∧ k.forcedCut = false ∧ (∀ q, (k.parts.get q).candidates = []) ∧ k.stretch = .off := by
  have first : l.openSegment = some g := by simp [Lecture.openSegment, hw, opened]
  have none : l.cuttingSegment = none := by simp [Lecture.cuttingSegment, hw, opened]
  have dueAt : l.dueAt g (placedUnit l.lead stamp true p) = true := by
    simp [Lecture.dueAt, ht, placedUnit, due]
  obtain ⟨t, k, w, a, b, ht, hk, state, _, _, window, numbers, mem, cuts, opens, forced, candidates, stretch⟩ :=
    unitNotice_opens h hs hl first known none dueAt (by simp [hw]) below
      fun q hq hne => absurd (by rw [alone] at hq; exact List.mem_singleton.1 hq) hne
  obtain ⟨c, rfl⟩ : ∃ c, w = [c] := List.length_eq_one_iff.1 (by
    have := congrArg List.length numbers
    rwa [List.length_map, List.length_map, hw] at this)
  obtain rfl := List.mem_singleton.1 mem
  obtain ⟨number, _, cutRole, cutStamp, forcedCut, _, ⟨_, endOffset, endStamp, cut⟩, _, _, sealed⟩ := cuts
  obtain ⟨next, nextState, leadStart, _, _, startOffset, startStamp, _⟩ := opens
  obtain ⟨_, sealEnd, _⟩ := sealed fun q hq e => by
    rw [alone] at hq
    rw [List.mem_singleton.1 hq, cut] at e
    cases e
  exact ⟨t, k, a, b, ht, hk, window, state, number, cutRole, cutStamp, sealEnd, endOffset, endStamp, cut, forcedCut,
    next, nextState, leadStart, startOffset, startStamp, forced, candidates, stretch⟩

end Sys2Proof.Machine
end

section
/-! PROOF. A unit of a role that is PENDING in the CUTTING segment (R28 step 2, R35): it lies in that segment, or it is
the role's cut, and then it is filed in the OPEN segment too. -/

namespace Sys2Proof.Machine

theorem Lecture.modSegment_keeps {l : Lecture} {a : Segment} (mem : a ∈ l.window) {n : Nat} (hn : a.number ≠ n)
    (f : Segment → Segment) : a ∈ (l.modSegment n f).window :=
  List.mem_map.2 ⟨a, mem, if_neg hn⟩

/-! ## The cut of a PENDING role -/

/-- The CUTTING segment with a role cut at a unit. -/
def Segment.cutIn (c : Segment) (u : FiledUnit) : Segment :=
  c.modRange u.role (fun x => { x with endOffset := some u.start, endStamp := some u.stamp, cut := .cut })

/-- The CUTTING segment once the role has been cut, but for its admission: sealed where no other role is PENDING. -/
def Lecture.cutFiled (l : Lecture) (c : Segment) (u : FiledUnit) : Segment :=
  if (c.cutIn u).settled l.roles then (c.cutIn u).fixed l else c.cutIn u

theorem Segment.cutIn_range (c : Segment) (u : FiledUnit) : (c.cutIn u).ranges.get u.role
    = { c.ranges.get u.role with endOffset := some u.start, endStamp := some u.stamp, cut := .cut } :=
  PerRole.get_set_same ..

theorem Segment.cutIn_range_ne (c : Segment) (u : FiledUnit) {q : Role} (hq : q ≠ u.role) :
    (c.cutIn u).ranges.get q = c.ranges.get q :=
  PerRole.get_set_ne _ _ hq

/-- No role but the one that is cut is PENDING exactly when the segment is settled by its cut. -/
theorem Segment.cutIn_settled (c : Segment) (u : FiledUnit) (roles : List Role) :
    (c.cutIn u).settled roles = true ↔ ∀ q ∈ roles, q ≠ u.role → (c.ranges.get q).cut ≠ .pending := by
  rw [Segment.settled_iff]
  refine ⟨fun h q hq hne => ?_, fun h q hq => ?_⟩
  · rw [← c.cutIn_range_ne u hne]
    exact h q hq
  · by_cases hr : q = u.role
    · rw [hr, Segment.cutIn_range]
      exact CutState.noConfusion
    · rw [c.cutIn_range_ne u hr]
      exact h q hq hr

theorem Lecture.cutFiled_number (l : Lecture) (c : Segment) (u : FiledUnit) : (l.cutFiled c u).number = c.number := by
  unfold Lecture.cutFiled
  split <;> rfl

theorem Lecture.cutFiled_unopened (l : Lecture) {c : Segment} (hc : c.state = .cutting) (u : FiledUnit) :
    (l.cutFiled c u).state ≠ .opened := by
  unfold Lecture.cutFiled
  split
  next => exact SegmentState.noConfusion
  next =>
    show c.state ≠ .opened
    rw [hc]
    exact SegmentState.noConfusion

/-- The CUTTING segment with the role cut, as it stands in the window. -/
theorem Lecture.cutFiled_settles {l k : Lecture} (same : ∀ q, (k.parts.get q).present = (l.parts.get q).present)
    {c : Segment} (hc : c.state = .cutting) {u : FiledUnit} (hp : (l.parts.get u.role).present = true) {b : Bool}
    (admitted : b = true → (c.cutIn u).settled k.roles = true) :
    l.settles u.role c ((k.cutFiled c u).admittedIf b)
      ∧ ∃ st, ((k.cutFiled c u).admittedIf b).ranges.get u.role = { c.ranges.get u.role with
          endOffset := some u.start, endStamp := some u.stamp, cut := .cut, status := st } := by
  have roles : k.roles = l.roles := Lecture.roles_of_present same
  have iff := c.cutIn_settled u l.roles
  by_cases settled : (c.cutIn u).settled k.roles = true
  · have filed : k.cutFiled c u = (c.cutIn u).fixed k := if_pos settled
    rw [filed]
    rw [roles] at settled
    obtain ⟨ranges, endStamp, _, _⟩ := ((c.cutIn u).fixed k).admittedIf_keeps b
    have form : ((c.cutIn u).fixed k).admittedIf b
        = { (c.cutIn u).fixed k with state := (((c.cutIn u).fixed k).admittedIf b).state } := by
      cases b <;> rfl
    refine ⟨⟨by rw [form]; rfl, by rw [form]; rfl, by rw [form]; rfl, by rw [form]; rfl, fun q hq hne => ?_,
      fun ⟨q, hq, hne, hc⟩ => absurd hc (iff.1 settled q hq hne), fun _ => ⟨Segment.admittedIf_sealed rfl b,
        by rw [form]; rfl, fun e he => ?_⟩⟩, (c.cutIn u).ranges.get u.role |>.sealStatus, ?_⟩
    · rw [ranges, Segment.fixed_range _ ((same q).trans (Lecture.mem_roles.1 hq)), c.cutIn_range_ne u hne]
      exact ⟨rfl, rfl, rfl, rfl⟩
    · rw [endStamp]
      exact Segment.fixed_endStamp_cut (g := c.cutIn u) he k
    · rw [ranges, Segment.fixed_range _ ((same u.role).trans hp), Segment.cutIn_range]
  · have filed : k.cutFiled c u = c.cutIn u := if_neg settled
    obtain rfl : b = false := eq_false_of_ne_true fun e => settled (admitted e)
    rw [filed]
    rw [roles] at settled
    refine ⟨⟨rfl, rfl, rfl, rfl, fun q _ hne => ?_, fun _ => ⟨hc, rfl, rfl⟩, fun h => absurd (iff.2 h) settled⟩,
      (c.ranges.get u.role).status, c.cutIn_range u⟩
    rw [((c.cutIn u).admittedIf_keeps false).1, c.cutIn_range_ne u hne]
    exact ⟨rfl, rfl, rfl, rfl⟩

/-! ## What filing in the CUTTING segment leaves (R35) -/

theorem State.fileUnit_pending {s : State} {slot : Nat} {l : Lecture} {c : Segment} (h : s.lecture? slot = some l)
    (hc : l.cuttingSegment = some c) {u : FiledUnit} (hr : (c.ranges.get u.role).cut = .pending) :
    s.fileUnit slot u = if (s.fileCutting slot l c u).2 then (s.fileCutting slot l c u).1.fileOpen slot u
      else (s.fileCutting slot l c u).1 := by
  simp only [State.fileUnit, h, hc, if_pos hr]

theorem State.fileCutting_lies {s : State} {slot : Nat} {l : Lecture} {c : Segment} {u : FiledUnit} {b : Stamp}
    (hb : c.cutStamp = some b) (early : u.good = false ∨ stampFrom u.stamp b = false) :
    s.fileCutting slot l c u = (s.setLecture slot (l.lies c u), false) := by
  refine if_neg ?_
  rw [hb]
  rcases early with e | e <;> simp [e]

theorem State.fileCutting_cuts {s : State} {slot : Nat} {l : Lecture} {c : Segment} {u : FiledUnit} {b : Stamp}
    (hb : c.cutStamp = some b) (good : u.good = true) (late : stampFrom u.stamp b = true) :
    s.fileCutting slot l c u = (if (c.cutIn u).settled l.roles
      then (s.setLecture slot (l.modSegment c.number (fun _ => c.cutIn u))).sealSegment slot c.number
      else s.setLecture slot (l.modSegment c.number (fun _ => c.cutIn u)), true) := by
  refine if_pos ?_
  rw [hb]
  simp [good, late]

/-- The record once the CUTTING segment has a role cut: where that seals it, segments that wait may be admitted. -/
theorem State.fileCutting_record {s : State} {slot : Nat} {l : Lecture} {c : Segment} {u : FiledUnit} {b : Stamp}
    (hb : c.cutStamp = some b) (good : u.good = true) (late : stampFrom u.stamp b = true) :
    ∃ m w, (s.fileCutting slot l c u).1.lecture? slot
        = some (((l.modSegment c.number (fun _ => l.cutFiled c u)).admitted w).stretched m)
      ∧ ∀ n, w n = true →
          (c.cutIn u).settled l.roles = true ∧ (n = c.number ∨ (slot, n) ∈ s.admissions) := by
  rw [State.fileCutting_cuts hb good late, Lecture.cutFiled]
  have set := State.setLecture_turns s slot (l.modSegment c.number (fun _ => c.cutIn u))
  by_cases settled : (c.cutIn u).settled l.roles = true
  · simp only [if_pos settled]
    obtain ⟨m, w, record, _, waits⟩ := State.sealSegment_record set.record c.number
    rw [Lecture.modSegment_sealing l (n := c.number) (c := c.cutIn u) rfl] at record
    rw [set.admissions] at waits
    exact ⟨m, w, record, fun n hn => ⟨settled, waits n hn⟩⟩
  · simp only [if_neg settled]
    refine ⟨l.stretch, fun _ => false, set.record.trans (congrArg some ?_), nofun⟩
    rw [Lecture.admitted_none]
    rfl

/-! ## What filing in the OPEN segment keeps -/

/-- A segment of the record `k` stands in `j` as it stood, or, where no segment is CUTTING, WORKING. -/
def Lecture.keeps (k j : Lecture) (a : Segment) : Prop :=
  a ∈ j.window ∨ (k.cuttingSegment = none ∧ { a with state := .working } ∈ j.window)

/-- The lead cut leaves every other segment, which may be admitted. -/
theorem Lecture.afterCut_keeps {k : Lecture} {a g : Segment} (mem : a ∈ k.window) (hn : a.number ≠ g.number)
    (hc : k.cuttingSegment = none) (u : FiledUnit) (p : Nat → Bool) : k.keeps (k.afterCut g u p) a := by
  have stands : a.admittedIf (p a.number) ∈ (k.cutLeaves g u p).window := by
    rw [Lecture.cutLeaves_window]
    exact List.mem_map.2 ⟨a, mem, by rw [if_neg hn]⟩
  have all : ∀ d ∈ (k.cutLeaves g u p).window, d ∈ (k.afterCut g u p).window := fun d hd => by
    unfold Lecture.afterCut
    split
    next => exact hd
    next => exact List.mem_append_left _ hd
  rcases a.admittedIf_cases (p a.number) with e | e
  · exact .inl (all _ (e ▸ stands))
  · exact .inr ⟨hc, all _ (e ▸ stands)⟩

theorem State.fileLead_keeps {s : State} {slot : Nat} {k : Lecture} {a g : Segment} (mem : a ∈ k.window)
    (hn : a.number ≠ g.number) (u : FiledUnit) :
    ∃ j, (s.fileLead slot k g u).lecture? slot = some j ∧ k.keeps j a := by
  classical
  by_cases cuts : (k.dueAt g u && k.canCut g) = true
  · rw [State.fileLead_cuts cuts]
    obtain ⟨p, _, record⟩ := s.leadCut_record slot k g u
    have none : k.cuttingSegment = none := by
      simp only [Lecture.canCut, Bool.and_eq_true, Option.isNone_iff_eq_none] at cuts
      exact cuts.2.2
    exact ⟨_, record, Lecture.afterCut_keeps mem hn none u p⟩
  · rw [State.fileLead_stays (eq_false_of_ne_true cuts)]
    have stays : a ∈ (k.postpones g u).window := Lecture.modSegment_keeps mem hn _
    split
    next =>
      obtain ⟨turned, _⟩ := (s.setLecture slot (k.postpones g u)).startStretch_turns slot (k.postpones g u)
        (k.holds g u)
      exact ⟨_, turned.record, .inl (Lecture.modSegment_keeps stays hn _)⟩
    next => exact ⟨_, State.lecture?_setLecture_same .., .inl stays⟩

theorem State.fileOther_keeps {s : State} {slot : Nat} {k : Lecture} {a g : Segment} (mem : a ∈ k.window)
    (hn : a.number ≠ g.number) (u : FiledUnit) :
    ∃ j, (s.fileOther slot k g u).lecture? slot = some j ∧ k.keeps j a := by
  have stays : a ∈ (k.lies g u).window := Lecture.modSegment_keeps mem hn _
  unfold State.fileOther
  dsimp only
  (repeat' split) <;> exact ⟨_, State.lecture?_setLecture_same .., .inl stays⟩

theorem State.fileOpen_unopened {s : State} {slot : Nat} {k : Lecture} (h : s.lecture? slot = some k)
    (hg : k.openSegment = none) (u : FiledUnit) : s.fileOpen slot u = s := by
  simp only [State.fileOpen, h, hg]

theorem State.fileOpen_unstarted {s : State} {slot : Nat} {k : Lecture} {g : Segment} (h : s.lecture? slot = some k)
    (hg : k.openSegment = some g) {u : FiledUnit} (unknown : (g.ranges.get u.role).startOffset = none) :
    s.fileOpen slot u = s.setLecture slot (k.modSegment g.number (fun g => g.fileStart k u)) := by
  simp only [State.fileOpen, h, hg, unknown, Option.isNone_none, if_true]

/-- Filing in the OPEN segment leaves a segment of another number, which may be admitted. -/
theorem State.fileOpen_keeps {s : State} {slot : Nat} {k : Lecture} {a : Segment} (h : s.lecture? slot = some k)
    (mem : a ∈ k.window) (unopened : ∀ d ∈ k.window, d.number = a.number → d.state ≠ .opened) (u : FiledUnit) :
    ∃ j, (s.fileOpen slot u).lecture? slot = some j ∧ k.keeps j a := by
  cases hg : k.openSegment with
  | none =>
    rw [State.fileOpen_unopened h hg]
    exact ⟨k, h, .inl mem⟩
  | some g =>
    have hn : a.number ≠ g.number := fun e =>
      unopened g (Lecture.openSegment_mem hg) e.symm (Lecture.openSegment_state hg)
    by_cases unknown : (g.ranges.get u.role).startOffset = none
    · rw [State.fileOpen_unstarted h hg unknown]
      exact ⟨_, State.lecture?_setLecture_same .., .inl (Lecture.modSegment_keeps mem hn _)⟩
    · rw [State.fileOpen_known h hg unknown]
      split
      next => exact State.fileLead_keeps mem hn u
      next => exact State.fileOther_keeps mem hn u

/-! ## The step -/

/-- The record in which the unit of a PENDING role is filed. -/
theorem State.heardOf_cutting {s : State} {slot : Nat} {l : Lecture} (n : UnitNotice) :
    ∃ j, (s.heardOf slot l n).lecture? slot = some j ∧ j.window = l.window ∧ j.state = l.state
      ∧ ∀ q, (j.parts.get q).present = (l.parts.get q).present :=
  ⟨_, (s.heardOf_turns slot l n).record, Lecture.failedOver_window _, Lecture.failedOver_state _,
    fun q => ((l.noticed n).failedOver_alike.present q).trans (l.noticed_flags n q).1⟩

/-- A unit of a PENDING role that is BROKEN, or earlier than B, lies in the CUTTING segment. -/
theorem unitNotice_lies {s : State} {slot : Nat} {r : Role} {stamp : Stamp} {key : Bool} {p : UnitPlace} {l : Lecture}
    {c : Segment} {b : Stamp} (h : s.lecture? slot = some l) (hs : l.state = .running ∨ l.state = .ending)
    (hp : (l.parts.get r).present = true) (he : (l.parts.get r).ended = false) (hc : l.cuttingSegment = some c)
    (hb : c.cutStamp = some b) (only : ∀ h ∈ l.window, h.number = c.number → h = c)
    (hr : (c.ranges.get r).cut = .pending) (early : p.good = false ∨ stampFrom stamp b = false) :
    ∃ t k, exec (.unitNotice (placed slot r stamp key p)) s = .next t ∧ t.lecture? slot = some k
      ∧ k.state = l.state ∧ k.window = (l.modSegment c.number (fun h => { h with
          ranges := h.ranges.set r { h.ranges.get r with lastUnit := some stamp } })).window := by
  obtain ⟨j, record, window, state, _⟩ := s.heardOf_cutting (slot := slot) (l := l) (placed slot r stamp key p)
  have files := State.fileUnit_pending record ((Lecture.cuttingSegment_of_window window).trans hc)
    (u := placedUnit r stamp key p) hr
  rw [State.fileCutting_lies (u := placedUnit r stamp key p) hb early] at files
  obtain ⟨t, f, ht, hk, _⟩ := exec_unitNotice_files h hs hp he files (State.lecture?_setLecture_same ..)
  refine ⟨t, _, ht, hk, state, ?_⟩
  show (j.lies c (placedUnit r stamp key p)).window = _
  rw [Lecture.lies, Lecture.modSegment, window]
  refine List.map_congr_left fun d hd => ?_
  by_cases hn : d.number = c.number
  · rw [only d hd hn]
    rfl
  · simp only [if_neg hn]

/-- The window once the CUTTING segment has the role cut: `a` stands in it for the CUTTING segment. -/
structure Lecture.afterCutting (l j : Lecture) (slot : Nat) (waits : List (Nat × Nat)) (c a : Segment) : Prop where
  mem : a ∈ j.window
  number : a.number = c.number
  unopened : ∀ d ∈ j.window, d.number = c.number → d.state ≠ .opened
  opened : ∀ g, l.openSegment = some g → (slot, g.number) ∉ waits → j.openSegment = some g

theorem State.fileCutting_window {s : State} {slot : Nat} {l : Lecture} {c : Segment} {u : FiledUnit} {b : Stamp}
    (hc : l.cuttingSegment = some c) (only : ∀ h ∈ l.window, h.number = c.number → h = c)
    (hb : c.cutStamp = some b) (good : u.good = true) (late : stampFrom u.stamp b = true) :
    ∃ j d, (s.fileCutting slot l c u).1.lecture? slot = some j
      ∧ (d = true → (c.cutIn u).settled l.roles = true)
      ∧ l.afterCutting j slot s.admissions c ((l.cutFiled c u).admittedIf d) := by
  obtain ⟨m, w, record, waits⟩ := State.fileCutting_record (s := s) (slot := slot) (l := l) hb good late
  have cutting := Lecture.cuttingSegment_state hc
  have window := l.modSegment_admitted_window (l.cutFiled_number c u) w
  have unopened := l.cutFiled_unopened cutting u
  refine ⟨_, w c.number, record, fun e => (waits _ e).1, ?_, ?_, fun d hd hn => ?_, fun g hg free => ?_⟩
  · rw [show ∀ k : Lecture, (k.stretched m).window = k.window from fun _ => rfl, window]
    exact List.mem_map.2 ⟨c, Lecture.cuttingSegment_mem hc, by rw [if_pos rfl]⟩
  · rw [Segment.admittedIf_number, Lecture.cutFiled_number]
  · rw [show ∀ k : Lecture, (k.stretched m).window = k.window from fun _ => rfl, window] at hd
    obtain ⟨e, he, rfl⟩ := List.mem_map.1 hd
    by_cases hen : e.number = c.number
    · rw [if_pos hen]
      exact fun o => unopened (Segment.admittedIf_opened o)
    · rw [if_neg hen, Segment.admittedIf_number] at hn
      exact absurd hn hen
  · have hn : g.number ≠ c.number := fun e => by
      have same := only g (Lecture.openSegment_mem hg) e
      have opened := Lecture.openSegment_state hg
      rw [same, cutting] at opened
      cases opened
    have notAdmitted : w g.number = false := eq_false_of_ne_true fun e => (waits _ e).2.elim hn free
    refine (Lecture.openSegment_map window fun d hd => ?_).2 g hg ?_
    · by_cases hdn : d.number = c.number
      · rw [if_pos hdn] at hd
        exact absurd (Segment.admittedIf_opened hd) unopened
      · rw [if_neg hdn] at hd
        exact Segment.admittedIf_opened hd
    · rw [if_neg hn, notAdmitted]
      rfl

/-- A GOOD unit at or beyond the lead start of the OPEN segment starts a role there that has no start (R27). -/
theorem Segment.fileStart_starts {g : Segment} {lead : Stamp} (hl : g.leadStart = some lead) {u : FiledUnit}
    (good : u.good = true) (late : stampFrom u.stamp lead = true) (l : Lecture) :
    g.fileStart l u = { g with ranges := g.ranges.set u.role (startRange u.stamp u.start) } := by
  have starts : (u.good && stampFrom u.stamp lead) = true := Bool.and_eq_true_iff.2 ⟨good, late⟩
  have tested : g.fileStart l u = if u.good && stampFrom u.stamp lead
      then g.modRange u.role (fun _ => startRange u.stamp u.start) else g := by
    simp only [Segment.fileStart, hl]
  rw [tested, if_pos starts]
  rfl

/-- A GOOD unit of a PENDING role at or beyond B is the role's cut. -/
theorem unitNotice_cutsPending {s : State} {slot : Nat} {r : Role} {stamp : Stamp} {key : Bool} {p : UnitPlace}
    {l : Lecture} {c : Segment} {b : Stamp} (h : s.lecture? slot = some l)
    (hs : l.state = .running ∨ l.state = .ending) (hp : (l.parts.get r).present = true)
    (he : (l.parts.get r).ended = false) (hc : l.cuttingSegment = some c) (hb : c.cutStamp = some b)
    (only : ∀ h ∈ l.window, h.number = c.number → h = c) (hr : (c.ranges.get r).cut = .pending)
    (good : p.good = true) (late : stampFrom stamp b = true) :
    ∃ t k a, exec (.unitNotice (placed slot r stamp key p)) s = .next t ∧ t.lecture? slot = some k ∧ a ∈ k.window
      ∧ l.settles r c a
      ∧ (∃ st, a.ranges.get r = { c.ranges.get r with
          endOffset := some p.start, endStamp := some stamp, cut := .cut, status := st })
      ∧ ∀ g lead, l.openSegment = some g → g.leadStart = some lead → stampFrom stamp lead = true →
          (g.ranges.get r).startOffset = none → (slot, g.number) ∉ s.admissions →
          { g with ranges := g.ranges.set r (startRange stamp p.start) } ∈ k.window := by
  obtain ⟨j, record, window, _, present⟩ := s.heardOf_cutting (slot := slot) (l := l) (placed slot r stamp key p)
  have admissions := (s.heardOf_turns slot l (placed slot r stamp key p)).admissions
  have cutting := Lecture.cuttingSegment_state hc
  have hcj : j.cuttingSegment = some c := (Lecture.cuttingSegment_of_window window).trans hc
  obtain ⟨i, d, cut, settled, after⟩ := State.fileCutting_window (s := s.heardOf slot l (placed slot r stamp key p))
    (slot := slot) (u := placedUnit r stamp key p) hcj (by rwa [window]) hb good late
  rw [admissions] at after
  have files := State.fileUnit_pending record hcj (u := placedUnit r stamp key p) hr
  rw [if_pos (by rw [State.fileCutting_cuts (u := placedUnit r stamp key p) hb good late])] at files
  obtain ⟨k, opens, kept⟩ := State.fileOpen_keeps cut after.mem (by rw [after.number]; exact after.unopened)
    (placedUnit r stamp key p)
  obtain ⟨t, f, ht, hk, _⟩ := exec_unitNotice_files h hs hp he files opens
  have stands : ∃ e, (e = true → (c.cutIn (placedUnit r stamp key p)).settled j.roles = true)
      ∧ (j.cutFiled c (placedUnit r stamp key p)).admittedIf e ∈ k.window := by
    rcases kept with mem | ⟨none, mem⟩
    · exact ⟨d, settled, mem⟩
    · refine ⟨true, fun _ => by_contra fun unsettled => ?_, ?_⟩
      · obtain rfl : d = false := eq_false_of_ne_true fun e => unsettled (settled e)
        refine Lecture.cuttingSegment_none.1 none _ after.mem ?_
        rw [Lecture.cutFiled, if_neg unsettled]
        exact cutting
      · have working : ∀ (g : Segment) (b : Bool), { g.admittedIf b with state := .working } = g.admittedIf true :=
          fun g b => by cases b <;> rfl
        rwa [working] at mem
  obtain ⟨e, sealed, mem⟩ := stands
  obtain ⟨settles, range⟩ := Lecture.cutFiled_settles present cutting hp sealed
  refine ⟨t, _, _, ht, hk, mem, settles, range, fun g lead hg hl reached unknown free => ?_⟩
  have hgi := after.opened g ((Lecture.openSegment_of_window window).trans hg) free
  rw [State.fileOpen_unstarted cut hgi (u := placedUnit r stamp key p) unknown, State.lecture?_setLecture_same] at opens
  obtain rfl := Option.some.inj opens
  refine List.mem_map.2 ⟨g, Lecture.openSegment_mem hgi, ?_⟩
  rw [if_pos rfl]
  exact Segment.fileStart_starts (u := placedUnit r stamp key p) hl good reached i

/-! ## The statement -/

/-- Settles O36, clause by clause: the candidate list and the forced cut, the lead cut, the unit of the lead that does
not cut, and the unit of a role PENDING in the CUTTING segment. -/
theorem unitNoticeFiled : Obligations.UnitNoticeFiled := by
  refine ⟨fun s slot r stamp p l g target h hs hl hw hg ht known hp he => ⟨?_, ?_, ?_⟩,
    fun s slot stamp key p l g h hs hl hg only known => ⟨?_, ?_, ?_⟩,
    fun s slot r stamp key p l c b h hs hp he hc hb only hr => ⟨?_, ?_⟩⟩
  · intro key hr good due room
    obtain ⟨t, k, ht, hk, length, joins, _⟩ :=
      unitNotice_candidate (key := key) h hs hl hw hg ht known hp he hr good due
    exact ⟨t, k, ht, hk, (joins room).1, (joins room).2, length⟩
  · intro key hr good due full
    obtain ⟨t, k, ht, hk, _, _, arms⟩ := unitNotice_candidate (key := key) h hs hl hw hg ht known hp he hr good due
    exact ⟨t, k, ht, hk, arms full⟩
  · rintro rfl alone due below
    exact unitNotice_cutsAlone h hs hl hw hg ht known alone due below
  · intro due room hc below _ pending
    obtain ⟨t, k, w, a, b, ht, hk, state, lead, next, window, numbers, mem, cuts, opens, cleared⟩ :=
      unitNotice_opens (p := p) h hs hl hg known hc due room below fun q _ _ => pending q
    refine ⟨t, k, a, b, ht, hk, state, lead, next, ?_, ?_, cuts, ?_, opens, cleared⟩
    · rw [window, List.map_append, numbers]
      exact congrArg _ (congrArg (fun n => [n]) opens.1)
    · rw [window]
      exact List.mem_append_left _ mem
    · rw [window]
      exact List.mem_append_right _ List.mem_cons_self
  · intro due hc last pending
    exact unitNotice_lastCut h hs hl hg known hc due last pending
  · intro hc stays
    refine unitNotice_stays h hs hl hg only known hc ?_
    rwa [Bool.and_assoc] at stays
  · intro early
    exact unitNotice_lies h hs hp he hc hb only hr early
  · intro good late
    obtain ⟨t, k, a, ht, hk, mem, settles, ⟨st, range⟩, starts⟩ :=
      unitNotice_cutsPending (key := key) h hs hp he hc hb only hr good late
    refine ⟨t, k, a, ht, hk, mem, settles, ?_, starts⟩
    rw [range]
    exact ⟨rfl, rfl, rfl, rfl, rfl⟩

end Sys2Proof.Machine
end

section
/-! PROOF. Writing bytes that fit the page of a run's FILLING buffer (R54), and the notice of the unit that they
end (R55). -/

namespace Sys2Proof.Machine

/-- A record written over the first one that meets a test, and that meets it too, is then the first. -/
theorem Table.find?_put {α : Type} (p : α → Bool) {n : Nat} {v : α} (hv : p v = true) (t : Table α)
    (h : (t.find? (fun e => p e.2)).map (fun e => e.1) = some n) :
    ((t.put n v).find? (fun e => p e.2)).map (fun e => e.1) = some n := by
  have first : ∀ u : Table α, (((n, v) :: u).find? (fun e => p e.2)).map (fun e => e.1) = some n := fun u => by
    rw [List.find?_cons_of_pos (by exact hv)]
    rfl
  induction t with
  | nil => exact first []
  | cons e t ih =>
    obtain ⟨k, w⟩ := e
    unfold Table.put
    split
    · exact first _
    · split
      · exact first _
      next _ hk =>
        have hp : ¬ p w = true := fun hp => by
          rw [List.find?_cons_of_pos (by exact hp)] at h
          exact hk (Option.some.inj h).symm
        rw [List.find?_cons_of_neg (by exact hp)] at h ⊢
        exact ih h

/-- The FILLING buffer of an owner stays it when it is written over. -/
theorem State.fillingOf_setBuf {s : State} {o : Owner} {i : Nat} {d : Buf} (h : s.fillingOf o = some i)
    (hd : d.fills o) : (s.setBuf i d).fillingOf o = some i :=
  Table.find?_put (fun d : Buf => d.owner == .own o && d.state == .filling) (by simp [hd.1, hd.2]) _ h

/-- The page of a run's FILLING buffer is reached at the write position and has room for `n` more bytes and one. -/
structure State.hasRoom (s : State) (slot : Nat) (r : Role) (i : Nat) (c : Buf) (n : Nat) : Prop where
  filling : s.fillingOf (.run slot r) = some i
  buffer : s.buf? i = some c
  fills : c.fills (.run slot r)
  room : c.data.length + n < 4096
  reached : c.data.length = (s.intake slot r).writePos % 4096

/-- Bytes joined to a run's page buffer, with the write position behind them. -/
def State.joined (s : State) (slot : Nat) (r : Role) (i : Nat) (c : Buf) (bs : List Byte) : State :=
  (s.setIntake slot r { s.intake slot r with writePos := (s.intake slot r).writePos + bs.length }).setBuf i
    { c with data := c.data ++ bs }

section
variable {s : State} {slot : Nat} {r : Role} {i n : Nat} {c : Buf} {bs : List Byte}

theorem State.hasRoom.mono {m : Nat} (h : s.hasRoom slot r i c n) (hm : m ≤ n) : s.hasRoom slot r i c m :=
  ⟨h.filling, h.buffer, h.fills, by have := h.room; omega, h.reached⟩

/-- The room is that of the buffer and of the write position alone. -/
theorem State.hasRoom.of_record {t : State} (h : s.hasRoom slot r i c n) (hb : t.stc.buffers = s.stc.buffers)
    (hw : (t.intake slot r).writePos = (s.intake slot r).writePos) : t.hasRoom slot r i c n where
  filling := by
    rw [State.fillingOf, hb]
    exact h.filling
  buffer := by
    rw [State.buf?, hb]
    exact h.buffer
  fills := h.fills
  room := h.room
  reached := hw ▸ h.reached

theorem State.hasRoom.setIntake (h : s.hasRoom slot r i c n) {x : IntakeRec}
    (hx : x.writePos = (s.intake slot r).writePos) : (s.setIntake slot r x).hasRoom slot r i c n :=
  h.of_record rfl (by rw [State.intake_setIntake_same, hx])

@[simp] theorem State.joined_intake (s : State) (slot : Nat) (r : Role) (i : Nat) (c : Buf) (bs : List Byte) :
    (s.joined slot r i c bs).intake slot r
      = { s.intake slot r with writePos := (s.intake slot r).writePos + bs.length } :=
  State.intake_setIntake_same ..

@[simp] theorem State.joined_sent (s : State) (slot : Nat) (r : Role) (i : Nat) (c : Buf) (bs : List Byte) :
    (s.joined slot r i c bs).sent = s.sent := rfl

theorem State.hasRoom.joined (h : s.hasRoom slot r i c (bs.length + n)) :
    (s.joined slot r i c bs).hasRoom slot r i { c with data := c.data ++ bs } n where
  filling := State.fillingOf_setBuf (s := s.setIntake slot r _) h.filling h.fills
  buffer := State.buf?_setBuf_same ..
  fills := h.fills
  room := by
    rw [List.length_append]
    have := h.room
    omega
  reached := by
    rw [List.length_append, State.joined_intake]
    have := h.room
    have := h.reached
    show _ = ((s.intake slot r).writePos + bs.length) % 4096
    omega

theorem State.hasRoom.writeBytes (h : s.hasRoom slot r i c bs.length) (hb : bs ≠ []) :
    s.writeBytes slot r bs = (s.joined slot r i c bs, []) := by
  have := h.room
  have := h.reached
  rw [State.writeBytes_within h.filling hb (by omega), State.putRun_within h.filling h.buffer h.room]
  rfl

/-- From `s` to `t` the last bytes of a unit have been written and committed, and the unit is noticed; but for that its
record is `x`. -/
structure State.notices (s t : State) (slot : Nat) (r : Role) (x : IntakeRec) (i : Nat) (c : Buf) (bs : List Byte)
    (stamp : Stamp) (key good : Bool) (start : Nat) : Prop where
  intake : t.intake slot r = { x.hunt with
    writePos := (s.intake slot r).writePos + bs.length, lastStamp := some stamp, broken := none }
  sent : t.sent = s.sent
    ++ [.unitNotice ⟨slot, r, stamp, key, some ⟨good, start, (s.intake slot r).writePos + bs.length⟩⟩]
  buffer : t.buf? i = some { c with data := c.data ++ bs, committed := c.data.length + bs.length }
  waits : t.waits = s.waits
  sgc : t.sgc = s.sgc

theorem State.hasRoom.notices (h : s.hasRoom slot r i c bs.length) (stamp : Stamp) (key good : Bool) (start : Nat) :
    s.notices ((s.joined slot r i c bs).noticeUnit slot r stamp key good start) slot r (s.intake slot r) i c bs
      stamp key good start := by
  have after : (s.joined slot r i c bs).hasRoom slot r i { c with data := c.data ++ bs } 0 := State.hasRoom.joined h
  rw [State.noticeUnit_eq after.filling after.buffer, State.joined_intake]
  refine ⟨State.intake_setIntake_same .., rfl, ?_, rfl, rfl⟩
  rw [← List.length_append]
  exact State.buf?_setBuf_same (s.joined slot r i c bs) i _

end

/-! ## The end of a unit that fits its page (R54, R60) -/

theorem suffixBytes_ne_nil (good : Bool) (n : Nat) : suffixBytes good n ≠ [] := nofun

section
variable {s : State} {slot : Nat} {r : Role} {i start : Nat} {c : Buf}

/-- The GOOD suffix of a whole unit. -/
theorem State.finishUnit_notices (hstart : (s.intake slot r).unitStart = some start) (h : s.hasRoom slot r i c 8) :
    s.notices (s.finishUnit slot r) slot r (s.intake slot r) i c (suffixBytes true (s.intake slot r).received)
      (headerStamp (s.intake slot r).header) (headerKey r (s.intake slot r).header) true start := by
  have writes := State.hasRoom.writeBytes (bs := suffixBytes true (s.intake slot r).received) h (suffixBytes_ne_nil _ _)
  have finish : s.finishUnit slot r = (s.joined slot r i c (suffixBytes true (s.intake slot r).received)).noticeUnit
      slot r (headerStamp (s.intake slot r).header) (headerKey r (s.intake slot r).header) true start := by
    simp only [State.finishUnit, hstart, writes, List.isEmpty_nil, if_true]
  rw [finish]
  exact State.hasRoom.notices h ..

/-- The rest of a broken unit that fits its page. -/
theorem State.completeUnit_notices {u : BrokenUnit} {bs : List Byte}
    (hbs : brokenRest u ((s.intake slot r).writePos - u.start) = bs) (hne : bs ≠ [])
    (h : s.hasRoom slot r i c bs.length) : (s.completeUnit slot r u).2 = true
      ∧ s.notices (s.completeUnit slot r u).1 slot r (s.intake slot r) i c bs u.stamp u.key u.good u.start := by
  have complete : s.completeUnit slot r u
      = ((s.joined slot r i c bs).noticeUnit slot r u.stamp u.key u.good u.start, true) := by
    simp only [State.completeUnit, hbs, h.writeBytes hne, List.isEmpty_nil, if_true]
  rw [complete]
  exact ⟨rfl, State.hasRoom.notices h ..⟩

/-- The zeros for the body still missing and the BROKEN suffix of a unit that is broken in its body. -/
theorem State.breakUnit_notices {x : IntakeRec} (hx : s.intake slot r = x) (hstart : x.unitStart = some start)
    (hr : x.received ≤ x.declared) (hw : x.writePos = start + 16 + x.received)
    (h : s.hasRoom slot r i c (x.declared - x.received + 8)) :
    s.notices (s.breakUnit slot r) slot r x i c
      (List.replicate (x.declared - x.received) 0 ++ suffixBytes false x.received) (headerStamp x.header)
      (headerKey r x.header) false start := by
  subst hx
  obtain ⟨u, hu⟩ : ∃ u, u = (s.intake slot r).asBroken r start false (s.intake slot r).received := ⟨_, rfl⟩
  have rest : brokenRest u ((s.intake slot r).writePos - u.start) = List.replicate
      ((s.intake slot r).declared - (s.intake slot r).received) 0 ++ suffixBytes false (s.intake slot r).received := by
    have reached : (s.intake slot r).writePos - u.start = 16 + (s.intake slot r).received := by
      rw [hu, hw]
      show start + 16 + _ - start = _
      omega
    rw [reached, hu]
    exact brokenRest_body hr
  obtain ⟨done, notices⟩ := State.completeUnit_notices (i := i) (c := c) rest
    (List.append_ne_nil_of_right_ne_nil _ (suffixBytes_ne_nil _ _))
    (by rw [List.length_append, List.length_replicate]; exact h)
  have eq : s.breakUnit slot r = (s.completeUnit slot r u).1 := by
    simp only [State.breakUnit, hstart]
    rw [← hu, if_pos done]
  rw [eq]
  rw [hu] at notices ⊢
  exact notices

end

end Sys2Proof.Machine
end

section
/-! PROOF. The bytes of a role's stream one at a time (R51, R52, R61), and the markers in a rejected header. -/

namespace Sys2Proof.Machine

/-! ## One byte -/

section
variable {s : State} {slot : Nat} {r : Role} (b : Byte)

theorem State.takeByte_overrun (h : (s.intake slot r).overrun ≠ .clear) : State.takeByte slot r s b = s := by
  simp [State.takeByte, h]

theorem State.takeByte_marker (hc : (s.intake slot r).overrun = .clear) (hp : (s.intake slot r).parse = .hunt)
    (hm : (s.intake slot r).seen4C = true ∧ b = 0x55) :
    State.takeByte slot r s b = s.setIntake slot r { s.intake slot r with
      parse := .header, header := [0x4C, 0x55], seen4C := false } := by
  simp [State.takeByte, hc, hp, hm]

theorem State.takeByte_hunt (hc : (s.intake slot r).overrun = .clear) (hp : (s.intake slot r).parse = .hunt)
    (hm : ¬ ((s.intake slot r).seen4C = true ∧ b = 0x55)) :
    State.takeByte slot r s b = s.setIntake slot r { s.intake slot r with seen4C := b == 0x4C } := by
  have test : ¬ ((s.intake slot r).seen4C && b == 0x55) = true := by simpa using hm
  simp only [State.takeByte, hc, hp, if_neg test]
  rfl

theorem State.takeByte_header (hc : (s.intake slot r).overrun = .clear) (hp : (s.intake slot r).parse = .header)
    (hl : (s.intake slot r).header.length < 15) :
    State.takeByte slot r s b = s.setIntake slot r { s.intake slot r with
      header := (s.intake slot r).header ++ [b] } := by
  simp [State.takeByte, hc, hp, hl]

theorem State.takeByte_lastHeader (hc : (s.intake slot r).overrun = .clear) (hp : (s.intake slot r).parse = .header)
    (hl : 15 ≤ (s.intake slot r).header.length) :
    State.takeByte slot r s b = s.testHeader slot r ((s.intake slot r).header ++ [b]) := by
  simp [State.takeByte, hc, hp, hl]

theorem State.takeByte_body (hc : (s.intake slot r).overrun = .clear) (hp : (s.intake slot r).parse = .body) :
    State.takeByte slot r s b = s.bodyByte slot r (s.intake slot r) b := by
  simp [State.takeByte, hc, hp]

theorem State.testHeader_accepted {h : List Byte} (ha : headerAccepted h = true) :
    s.testHeader slot r h = (s.setIntake slot r (s.intake slot r).hunt).unitFate slot r h := by
  rw [State.testHeader, if_pos ha]

theorem State.testHeader_rejected {h : List Byte} (ha : headerAccepted h = false) :
    s.testHeader slot r h = s.setIntake slot r { (s.intake slot r).hunt with
      parse := if (rehunt (h.drop 2)).1 = [] then .hunt else .header
      header := (rehunt (h.drop 2)).1, seen4C := (rehunt (h.drop 2)).2 } := by
  simp only [State.testHeader, ha, Bool.false_eq_true, if_false, List.isEmpty_iff]

/-- A body byte of a unit being appended that finds room joins the page. -/
theorem State.bodyByte_joins {i : Nat} {c : Buf} (hd : (s.intake slot r).disposition = .append)
    (h : s.hasRoom slot r i c 1) :
    s.bodyByte slot r (s.intake slot r) b
      = (if (s.intake slot r).received + 1 < (s.intake slot r).declared then id else fun q => q.finishUnit slot r)
        ((s.joined slot r i c [b]).setIntake slot r { (s.joined slot r i c [b]).intake slot r with
          received := (s.intake slot r).received + 1 }) := by
  have writes : s.writeBytes slot r [b] = (s.joined slot r i c [b], []) := State.hasRoom.writeBytes h nofun
  simp only [State.bodyByte, hd, writes, List.isEmpty_nil, if_true]
  split <;> rfl

/-- A body byte of a unit being appended that a request refuses. -/
theorem State.bodyByte_refused {q : State} {rest : List Byte} (hd : (s.intake slot r).disposition = .append)
    (hw : s.writeBytes slot r [b] = (q, rest)) (hr : rest ≠ []) :
    s.bodyByte slot r (s.intake slot r) b = q.refusedInUnit slot r false := by
  have left : ¬ rest.isEmpty = true := fun h => hr (List.isEmpty_iff.1 h)
  simp only [State.bodyByte, hd, hw, if_neg left]

end

/-! ## One cell -/

theorem exec_payloadCell {s : State} {slot : Nat} {r : Role} (h : takesCells (s.lecture? slot) r = true)
    (bytes : List Byte) : exec (.payloadCell (.role slot r) bytes) s = .next (bytes.foldl (State.takeByte slot r)
      (s.received (.payloadCell (.role slot r) bytes))).serveClaims := by
  have took : takesCells ((s.received (.payloadCell (.role slot r) bytes)).lecture? slot) r = true := h
  show Host.Outcome.next (State.takeCell _ _ _).serveClaims = _
  rw [State.takeCell, if_pos took]

/-- A cell of one byte that leaves the store at rest. -/
theorem exec_payloadByte {s t : State} {slot : Nat} {r : Role} {b : Byte}
    (h : takesCells (s.lecture? slot) r = true) (hs : s.atRest)
    (ht : State.takeByte slot r (s.received (.payloadCell (.role slot r) [b])) b = t) (hw : t.waits = s.waits) :
    exec (.payloadCell (.role slot r) [b]) s = .next t := by
  rw [exec_payloadCell h, List.foldl_cons, List.foldl_nil, ht, State.serveClaims_nil (State.atRest_of_waits hw hs)]

/-! ## The markers in a rejected header (R51) -/

theorem rehunt_marker (t : List Byte) : rehunt (0x4C :: 0x55 :: t) = (0x4C :: 0x55 :: t, false) := by
  rw [rehunt, if_pos ⟨rfl, rfl⟩]

/-- What stands before the first marker is passed over, byte by byte. -/
theorem rehunt_first (after before : List Byte) (h : ∀ p q, before ≠ p ++ 0x4C :: 0x55 :: q) :
    rehunt (before ++ 0x4C :: 0x55 :: after) = (0x4C :: 0x55 :: after, false) := by
  induction before with
  | nil => exact rehunt_marker after
  | cons a l ih =>
    have tail := ih fun p q e => h (a :: p) q (by rw [e]; rfl)
    cases l with
    | nil =>
      rw [List.cons_append, List.nil_append, rehunt, if_neg (fun c => absurd c.2 (by decide))]
      exact tail
    | cons b l =>
      have none : ¬ (a = 0x4C ∧ b = 0x55) := fun ⟨ha, hb⟩ => h [] l (by rw [ha, hb]; rfl)
      rw [List.cons_append, List.cons_append, rehunt, if_neg none]
      exact tail

/-- Without a marker the record hunts on, and only a last 0x4C is remembered. -/
theorem rehunt_none (bytes : List Byte) (h : ∀ p q, bytes ≠ p ++ 0x4C :: 0x55 :: q) :
    rehunt bytes = ([], bytes.getLast? == some 0x4C) := by
  induction bytes with
  | nil => rfl
  | cons a l ih =>
    have tail := ih fun p q e => h (a :: p) q (by rw [e]; rfl)
    cases l with
    | nil => rfl
    | cons b l =>
      have none : ¬ (a = 0x4C ∧ b = 0x55) := fun ⟨ha, hb⟩ => h [] l (by rw [ha, hb]; rfl)
      rw [rehunt, if_neg none, tail, List.getLast?_cons_cons]

end Sys2Proof.Machine
end

section
/-! PROOF. The fate of an accepted header (R53, R56, R57): the units that are skipped, and the one that is appended. -/

namespace Sys2Proof.Machine

/-! ## Skipping -/

/-- From `s` to `t` a unit's header has been passed over: its body, if it has one, will be skipped. -/
structure State.skips (s t : State) (slot : Nat) (r : Role) (h : List Byte) : Prop where
  sent : t.sent = s.sent
  stc : t.stc = s.stc
  parse : (t.intake slot r).parse = if headerLength h = 0 then .hunt else .body
  body : headerLength h ≠ 0 → (t.intake slot r).disposition = .skip ∧ (t.intake slot r).declared = headerLength h
    ∧ (t.intake slot r).received = 0
  unitStart : (t.intake slot r).unitStart = none
  writePos : (t.intake slot r).writePos = (s.intake slot r).writePos
  lastStamp : (t.intake slot r).lastStamp = (s.intake slot r).lastStamp

theorem State.skipUnit_skips (s : State) (slot : Nat) (r : Role) (h : List Byte) :
    s.skips (s.skipUnit slot r h) slot r h := by
  by_cases h0 : headerLength h = 0
  · have eq : s.skipUnit slot r h = s.setIntake slot r (s.intake slot r).hunt := if_pos h0
    rw [eq]
    constructor <;> simp [IntakeRec.hunt, h0]
  · have eq : s.skipUnit slot r h = s.setIntake slot r { s.intake slot r with
        parse := .body, header := h, disposition := .skip, declared := headerLength h, received := 0
        unitStart := none } := if_neg h0
    rw [eq]
    constructor <;> simp [h0]

/-! ## The first test that holds (R53) -/

/-- Whether a unit's stamp is late for its role (R53 test 3). -/
def State.late (s : State) (slot : Nat) (r : Role) (h : List Byte) : Bool :=
  lateUnit ((s.lecture? slot).bind (fun l => (l.parts.get r).floorStamp)) (s.intake slot r).lastStamp (headerStamp h)

section
variable {s : State} {slot : Nat} {r : Role} {h : List Byte}

theorem State.unitFate_end (hk : headerKind h = 2) :
    s.unitFate slot r h = (s.send (.roleEndNotice slot r)).skipUnit slot r h := by
  simp only [State.unitFate, if_pos hk]

theorem State.unitFate_filler (hk : headerKind h = 3) : s.unitFate slot r h = s.skipUnit slot r h := by
  simp [State.unitFate, hk]

theorem State.unitFate_late (hk : headerKind h = 1) (hl : s.late slot r h = true) :
    s.unitFate slot r h = (s.send (.lateDropReport slot r (headerStamp h))).skipUnit slot r h := by
  rw [State.late] at hl
  simp [State.unitFate, hk, hl]

theorem State.unitFate_excluded (hk : headerKind h = 1) (hl : s.late slot r h = false)
    (hx : excluded (s.discard slot) r (headerKey r h) = true) :
    s.unitFate slot r h = ((s.setIntake slot r { s.intake slot r with lastStamp := some (headerStamp h) }).send
      (.unitNotice ⟨slot, r, headerStamp h, headerKey r h, none⟩)).skipUnit slot r h := by
  rw [State.late] at hl
  simp [State.unitFate, hk, hl, hx]

theorem State.unitFate_append (hk : headerKind h = 1) (hl : s.late slot r h = false)
    (hx : excluded (s.discard slot) r (headerKey r h) = false) : s.unitFate slot r h = s.appendUnit slot r h := by
  rw [State.late] at hl
  simp [State.unitFate, hk, hl, hx]

/-! ## What the fates send and leave -/

/-- A unit that is skipped leaves the store and the write position; only an excluded one moves the last noticed
stamp. -/
theorem State.unitFate_skips (hf : headerKind h = 2 ∨ headerKind h = 3
      ∨ (headerKind h = 1 ∧ (s.late slot r h = true ∨ excluded (s.discard slot) r (headerKey r h) = true))) :
    ∃ q : State, q.skips (s.unitFate slot r h) slot r h ∧ q.stc = s.stc
      ∧ (q.intake slot r).writePos = (s.intake slot r).writePos
      ∧ (¬ (headerKind h = 1 ∧ s.late slot r h = false) →
          (q.intake slot r).lastStamp = (s.intake slot r).lastStamp) := by
  rcases hf with hk | hk | ⟨hk, hx⟩
  · rw [State.unitFate_end hk]
    exact ⟨_, State.skipUnit_skips .., rfl, rfl, fun _ => rfl⟩
  · rw [State.unitFate_filler hk]
    exact ⟨_, State.skipUnit_skips .., rfl, rfl, fun _ => rfl⟩
  · cases hl : s.late slot r h with
    | true =>
      rw [State.unitFate_late hk hl]
      exact ⟨_, State.skipUnit_skips .., rfl, rfl, fun _ => rfl⟩
    | false =>
      rw [State.unitFate_excluded hk hl (hx.resolve_left (by rw [hl]; nofun))]
      refine ⟨_, State.skipUnit_skips .., rfl, ?_, fun hn => absurd ⟨hk, rfl⟩ hn⟩
      show ((s.setIntake slot r _).intake slot r).writePos = _
      rw [State.intake_setIntake_same]

theorem State.unitFate_excluded_notices (hk : headerKind h = 1) (hl : s.late slot r h = false)
    (hx : excluded (s.discard slot) r (headerKey r h) = true) :
    (s.unitFate slot r h).sent = s.sent ++ [.unitNotice ⟨slot, r, headerStamp h, headerKey r h, none⟩]
      ∧ ((s.unitFate slot r h).intake slot r).lastStamp = some (headerStamp h) := by
  rw [State.unitFate_excluded hk hl hx]
  have skips := State.skipUnit_skips ((s.setIntake slot r { s.intake slot r with
    lastStamp := some (headerStamp h) }).send (.unitNotice ⟨slot, r, headerStamp h, headerKey r h, none⟩)) slot r h
  exact ⟨skips.sent, skips.lastStamp.trans (congrArg IntakeRec.lastStamp (State.intake_setIntake_same ..))⟩

/-- The record of a unit whose header is being appended. -/
def IntakeRec.appending (x : IntakeRec) (h : List Byte) : IntakeRec :=
  { x with
    parse := .body, header := h, disposition := .append, declared := headerLength h, received := 0
    unitStart := some x.writePos }

/-- The state in which a unit's header is about to be written. -/
def State.appending (s : State) (slot : Nat) (r : Role) (h : List Byte) : State :=
  (s.setDiscard slot ((s.discard slot).withTaken true)).setIntake slot r ((s.intake slot r).appending h)

theorem State.appendUnit_written {q : State} (hw : (s.appending slot r h).writeBytes slot r h = (q, []))
    (hb : headerLength h ≠ 0) : s.appendUnit slot r h = q := by
  have eq : s.appendUnit slot r h = (let w := (s.appending slot r h).writeBytes slot r h
      if w.2.isEmpty then (if headerLength h = 0 then w.1.finishUnit slot r else w.1)
      else if w.2.length = h.length then
        (w.1.setDiscard slot ((s.discard slot).withTaken false)).startOverrun slot r
      else w.1.refusedInUnit slot r false) := rfl
  rw [eq, hw]
  exact if_neg hb

/-- A unit with a body whose header fits the page: the header is written, and the body follows. -/
theorem State.appendUnit_joins {i : Nat} {c : Buf} (hb : headerLength h ≠ 0) (hn : h ≠ [])
    (room : s.hasRoom slot r i c h.length) :
    (s.appendUnit slot r h).sent = s.sent ∧ (s.appendUnit slot r h).buf? i = some { c with data := c.data ++ h }
      ∧ (s.appendUnit slot r h).intake slot r = { (s.intake slot r).appending h with
          writePos := (s.intake slot r).writePos + h.length } := by
  have record : (s.appending slot r h).intake slot r = (s.intake slot r).appending h := State.intake_setIntake_same ..
  have fits : (s.appending slot r h).hasRoom slot r i c h.length := room.of_record rfl (by rw [record]; rfl)
  rw [State.appendUnit_written (fits.writeBytes hn) hb, State.joined_intake, record]
  exact ⟨rfl, State.buf?_setBuf_same .., rfl⟩

end

end Sys2Proof.Machine
end

section
/-! PROOF. How the intake parses, appends, skips, breaks and overruns units (O28). -/

namespace Sys2Proof.Machine

/-! ## Bytes before a unit's body (R51, R52, R61) -/

section
variable {s : State} {slot : Nat} {r : Role} {b : Byte}

theorem payloadByte_overrun (ht : takesCells (s.lecture? slot) r = true) (hs : s.atRest)
    (h : (s.intake slot r).overrun ≠ .clear) :
    exec (.payloadCell (.role slot r) [b]) s = .next (s.received (.payloadCell (.role slot r) [b])) :=
  exec_payloadByte ht hs (State.takeByte_overrun b h) rfl

theorem payloadByte_hunt (ht : takesCells (s.lecture? slot) r = true) (hs : s.atRest)
    (hc : (s.intake slot r).overrun = .clear) (hp : (s.intake slot r).parse = .hunt) :
    let x := s.intake slot r
    let cell : Instr := .payloadCell (.role slot r) [b]
    (x.seen4C = true → b = 0x55 → exec cell s = .next ((s.received cell).setIntake slot r { x with
        parse := .header, header := [0x4C, 0x55], seen4C := false }))
      ∧ (¬ (x.seen4C = true ∧ b = 0x55) → exec cell s = .next ((s.received cell).setIntake slot r { x with
        seen4C := b == 0x4C })) :=
  ⟨fun hm hb => exec_payloadByte ht hs (State.takeByte_marker b hc hp ⟨hm, hb⟩) rfl,
    fun hm => exec_payloadByte ht hs (State.takeByte_hunt b hc hp hm) rfl⟩

theorem payloadByte_header (ht : takesCells (s.lecture? slot) r = true) (hs : s.atRest)
    (hc : (s.intake slot r).overrun = .clear) (hp : (s.intake slot r).parse = .header) :
    let x := s.intake slot r
    let cell : Instr := .payloadCell (.role slot r) [b]
    (x.header.length < 15 → exec cell s = .next ((s.received cell).setIntake slot r { x with
        header := x.header ++ [b] }))
      ∧ (15 ≤ x.header.length → headerAccepted (x.header ++ [b]) = true → exec cell s = .next
          (((s.received cell).setIntake slot r x.hunt).unitFate slot r (x.header ++ [b])).serveClaims)
      ∧ (15 ≤ x.header.length → headerAccepted (x.header ++ [b]) = false →
          let again := rehunt ((x.header ++ [b]).drop 2)
          exec cell s = .next ((s.received cell).setIntake slot r { x.hunt with
            parse := if again.1 = [] then .hunt else .header, header := again.1, seen4C := again.2 })) := by
  refine ⟨fun hl => exec_payloadByte ht hs (State.takeByte_header b hc hp hl) rfl, fun hl ha => ?_, fun hl ha => ?_⟩
  · have tested := State.takeByte_lastHeader (s := s.received (.payloadCell (.role slot r) [b])) b hc hp hl
    rw [exec_payloadCell ht, List.foldl_cons, List.foldl_nil, tested]
    exact congrArg (fun q : State => Host.Outcome.next q.serveClaims) (State.testHeader_accepted ha)
  · have tested := State.takeByte_lastHeader (s := s.received (.payloadCell (.role slot r) [b])) b hc hp hl
    exact exec_payloadByte ht hs (tested.trans (State.testHeader_rejected ha)) rfl

/-! ## The last byte of a body (R54, R55) -/

/-- The last byte of a body is followed by the GOOD suffix and the notice. -/
theorem State.takeByte_notices {i start : Nat} {c : Buf} (hc : (s.intake slot r).overrun = .clear)
    (hp : (s.intake slot r).parse = .body) (hd : (s.intake slot r).disposition = .append)
    (hl : (s.intake slot r).received + 1 = (s.intake slot r).declared)
    (hstart : (s.intake slot r).unitStart = some start) (h : s.hasRoom slot r i c 9) :
    s.notices (State.takeByte slot r s b) slot r
      { s.intake slot r with received := (s.intake slot r).declared } i c
      (b :: suffixBytes true (s.intake slot r).declared) (headerStamp (s.intake slot r).header)
      (headerKey r (s.intake slot r).header) true start := by
  obtain ⟨q, hq⟩ : ∃ q, q = (s.joined slot r i c [b]).setIntake slot r
      { (s.joined slot r i c [b]).intake slot r with received := (s.intake slot r).received + 1 } := ⟨_, rfl⟩
  have record : q.intake slot r = { s.intake slot r with
      writePos := (s.intake slot r).writePos + 1, received := (s.intake slot r).declared } := by
    rw [hq, State.intake_setIntake_same, State.joined_intake, hl]
    rfl
  have room : q.hasRoom slot r i { c with data := c.data ++ [b] } 8 := by
    rw [hq]
    exact (State.hasRoom.joined (bs := [b]) (n := 8) h).setIntake rfl
  have takes : State.takeByte slot r s b = q.finishUnit slot r := by
    rw [State.takeByte_body b hc hp, State.bodyByte_joins b hd (h.mono (by omega)), hq]
    exact congrFun (if_neg (by omega)) _
  have ends := State.finishUnit_notices (by rw [record]; exact hstart) room
  rw [← takes, record] at ends
  refine ⟨ends.intake.trans ?_, ends.sent.trans ?_, ends.buffer.trans ?_, ends.waits.trans (by rw [hq]; rfl),
    ends.sgc.trans (by rw [hq]; rfl)⟩
  · rw [record]
    rfl
  · rw [record, hq]
    rfl
  · rw [List.append_assoc, List.length_append]
    rfl

theorem payloadByte_last (ht : takesCells (s.lecture? slot) r = true) (hs : s.atRest) {i start : Nat} {c : Buf}
    (hc : (s.intake slot r).overrun = .clear) (hp : (s.intake slot r).parse = .body)
    (hd : (s.intake slot r).disposition = .append) (hl : (s.intake slot r).received + 1 = (s.intake slot r).declared)
    (hstart : (s.intake slot r).unitStart = some start) (h : s.hasRoom slot r i c 9) :
    let x := s.intake slot r
    let cell : Instr := .payloadCell (.role slot r) [b]
    ∃ t, exec cell s = .next t
      ∧ t.sent = s.sent.erase cell ++ [.unitNotice ⟨slot, r, headerStamp x.header, headerKey r x.header,
          some ⟨true, start, x.writePos + 9⟩⟩]
      ∧ t.buf? i = some { c with data := c.data ++ b :: suffixBytes true x.declared, committed := c.data.length + 9 }
      ∧ (t.intake slot r).parse = .hunt ∧ (t.intake slot r).writePos = x.writePos + 9
      ∧ (t.intake slot r).lastStamp = some (headerStamp x.header) := by
  intro x cell
  have room : (s.received cell).hasRoom slot r i c 9 := h.of_record rfl rfl
  have ends := State.takeByte_notices (s := s.received cell) (b := b) hc hp hd hl hstart room
  exact ⟨_, exec_payloadByte ht hs rfl ends.waits, ends.sent, ends.buffer, congrArg IntakeRec.parse ends.intake,
    congrArg IntakeRec.writePos ends.intake, congrArg IntakeRec.lastStamp ends.intake⟩

/-! ## A body byte that finds no page buffer free (R59, R61) -/

/-- With no FILLING buffer and none free, a run within its blocks is refused and waits for a buffer. -/
theorem State.runReady_waits {y : Run} {pos : Nat} (hf : s.fillingOf (.run slot r) = none)
    (hy : s.run? slot r = some y) (hb : s.freeBuffers = 0) (hpos : pos < y.headOffset + y.blocks.length * 262144) :
    s.runReady slot r pos = (s.addClaim ⟨.run slot r, .buffer⟩, false) := by
  have block : s.runBlock slot r y pos = (s, true) := by
    rw [State.runBlock, Config.blockBytes, if_pos hpos]
  have buffer : s.runBuffer slot r pos = (s.addClaim ⟨.run slot r, .buffer⟩, false) := by
    simp only [State.runBuffer, hy, hf, Option.isSome_none, Bool.false_eq_true, if_false, if_pos hb]
  simp only [State.runReady, hf, hy, block, buffer, Option.isSome_none, Bool.false_eq_true, if_false, if_true]

/-- A write that is refused at once leaves its bytes unwritten. -/
theorem State.writeRun_refused {q : State} {bs : List Byte} (hne : bs ≠ [])
    (hr : s.runReady slot r (s.intake slot r).writePos = (q, false)) (fuel : Nat) :
    State.writeRun slot r (fuel + 1) bs s = (q, bs) := by
  obtain ⟨b, l, rfl⟩ := List.exists_cons_of_ne_nil hne
  rw [State.writeRun, hr]
  rfl

theorem State.writeBytes_refused {q : State} {bs : List Byte} (hne : bs ≠ [])
    (hr : s.runReady slot r (s.intake slot r).writePos = (q, false)) : s.writeBytes slot r bs = (q, bs) := by
  rw [State.writeBytes, writeFuel, State.writeRun_refused hne hr]

/-- The start of an overrun (R61). -/
theorem State.startOverrun_starts (s : State) (slot : Nat) (r : Role) :
    (s.startOverrun slot r).intake slot r = { (s.intake slot r).hunt with overrun := .waiting }
      ∧ (s.startOverrun slot r).stc = s.stc ∧ (s.startOverrun slot r).sent = s.sent ++ [.overrunReport slot]
      ∧ (s.startOverrun slot r).condition .intakeOverrun = true := by
  obtain ⟨q, hq⟩ : ∃ q, q = (s.setIntake slot r { (s.intake slot r).hunt with overrun := .waiting }).send
      (.overrunReport slot) := ⟨_, rfl⟩
  have eq : s.startOverrun slot r = q.raise .intakeOverrun := by rw [hq]; rfl
  have record : (q.raise .intakeOverrun).intake slot r = q.intake slot r :=
    congrArg (fun x : Iku => x.recs.atD (roleKey slot r) IntakeRec.reset) (State.raise_iku ..)
  have sent : (q.raise .intakeOverrun).sent = q.sent := congrArg Prod.fst (State.raise_ledger ..)
  rw [eq, record, sent, State.raise_stc, hq]
  exact ⟨State.intake_setIntake_same .., rfl, rfl, State.raise_condition_same ..⟩

/-- A unit that a request refuses is held as broken, and the overrun starts. -/
theorem State.refusedInUnit_holds {start : Nat} (hstart : (s.intake slot r).unitStart = some start) (good : Bool) :
    (s.refusedInUnit slot r good).intake slot r = { (s.intake slot r).hunt with
        overrun := .waiting, broken := some ((s.intake slot r).asBroken r start good (s.intake slot r).received) }
      ∧ (s.refusedInUnit slot r good).stc = s.stc
      ∧ (s.refusedInUnit slot r good).sent = s.sent ++ [.overrunReport slot]
      ∧ (s.refusedInUnit slot r good).condition .intakeOverrun = true := by
  have eq : s.refusedInUnit slot r good = (s.holdBroken slot r
      ((s.intake slot r).asBroken r start good (s.intake slot r).received)).startOverrun slot r := by
    simp only [State.refusedInUnit, hstart]
  obtain ⟨record, rest⟩ := (s.holdBroken slot r
    ((s.intake slot r).asBroken r start good (s.intake slot r).received)).startOverrun_starts slot r
  rw [eq, record, State.holdBroken, State.intake_setIntake_same]
  exact ⟨rfl, rest⟩

/-- A claim of a run is the whole order where it alone waits. -/
theorem claimOrder_run (slot : Nat) (r : Role) (kind : ClaimKind) :
    claimOrder [⟨.run slot r, kind⟩] = [⟨.run slot r, kind⟩] := rfl

/-- A run's claim that cannot be granted waits on. -/
theorem State.serveClaims_waiting {kind : ClaimKind} (hc : s.stc.claims = [⟨.run slot r, kind⟩])
    (hg : s.grantable ⟨.run slot r, kind⟩ = false) (hn : ∀ q ∈ s.stc.relocations, s.canCopy q = false) :
    s.serveClaims = s := by
  have loop : ∀ n, State.serveLoop n s = s := fun n => by
    cases n with
    | zero => rfl
    | succ n => simp [State.serveLoop, hc, claimOrder_run, hg]
  rw [State.serveClaims, loop, State.endOverruns, hc]
  simpa using State.resumeCopies_none hn

/-- A run's claim keeps no relocation from copying that had nothing to wait for. -/
theorem State.canCopy_of_run {t : State} {kind : ClaimKind} (hs : s.stc.claims = [])
    (ht : t.stc.claims = [⟨.run slot r, kind⟩]) (q : Relocation) : t.canCopy q = s.canCopy q := by
  rw [State.canCopy, State.canCopy, hs, ht]
  rfl

theorem payloadByte_refused (ht : takesCells (s.lecture? slot) r = true) (hs : s.atRest) {y : Run} {start : Nat}
    (hc : (s.intake slot r).overrun = .clear) (hp : (s.intake slot r).parse = .body)
    (hd : (s.intake slot r).disposition = .append) (hstart : (s.intake slot r).unitStart = some start)
    (hf : s.fillingOf (.run slot r) = none) (hy : s.run? slot r = some y) (hb : s.freeBuffers = 0)
    (hpos : (s.intake slot r).writePos < y.headOffset + y.blocks.length * 262144) :
    let x := s.intake slot r
    ∃ t, exec (.payloadCell (.role slot r) [b]) s = .next t ∧ (t.intake slot r).overrun = .waiting
      ∧ (t.intake slot r).parse = .hunt
      ∧ (t.intake slot r).broken = some ⟨false, start, x.header, headerStamp x.header, headerKey r x.header,
          x.declared, x.received⟩
      ∧ (⟨.run slot r, .buffer⟩ : Claim) ∈ t.stc.claims ∧ .overrunReport slot ∈ t.sent
      ∧ t.condition .intakeOverrun = true := by
  intro x
  obtain ⟨u, hu⟩ : ∃ u, u = s.received (.payloadCell (.role slot r) [b]) := ⟨_, rfl⟩
  obtain ⟨v, hv⟩ : ∃ v, v = u.addClaim ⟨.run slot r, .buffer⟩ := ⟨_, rfl⟩
  have asks : u.writeBytes slot r [b] = (v, [b]) := by
    have refused := State.runReady_waits (s := s.received (.payloadCell (.role slot r) [b])) hf hy hb hpos
    rw [hv, hu]
    exact State.writeBytes_refused (List.cons_ne_nil _ _) refused
  have takes : State.takeByte slot r u b = v.refusedInUnit slot r false := by
    have body : State.takeByte slot r u b = u.bodyByte slot r (u.intake slot r) b :=
      State.takeByte_body b (by rw [hu]; exact hc) (by rw [hu]; exact hp)
    rw [body, State.bodyByte_refused b (by rw [hu]; exact hd) asks nofun]
  have same : v.intake slot r = x := by rw [hv, hu]; rfl
  obtain ⟨record, stc, sent, condition⟩ :=
    State.refusedInUnit_holds (s := v) (r := r) (by rw [same]; exact hstart) false
  rw [same] at record
  have claims : (v.refusedInUnit slot r false).stc.claims = [⟨.run slot r, .buffer⟩] := by
    rw [stc, hv, hu]
    show s.stc.claims ++ _ = _
    rw [hs.1]
    rfl
  have buffers : (v.refusedInUnit slot r false).freeBuffers = 0 := by
    rw [State.freeBuffers, stc, hv, hu]
    exact hb
  have rest : (v.refusedInUnit slot r false).serveClaims = v.refusedInUnit slot r false := by
    refine State.serveClaims_waiting claims (by simp [State.grantable, buffers]) fun q hq => ?_
    rw [State.canCopy_of_run hs.1 claims]
    rw [stc, hv, hu] at hq
    exact hs.2 q hq
  refine ⟨_, exec_payloadCell ht [b], ?_⟩
  rw [List.foldl_cons, List.foldl_nil, ← hu, takes, rest, record, claims, sent]
  exact ⟨rfl, rfl, rfl, List.mem_singleton.2 rfl, List.mem_append_right _ (List.mem_singleton.2 rfl), condition⟩

end

/-! ## A loss of sync (R63) -/

section
variable {s : State} {slot : Nat} {r : Role}

theorem State.lossRecord_overrun (h : (s.intake slot r).overrun ≠ .clear) : s.lossRecord slot r = s := by
  simp [State.lossRecord, h]

theorem State.lossRecord_hunts (hc : (s.intake slot r).overrun = .clear)
    (h : ¬ ((s.intake slot r).parse = .body ∧ (s.intake slot r).disposition = .append)) :
    s.lossRecord slot r = s.setIntake slot r (s.intake slot r).hunt := by
  simp only [State.lossRecord, hc, if_neg h]
  rfl

theorem State.lossRecord_breaks (hc : (s.intake slot r).overrun = .clear) (hp : (s.intake slot r).parse = .body)
    (hd : (s.intake slot r).disposition = .append) : s.lossRecord slot r = s.breakUnit slot r := by
  simp only [State.lossRecord, hc, hp, hd]
  rfl

/-- A unit in its body is broken, and its zeros and BROKEN suffix fit the page. -/
theorem State.lossRecord_notices {x : IntakeRec} (hx : s.intake slot r = x) {i start : Nat} {c : Buf}
    (hc : x.overrun = .clear) (hp : x.parse = .body) (hd : x.disposition = .append) (hstart : x.unitStart = some start)
    (hle : x.received ≤ x.declared) (hw : x.writePos = start + 16 + x.received)
    (h : s.hasRoom slot r i c (x.declared - x.received + 8)) :
    let t := s.lossRecord slot r
    let stop := start + 24 + x.declared
    t.sent = s.sent ++ [.unitNotice ⟨slot, r, headerStamp x.header, headerKey r x.header, some ⟨false, start, stop⟩⟩]
      ∧ (t.intake slot r).parse = .hunt ∧ (t.intake slot r).writePos = stop ∧ (t.intake slot r).broken = none
      ∧ t.buf? i = some { c with
          data := c.data ++ (List.replicate (x.declared - x.received) 0 ++ suffixBytes false x.received)
          committed := c.data.length + (x.declared - x.received) + 8 } := by
  intro t stop
  have breaks := State.breakUnit_notices hx hstart hle hw h
  subst hx
  rw [← State.lossRecord_breaks hc hp hd] at breaks
  have length : (List.replicate ((s.intake slot r).declared - (s.intake slot r).received) (0 : Byte)
      ++ suffixBytes false (s.intake slot r).received).length
      = ((s.intake slot r).declared - (s.intake slot r).received) + 8 := by
    rw [List.length_append, List.length_replicate, suffixBytes_length]
  have ends : (s.intake slot r).writePos + (List.replicate ((s.intake slot r).declared - (s.intake slot r).received)
      (0 : Byte) ++ suffixBytes false (s.intake slot r).received).length = stop := by
    show _ = start + 24 + (s.intake slot r).declared
    omega
  obtain ⟨record, sent, buffer, -, -⟩ := breaks
  rw [ends] at record sent
  rw [length, ← Nat.add_assoc] at buffer
  exact ⟨sent, congrArg IntakeRec.parse record, congrArg IntakeRec.writePos record, congrArg IntakeRec.broken record,
    buffer⟩

end

/-! ## The statement -/

/-- Settles O28, clause by clause: a byte in each parse state, the markers of a rejected header, the fates of an
accepted one, and the loss of sync. -/
theorem headerFates : Obligations.HeaderFates := by
  refine ⟨fun s slot r b ht hs => ⟨payloadByte_overrun ht hs, payloadByte_hunt ht hs, payloadByte_header ht hs,
      fun i c start hc hp hd hl hstart hfill hbuf hown hst hroom hreach =>
        payloadByte_last ht hs hc hp hd hl hstart ⟨hfill, hbuf, ⟨hown, hst⟩, hroom, hreach⟩,
      fun y start hc hp hd hstart hf hy hb hpos => payloadByte_refused ht hs hc hp hd hstart hf hy hb hpos⟩,
    fun bytes => ⟨fun before after e h => e ▸ rehunt_first after before h, rehunt_none bytes⟩,
    fun s slot r h => ⟨fun hk => ?_, fun hk => ?_, fun hk hl => ?_,
      fun hk hl hx => State.unitFate_excluded_notices hk hl hx, fun hf => ?_,
      fun i c hk hl hx hlen hb hfill hbuf hown hst hroom hreach => ?_⟩,
    fun s slot r => ⟨State.lossRecord_overrun, State.lossRecord_hunts,
      fun i c start ho hp hd hstart hle hw hfill hbuf hown hst hroom hreach =>
        State.lossRecord_notices rfl ho hp hd hstart hle hw ⟨hfill, hbuf, ⟨hown, hst⟩, by omega, hreach⟩⟩⟩
  · rw [State.unitFate_end hk]
    exact (State.skipUnit_skips ..).sent
  · rw [State.unitFate_filler hk]
    exact (State.skipUnit_skips ..).sent
  · rw [State.unitFate_late hk hl]
    exact (State.skipUnit_skips ..).sent
  · obtain ⟨q, skips, stc, writePos, lastStamp⟩ := State.unitFate_skips (s := s) (slot := slot) (r := r) hf
    exact ⟨skips.parse, skips.body, skips.unitStart, skips.writePos.trans writePos,
      fun hn => skips.lastStamp.trans (lastStamp hn), skips.stc.trans stc⟩
  · have joins := State.appendUnit_joins hb (fun e => by rw [e] at hlen; cases hlen)
      (State.hasRoom.mk hfill hbuf ⟨hown, hst⟩ (hlen ▸ hroom) hreach)
    rw [← State.unitFate_append hk hl hx, hlen] at joins
    exact joins

end Sys2Proof.Machine
end

section
/-! PROOF. What the bank arbiter and the store levels leave of the intake, of the page buffers and of the free lists. -/

namespace Sys2Proof.Machine

/-! ## What the intake works from -/

/-- What the intake works from: its records, the messages under way, the lectures, the runs, the claims and the
relocations. -/
def State.feed (s : State) : Iku × List Instr × Sgc × Table Run × List Claim × List Relocation :=
  (s.iku, s.sent, s.sgc, s.stc.runs, s.waits)

section
variable {s t : State}

theorem State.feed_of (hi : t.iku = s.iku) (hm : t.sent = s.sent) (hg : t.sgc = s.sgc) (hr : t.stc.runs = s.stc.runs)
    (hw : t.waits = s.waits) : t.feed = s.feed := by
  rw [State.feed, State.feed, hi, hm, hg, hr, hw]

theorem State.intake_of_feed (h : t.feed = s.feed) (slot : Nat) (r : Role) : t.intake slot r = s.intake slot r :=
  congrArg (fun x => x.1.recs.atD (roleKey slot r) IntakeRec.reset) h

theorem State.sent_of_feed (h : t.feed = s.feed) : t.sent = s.sent := congrArg (fun x => x.2.1) h

theorem State.lecture?_of_feed (h : t.feed = s.feed) (slot : Nat) : t.lecture? slot = s.lecture? slot :=
  congrArg (fun x => x.2.2.1.lectures.at? slot) h

theorem State.run?_of_feed (h : t.feed = s.feed) (slot : Nat) (r : Role) : t.run? slot r = s.run? slot r :=
  congrArg (fun x => x.2.2.2.1.at? (roleKey slot r)) h

theorem State.claims_of_feed (h : t.feed = s.feed) : t.stc.claims = s.stc.claims := congrArg (fun x => x.2.2.2.2.1) h

theorem State.relocations_of_feed (h : t.feed = s.feed) : t.stc.relocations = s.stc.relocations :=
  congrArg (fun x => x.2.2.2.2.2) h

theorem State.raise_feed (s : State) (k : Condition) : (s.raise k).feed = s.feed :=
  State.feed_of (State.raise_iku ..) (congrArg Prod.fst (State.raise_ledger ..)) (State.raise_sgc ..) (by simp)
    (by simp [State.waits])

theorem State.level_feed (s : State) (k : Condition) (b : Bool) : (s.level k b).feed = s.feed := by
  unfold State.level
  split
  · exact State.raise_feed ..
  · rfl

theorem State.evalLevels_feed (s : State) : s.evalLevels.feed = s.feed := by
  have levels : ((s.level .storeExhausted (s.stc.ready && s.freeBlocks == 0)).level .storeLow
      (s.stc.ready && decide (s.freeBlocks < s.stc.lowMark))).feed = s.feed :=
    (State.level_feed ..).trans (State.level_feed ..)
  unfold State.evalLevels
  dsimp only
  split <;> exact levels

theorem State.scrubCount_feed (s : State) (scrub : Bool) : (s.scrubCount scrub).feed = s.feed := by
  unfold State.scrubCount
  dsimp only
  split
  · split
    · exact State.evalLevels_feed _
    · rfl
  · rfl

theorem State.arbitrate_feed (s : State) (b : Nat) : (s.arbitrate b).feed = s.feed :=
  State.feed_of (State.arbitrate_drops ..).iku (congrArg Prod.fst (State.arbitrate_ledger ..)) (State.arbitrate_sgc ..)
    (State.arbitrate_drops ..).runs (State.arbitrate_waits ..)

theorem State.takeBlock_feed (s : State) (g : Nat) : (s.takeBlock g).feed = s.feed := State.evalLevels_feed _

/-! ## The free lists (R118) -/

theorem State.bank_of_stc (h : t.stc = s.stc) (b : Nat) : t.bank b = s.bank b :=
  congrArg (fun x : Stc => x.banks.atD b Bank.empty) h

theorem State.evalLevels_bank (s : State) (b : Nat) : s.evalLevels.bank b = s.bank b := by
  have levels : ((s.level .storeExhausted (s.stc.ready && s.freeBlocks == 0)).level .storeLow
      (s.stc.ready && decide (s.freeBlocks < s.stc.lowMark))).bank b = s.bank b := State.bank_of_stc (by simp) b
  unfold State.evalLevels
  dsimp only
  split <;> exact levels

theorem State.scrubCount_bank (s : State) (scrub : Bool) (b : Nat) : (s.scrubCount scrub).bank b = s.bank b := by
  unfold State.scrubCount
  dsimp only
  split
  · split
    · exact State.evalLevels_bank ..
    · rfl
  · rfl

theorem State.startProgram_free {b : Nat} {x : Bank} (h : x.free = (s.bank b).free) (p : ProgramReq) (c : Nat) :
    ((s.startProgram b x p).bank c).free = (s.bank c).free := by
  unfold State.startProgram
  dsimp only
  split <;> exact State.bank_setBank_field Bank.free s (x := { x with op := some (.program p) }) h c

theorem State.grantCopy_free {b : Nat} {x : Bank} (l : List CopyReq) (h : x.free = (s.bank b).free) (c : Nat) :
    ((s.grantCopy b x l).1.bank c).free = (s.bank c).free := by
  induction l generalizing s with
  | nil => exact State.bank_setBank_field Bank.free s (x := { x with copy := [] }) h c
  | cons a l ih =>
    cases a with
    | read q => exact State.bank_setBank_field Bank.free s (x := { x with copy := l, op := some (.read q true) }) h c
    | program p => exact State.startProgram_free (x := { x with copy := l }) h p c
    | append g =>
      unfold State.grantCopy
      split
      · have full := State.bank_of_stc (State.badlistFull_stc s)
        rw [ih (by rw [full]; exact h), full]
      next k _ _ =>
        exact State.bank_setBank_field Bank.free s (x := { x with copy := l, op := some (.append g k) }) h c

theorem State.grantErase_free (s : State) (b c : Nat) : ((s.grantErase b).bank c).free = (s.bank c).free := by
  have kept : ∀ x : Bank, x.free = (s.bank b).free → ((s.setBank b x).bank c).free = (s.bank c).free := fun x h =>
    State.bank_setBank_field Bank.free s h c
  unfold State.grantErase
  dsimp only
  split
  · exact kept _ rfl
  · split
    · rfl
    · exact kept _ rfl

theorem State.arbitrate_free (s : State) (b c : Nat) : ((s.arbitrate b).bank c).free = (s.bank c).free := by
  have kept : ∀ x : Bank, x.free = (s.bank b).free → ((s.setBank b x).bank c).free = (s.bank c).free := fun x h =>
    State.bank_setBank_field Bank.free s h c
  have starts : ∀ (x : Bank) (p : ProgramReq), x.free = (s.bank b).free →
      ((s.startProgram b x p).bank c).free = (s.bank c).free := fun _ p h => State.startProgram_free h p c
  unfold State.arbitrate
  dsimp only
  split
  · rfl
  split
  · exact starts _ _ rfl
  split
  · exact kept _ rfl
  split
  · exact kept _ rfl
  split
  · exact starts _ _ rfl
  have copies := State.grantCopy_free (s := s) (b := b) (x := s.bank b) (s.bank b).copy rfl c
  split
  · exact copies
  · exact (State.grantErase_free ..).trans copies

/-- The free blocks are those of the four free lists. -/
theorem State.freeBlocks_of_free (h : ∀ c, (t.bank c).free = (s.bank c).free) : t.freeBlocks = s.freeBlocks := by
  simp only [State.freeBlocks, h]

/-- A store with a free block has one to give, whatever bank is asked first (R128). -/
theorem State.freeHead_some (h : 0 < s.freeBlocks) (start : Nat) : ∃ g, s.freeHead start = some g := by
  rw [← Option.ne_none_iff_exists']
  intro none
  have empty : ∀ c, c < 4 → (s.bank c).free = [] := fun c hc => by
    refine List.head?_eq_none_iff.1 (List.findSome?_eq_none_iff.1 none c (List.mem_map.2 ?_))
    exact ⟨(c + 4 - start % 4) % 4, List.mem_range.2 (by omega), by omega⟩
  simp [State.freeBlocks, empty] at h

/-! ## Programs that start -/

/-- From `s` to `t` programs may have started; the page buffers are the same but for that. -/
structure State.startsPrograms (s t : State) : Prop where
  sorted : s.stc.buffers.sorted → t.stc.buffers.sorted
  buffers : ∀ j, t.buf? j = s.buf? j ∨ ∃ d, s.buf? j = some d ∧ t.buf? j = some { d with state := .programming }

theorem State.startsPrograms_of_buffers (h : t.stc.buffers = s.stc.buffers) : s.startsPrograms t :=
  ⟨fun hs => h ▸ hs, fun j => .inl (congrArg (fun x : Table Buf => x.at? j) h)⟩

theorem State.startsPrograms.trans {u : State} (h : s.startsPrograms t) (h' : t.startsPrograms u) :
    s.startsPrograms u where
  sorted hs := h'.sorted (h.sorted hs)
  buffers j := by
    rcases h'.buffers j with e | ⟨d, hd, e⟩
    · rw [e]
      exact h.buffers j
    · rcases h.buffers j with e' | ⟨d', hd', e'⟩
      · exact .inr ⟨d, e'.symm.trans hd, e⟩
      · obtain rfl := Option.some.inj (e'.symm.trans hd)
        exact .inr ⟨d', hd', e⟩

theorem State.startProgram_startsPrograms (s : State) (b : Nat) (x : Bank) (p : ProgramReq) :
    s.startsPrograms (s.startProgram b x p) := by
  unfold State.startProgram
  dsimp only
  split
  · exact State.startsPrograms_of_buffers rfl
  next d hd =>
    refine ⟨Table.sorted_put _ _ _, fun j => ?_⟩
    by_cases hj : j = p.buffer
    · subst hj
      exact .inr ⟨d, hd, State.buf?_setBuf_same ..⟩
    · exact .inl (State.buf?_setBuf_ne _ _ hj)

theorem State.grantCopy_startsPrograms (s : State) (b : Nat) (x : Bank) (l : List CopyReq) :
    s.startsPrograms (s.grantCopy b x l).1 := by
  induction l generalizing s with
  | nil => exact State.startsPrograms_of_buffers rfl
  | cons a l ih =>
    cases a with
    | read q => exact State.startsPrograms_of_buffers rfl
    | program p => exact State.startProgram_startsPrograms ..
    | append g =>
      unfold State.grantCopy
      split
      · exact (State.startsPrograms_of_buffers (congrArg Stc.buffers (State.badlistFull_stc s))).trans (ih _)
      · exact State.startsPrograms_of_buffers rfl

theorem State.grantErase_startsPrograms (s : State) (b : Nat) : s.startsPrograms (s.grantErase b) := by
  refine State.startsPrograms_of_buffers ?_
  unfold State.grantErase
  dsimp only
  (repeat' split) <;> rfl

theorem State.arbitrate_startsPrograms (s : State) (b : Nat) : s.startsPrograms (s.arbitrate b) := by
  unfold State.arbitrate
  dsimp only
  split
  · exact State.startsPrograms_of_buffers rfl
  split
  · exact State.startProgram_startsPrograms ..
  split
  · exact State.startsPrograms_of_buffers rfl
  split
  · exact State.startsPrograms_of_buffers rfl
  split
  · exact State.startProgram_startsPrograms ..
  have copies := State.grantCopy_startsPrograms s b (s.bank b) (s.bank b).copy
  split
  · exact copies
  · exact copies.trans (State.grantErase_startsPrograms ..)

/-- An owner has no FILLING buffer just when no buffer fills for it. -/
theorem State.fillingOf_none (h : s.stc.buffers.sorted) (o : Owner) :
    s.fillingOf o = none ↔ ∀ j d, s.buf? j = some d → ¬ d.fills o := by
  constructor
  · intro hn j d hd hf
    have found := List.find?_eq_none.1 (Option.map_eq_none_iff.1 hn) (j, d) (Table.mem_of_at? hd)
    simp [hf.1, hf.2] at found
  · intro none
    refine Option.map_eq_none_iff.2 (List.find?_eq_none.2 fun e he hf => ?_)
    refine none e.1 e.2 (Table.at?_of_mem h he) ?_
    simpa [Buf.fills] using hf

theorem State.startsPrograms.fillingOf_none (h : s.startsPrograms t) (hs : s.stc.buffers.sorted) {o : Owner}
    (hn : s.fillingOf o = none) : t.fillingOf o = none := by
  rw [State.fillingOf_none hs] at hn
  rw [State.fillingOf_none (h.sorted hs)]
  intro j d hd hf
  rcases h.buffers j with e | ⟨c, _, e⟩
  · exact hn j d (e.symm.trans hd) hf
  · exact absurd hf.2 (by rw [← Option.some.inj (e.symm.trans hd)]; exact BufState.noConfusion)

/-! ## How many page buffers are in use (R124) -/

theorem Table.mem_keys {α : Type} {u : Table α} (h : u.sorted) (n : Nat) :
    n ∈ u.map (fun e => e.1) ↔ (u.at? n).isSome = true := by
  constructor
  · intro hm
    obtain ⟨e, he, rfl⟩ := List.mem_map.1 hm
    rw [Table.at?_of_mem h (show (e.1, e.2) ∈ u from he)]
    rfl
  · intro hs
    obtain ⟨v, hv⟩ := Option.isSome_iff_exists.1 hs
    exact List.mem_map.2 ⟨_, Table.mem_of_at? hv, rfl⟩

/-- Tables that list the same numbers are of one length. -/
theorem Table.length_eq_of_keys {α : Type} {u v : Table α} (hu : u.sorted) (hv : v.sorted)
    (h : ∀ n, (v.at? n).isSome = (u.at? n).isSome) : v.length = u.length := by
  have same : (v.map (fun e => e.1)).Perm (u.map (fun e => e.1)) :=
    (List.perm_ext_iff_of_nodup (List.Pairwise.imp Nat.ne_of_lt hv) (List.Pairwise.imp Nat.ne_of_lt hu)).2 fun n => by
      rw [Table.mem_keys hv, Table.mem_keys hu, h]
  have length := same.length_eq
  rwa [List.length_map, List.length_map] at length

theorem Table.length_put_new {α : Type} (u : Table α) {n : Nat} (v : α) (h : u.at? n = none) :
    (u.put n v).length = u.length + 1 := by
  induction u with
  | nil => rfl
  | cons e u ih =>
    obtain ⟨k, w⟩ := e
    rw [Table.at?_cons] at h
    unfold Table.put
    split
    · rfl
    · split
      next _ hk => rw [if_pos hk.symm] at h; cases h
      next _ hk =>
        rw [if_neg fun e => hk e.symm] at h
        exact congrArg (· + 1) (ih h)

/-- A record taken out of a table in rising order was listed once. -/
theorem Table.length_del {α : Type} {u : Table α} (hu : u.sorted) {n : Nat} {v : α} (h : u.at? n = some v) :
    (u.del n).length + 1 = u.length := by
  have back : ((u.del n).put n v).length = (u.del n).length + 1 := Table.length_put_new _ _ (Table.at?_del_same ..)
  rw [← back]
  refine Table.length_eq_of_keys hu (Table.sorted_put _ _ _ (Table.sorted_del _ _ hu)) fun k => ?_
  by_cases hk : k = n
  · subst hk
    rw [Table.at?_put_same, h]
  · rw [Table.at?_put_ne _ _ hk, Table.at?_del_ne _ hk]

theorem State.startsPrograms.length (h : s.startsPrograms t) (hs : s.stc.buffers.sorted) :
    t.stc.buffers.length = s.stc.buffers.length :=
  Table.length_eq_of_keys hs (h.sorted hs) fun j => by
    rcases h.buffers j with e | ⟨d, hd, e⟩
    · exact congrArg Option.isSome e
    · exact (congrArg Option.isSome e).trans (congrArg Option.isSome hd).symm

end

end Sys2Proof.Machine
end

section
/-! PROOF. The end of an overrun (R59, R62, R129): the waiting claim of a run that is granted, and the unit that was
broken. -/

namespace Sys2Proof.Machine

/-! ## The claim that is served -/

section
variable {s : State} {slot : Nat} {r : Role} {kind : ClaimKind}

/-- The claim of a run that alone waits is granted, and its overrun ends. -/
theorem State.serveClaims_run (hc : s.stc.claims = [⟨.run slot r, kind⟩])
    (hg : s.grantable ⟨.run slot r, kind⟩ = true) (hn : (s.grant ⟨.run slot r, kind⟩).stc.claims = [])
    (hr : ((s.grant ⟨.run slot r, kind⟩).overrunGranted slot r).stc.relocations = []) :
    s.serveClaims = (s.grant ⟨.run slot r, kind⟩).overrunGranted slot r := by
  have loop : State.serveLoop (s.stc.claims.length + Config.buffers) s = s.grant ⟨.run slot r, kind⟩ := by
    rw [hc, show [(⟨.run slot r, kind⟩ : Claim)].length + Config.buffers = 160 + 1 from rfl, State.serveLoop, hc,
      claimOrder_run]
    simp only [List.find?_cons_of_pos hg, State.serveLoop_nil hn]
  have ends : (s.grant ⟨.run slot r, kind⟩).endOverruns s.stc.claims
      = (s.grant ⟨.run slot r, kind⟩).overrunGranted slot r := by
    rw [State.endOverruns, hc, hn]
    rfl
  rw [State.serveClaims, loop, ends]
  exact State.resumeCopies_none fun q hq => by rw [hr] at hq; cases hq

theorem State.withdrawClaim_run (hc : s.stc.claims = [⟨.run slot r, kind⟩]) :
    (s.withdrawClaim (.run slot r)).stc.claims = [] := by
  show s.stc.claims.filter _ = []
  rw [hc]
  simp

/-- The state in which a held unit is about to be completed. -/
def State.completing (s : State) (slot : Nat) (r : Role) : State :=
  s.setIntake slot r { s.intake slot r with overrun := .completing }

/-- The end of an overrun whose unit has been completed (R62, R64). -/
def State.overrunOver (s : State) (slot : Nat) (r : Role) : State :=
  let t := s.setIntake slot r { s.intake slot r with overrun := .clear }
  match t.lecture? slot with
  | none => t
  | some l => if l.state = .closed then t.closeRunTail slot r else t

theorem State.overrunGranted_eq (s : State) (slot : Nat) (r : Role) : s.overrunGranted slot r
    = match (s.intake slot r).broken with
      | none => s.setIntake slot r { (s.intake slot r).hunt with overrun := .clear }
      | some u =>
        let c := (s.completing slot r).completeUnit slot r u
        if c.2 then c.1.overrunOver slot r
        else c.1.setIntake slot r { c.1.intake slot r with overrun := .waiting } := rfl

/-- An overrun without a broken unit ends at once. -/
theorem State.overrunGranted_unbroken (h : (s.intake slot r).broken = none) :
    s.overrunGranted slot r = s.setIntake slot r { (s.intake slot r).hunt with overrun := .clear } := by
  rw [State.overrunGranted_eq, h]

theorem State.overrunGranted_broken {u : BrokenUnit} (h : (s.intake slot r).broken = some u) {q : State} {done : Bool}
    (hc : (s.completing slot r).completeUnit slot r u = (q, done)) : s.overrunGranted slot r
      = if done then q.overrunOver slot r else q.setIntake slot r { q.intake slot r with overrun := .waiting } := by
  rw [State.overrunGranted_eq, h]
  dsimp only
  rw [hc]

/-- A lecture that is not CLOSED keeps the tail of its run open. -/
theorem State.overrunOver_eq (h : ∀ l, s.lecture? slot = some l → l.state ≠ .closed) :
    s.overrunOver slot r = s.setIntake slot r { s.intake slot r with overrun := .clear } := by
  unfold State.overrunOver
  dsimp only
  split
  · rfl
  next l hl => exact if_neg (h l hl)

theorem State.completing_intake (s : State) (slot : Nat) (r : Role) :
    (s.completing slot r).intake slot r = { s.intake slot r with overrun := .completing } :=
  State.intake_setIntake_same ..

end

/-! ## The page buffer that is given (R124) -/

/-- A page buffer that has just been given. -/
def Buf.fresh (o : BufOwner) (g page : Nat) : Buf := ⟨.filling, o, g, page, [], 0, false, false⟩

/-- A run has just been given page buffer `i`, its only FILLING one. -/
structure State.given (t : State) (slot : Nat) (r : Role) (i : Nat) (c : Buf) : Prop where
  sorted : t.stc.buffers.sorted
  buffer : t.buf? i = some c
  fresh : ∃ g page, c = Buf.fresh (.own (.run slot r)) g page
  only : ∀ j d, t.buf? j = some d → d.fills (.run slot r) → j = i

theorem State.grant_buffer {s : State} {slot : Nat} {r : Role} {y : Run} (hs : s.stc.buffers.sorted)
    (hy : s.run? slot r = some y) (hf : s.fillingOf (.run slot r) = none) (hl : s.stc.buffers.length < 160) :
    ∃ i c, (s.grant ⟨.run slot r, .buffer⟩).given slot r i c
      ∧ (s.grant ⟨.run slot r, .buffer⟩).feed = (s.withdrawClaim (.run slot r)).feed
      ∧ (s.grant ⟨.run slot r, .buffer⟩).stc.buffers.length = s.stc.buffers.length + 1 := by
  obtain ⟨i, hi, -, free⟩ := Table.freeFrom_of_room hl
  obtain ⟨u, hu⟩ : ∃ u, u = s.withdrawClaim (.run slot r) := ⟨_, rfl⟩
  obtain ⟨g, hg⟩ : ∃ g, g = (runPage y (u.intake slot r).writePos).1 := ⟨_, rfl⟩
  obtain ⟨page, hp⟩ : ∃ page, page = (runPage y (u.intake slot r).writePos).2 := ⟨_, rfl⟩
  have run : u.run? slot r = some y := by rw [hu]; exact hy
  have filling : u.fillingOf (.run slot r) = none := by rw [hu]; exact hf
  have room : ¬ u.freeBuffers = 0 := by
    rw [hu]
    show ¬ 160 - s.stc.buffers.length = 0
    omega
  have first : u.stc.buffers.freeFrom Config.buffers 0 = some i := by rw [hu]; exact hi
  have asks : s.grant ⟨.run slot r, .buffer⟩ = u.giveRun slot r .buffer := by rw [hu]; rfl
  have gives : s.grant ⟨.run slot r, .buffer⟩ = u.setBuf i (Buf.fresh (.own (.run slot r)) g page) := by
    simp only [asks, State.giveRun, State.runBuffer, run, filling, Option.isSome_none, Bool.false_eq_true, if_false,
      if_neg room, State.giveBuffer, first, ← hg, ← hp]
    rfl
  rw [gives, hu]
  refine ⟨i, _, ⟨Table.sorted_put _ _ _ hs, State.buf?_setBuf_same .., ⟨g, page, rfl⟩, fun j d hd hfills => ?_⟩, rfl,
    Table.length_put_new _ _ free⟩
  by_contra hj
  rw [State.buf?_setBuf_ne _ _ hj] at hd
  exact (State.fillingOf_none hs _).1 hf j d hd hfills

section
variable {t : State} {slot : Nat} {r : Role} {i : Nat} {c : Buf}

theorem State.given.fillingOf (h : t.given slot r i c) : t.fillingOf (.run slot r) = some i := by
  obtain ⟨g, page, rfl⟩ := h.fresh
  refine (State.fillingOf_iff h.sorted _ _).2 ⟨⟨_, h.buffer, rfl, rfl⟩, fun j d hj hd hf => ?_⟩
  have := h.only j d hd hf
  omega

/-- The buffer given has room for less than a page, at the start of one. -/
theorem State.given.hasRoom (h : t.given slot r i c) (hw : (t.intake slot r).writePos % 4096 = 0) {n : Nat}
    (hn : n < 4096) : t.hasRoom slot r i c n := by
  have filling := h.fillingOf
  have buffer := h.buffer
  obtain ⟨g, page, rfl⟩ := h.fresh
  exact ⟨filling, buffer, ⟨rfl, rfl⟩, by rw [show (Buf.fresh _ g page).data.length = 0 from rfl]; omega, hw.symm⟩

end

/-! ## What is left of the broken unit (R60) -/

/-- What is still to be written of a broken unit is what the whole unit has behind the point reached. -/
theorem brokenRest_eq_drop {u : BrokenUnit} (hu : u.header.length = 16) (reached : Nat) : brokenRest u reached
    = (u.header ++ List.replicate u.declared 0 ++ suffixBytes u.good u.received).drop reached := by
  rw [brokenRest, List.drop_append, List.drop_append, List.drop_replicate, List.length_append, List.length_replicate,
    hu]
  split
  · rw [show reached - 16 = 0 by omega, show reached - (16 + u.declared) = 0 by omega]
    rfl
  · rw [List.drop_of_length_le (by omega : u.header.length ≤ reached), List.nil_append]
    split
    · rw [show reached - (16 + u.declared) = 0 by omega, show u.declared - (reached - 16) = 16 + u.declared - reached by
        omega]
      rfl
    · rw [show u.declared - (reached - 16) = 0 by omega, show reached - 16 - u.declared = reached - (16 + u.declared) by
        omega]
      rfl

/-! ## A broken unit that ends within the page (R60, R62) -/

section
variable {t : State} {slot : Nat} {r : Role} {i : Nat} {c : Buf} {u : BrokenUnit} {left : List Byte}

theorem State.overrunGranted_completes (hb : (t.intake slot r).broken = some u)
    (hl : ∀ l, t.lecture? slot = some l → l.state ≠ .closed)
    (hleft : brokenRest u ((t.intake slot r).writePos - u.start) = left) (hne : left ≠ [])
    (room : t.hasRoom slot r i c left.length) :
    let q := t.overrunGranted slot r
    let stop := (t.intake slot r).writePos + left.length
    q.intake slot r = { (t.intake slot r).hunt with
        overrun := .clear, broken := none, writePos := stop, lastStamp := some u.stamp }
      ∧ q.sent = t.sent ++ [.unitNotice ⟨slot, r, u.stamp, u.key, some ⟨u.good, u.start, stop⟩⟩]
      ∧ q.buf? i = some { c with data := c.data ++ left, committed := c.data.length + left.length }
      ∧ q.waits = t.waits := by
  intro q stop
  have record := State.completing_intake t slot r
  obtain ⟨done, ends⟩ := State.completeUnit_notices (s := t.completing slot r) (r := r) (u := u) (i := i) (c := c)
    (by rw [record]; exact hleft) hne (room.setIntake rfl)
  obtain ⟨w, hw⟩ : ∃ w, w = ((t.completing slot r).completeUnit slot r u).1 := ⟨_, rfl⟩
  rw [← hw, record] at ends
  have eq : q = w.setIntake slot r { w.intake slot r with overrun := .clear } := by
    refine (State.overrunGranted_broken hb (Prod.ext hw.symm done)).trans (State.overrunOver_eq fun l hlec => hl l ?_)
    rw [← hlec]
    exact (State.lecture?_of_sgc ends.sgc slot).symm
  rw [eq, State.intake_setIntake_same, ends.intake, record]
  refine ⟨rfl, ends.sent.trans ?_, ends.buffer, ends.waits⟩
  rw [record]
  rfl

end

/-! ## A broken unit that needs another page (R59, R62) -/

/-- Bytes that fill the page of the FILLING buffer: it is PENDING, and offered. -/
theorem State.putRun_full {s : State} {slot : Nat} {r : Role} {i : Nat} {c : Buf} {bs : List Byte}
    (hf : s.fillingOf (.run slot r) = some i) (hc : s.buf? i = some c) (hn : c.data.length + bs.length = 4096) :
    s.putRun slot r bs = ((s.setIntake slot r { s.intake slot r with
      writePos := (s.intake slot r).writePos + bs.length }).setBuf i { c with
        state := .pending, data := c.data ++ bs, committed := 4096 }).offer i := by
  have hf' : (s.setIntake slot r { s.intake slot r with
      writePos := (s.intake slot r).writePos + bs.length }).fillingOf (.run slot r) = some i := hf
  have hc' : (s.setIntake slot r { s.intake slot r with
      writePos := (s.intake slot r).writePos + bs.length }).buf? i = some c := hc
  simp only [State.putRun, hf', hc', Config.pageBytes, hn, lt_irrefl, if_false]

/-- With no relocation, a run's page buffer that is offered joins the intake class of its bank, and programs start. -/
theorem State.offer_starts {s : State} {slot : Nat} {r : Role} {i : Nat} {c : Buf} (hc : s.buf? i = some c)
    (ho : c.owner = .own (.run slot r)) (hr : s.stc.relocations = []) :
    s.startsPrograms (s.offer i) ∧ (s.offer i).feed = s.feed := by
  obtain ⟨q, hq⟩ : ∃ q, q = s.setBank (bankOf c.block) { s.bank (bankOf c.block) with
      intakeProgram := (s.bank (bankOf c.block)).intakeProgram ++ [⟨i, c.block, c.page⟩] } := ⟨_, rfl⟩
  have still : s.relocating c.block = false := by rw [State.relocating, hr]; rfl
  have joins : s.offer i = q.afterJoin (bankOf c.block) := by
    simp only [State.offer, hc, still, ho, hq]
    rfl
  obtain ⟨p, rest, waiting⟩ : ∃ p rest, (q.bank (bankOf c.block)).intakeProgram = p :: rest := by
    rw [hq, State.bank_setBank_same]
    exact List.exists_cons_of_ne_nil (List.append_ne_nil_of_right_ne_nil _ nofun)
  obtain ⟨besides, sorted, -, buffers⟩ := State.afterJoin_grantsProgram waiting
  rw [← joins] at besides sorted buffers
  have same : q.stc.buffers = s.stc.buffers := by rw [hq]; rfl
  refine ⟨(State.startsPrograms_of_buffers same).trans ⟨sorted, fun j => ?_⟩,
    (congrArg State.feed besides :).trans (by rw [hq]; rfl)⟩
  exact (buffers j).imp_right fun ⟨d, hd, e, _⟩ => ⟨d, hd, e⟩

/-- At the start of a page that its buffer is there for, a write goes on behind the page. -/
theorem State.writeRun_page {s : State} {slot : Nat} {r : Role} {i : Nat} {bs : List Byte}
    (hf : s.fillingOf (.run slot r) = some i) (hw : (s.intake slot r).writePos % 4096 = 0) (hne : bs ≠ [])
    (fuel : Nat) : State.writeRun slot r (fuel + 1) bs s
      = State.writeRun slot r fuel (bs.drop 4096) (s.putRun slot r (bs.take 4096)) := by
  obtain ⟨b, l, rfl⟩ := List.exists_cons_of_ne_nil hne
  have ready : s.runReady slot r (s.intake slot r).writePos = (s, true) := by
    rw [State.runReady, hf]
    rfl
  rw [State.writeRun, ready]
  simp only [if_true, Config.pageBytes, hw, Nat.sub_zero]

section
variable {t : State} {slot : Nat} {r : Role} {i : Nat} {c : Buf} {y : Run} {left : List Byte}

/-- A page is filled with the first bytes of a longer write; with no other buffer free the run waits for one. -/
theorem State.given.writeBytes_fills (h : t.given slot r i c) (hr : t.stc.relocations = [])
    (hl : t.stc.buffers.length = 160) (hy : t.run? slot r = some y) (hw : (t.intake slot r).writePos % 4096 = 0)
    (hpos : (t.intake slot r).writePos + 4096 < y.headOffset + y.blocks.length * 262144) (hn : 4096 < left.length) :
    ∃ q : State, t.writeBytes slot r left = (q.addClaim ⟨.run slot r, .buffer⟩, left.drop 4096)
      ∧ q.feed = (t.setIntake slot r { t.intake slot r with writePos := (t.intake slot r).writePos + 4096 }).feed := by
  obtain ⟨g, page, rfl⟩ := h.fresh
  obtain ⟨v, hv⟩ : ∃ v, v = t.setIntake slot r { t.intake slot r with
      writePos := (t.intake slot r).writePos + 4096 } := ⟨_, rfl⟩
  obtain ⟨d, hd⟩ : ∃ d : Buf, d = { Buf.fresh (.own (.run slot r)) g page with
      state := .pending, data := left.take 4096, committed := 4096 } := ⟨_, rfl⟩
  have length : (left.take 4096).length = 4096 := by rw [List.length_take]; omega
  have put : t.putRun slot r (left.take 4096) = (v.setBuf i d).offer i := by
    have full := State.putRun_full h.fillingOf h.buffer (bs := left.take 4096) (by rw [length]; rfl)
    rw [full, length, hv, hd]
    rfl
  have sorted : (v.setBuf i d).stc.buffers.sorted := by rw [hv]; exact Table.sorted_put _ _ _ h.sorted
  obtain ⟨starts, feed⟩ := State.offer_starts (s := v.setBuf i d) (State.buf?_setBuf_same ..)
    (show d.owner = .own (.run slot r) by rw [hd]; rfl) (by rw [hv]; exact hr)
  rw [← put] at starts feed
  have unfilled : (t.putRun slot r (left.take 4096)).fillingOf (.run slot r) = none := by
    refine starts.fillingOf_none sorted ((State.fillingOf_none sorted _).2 fun j e he hf => ?_)
    by_cases hj : j = i
    · subst hj
      rw [State.buf?_setBuf_same] at he
      rw [← Option.some.inj he, hd] at hf
      cases hf.2
    · rw [State.buf?_setBuf_ne _ _ hj, hv] at he
      exact hj (h.only j e he hf)
  have used : (t.putRun slot r (left.take 4096)).freeBuffers = 0 := by
    have keys : (v.setBuf i d).stc.buffers.length = t.stc.buffers.length := by
      refine Table.length_eq_of_keys h.sorted sorted fun j => ?_
      by_cases hj : j = i
      · subst hj
        exact (congrArg Option.isSome (State.buf?_setBuf_same v j d)).trans (congrArg Option.isSome h.buffer).symm
      · refine congrArg Option.isSome ((State.buf?_setBuf_ne v d hj).trans ?_)
        rw [hv]
        rfl
    rw [State.freeBuffers, starts.length sorted, keys, hl]
    rfl
  have feed : (t.putRun slot r (left.take 4096)).feed = v.feed := feed.trans rfl
  refine ⟨t.putRun slot r (left.take 4096), ?_, by rw [feed, hv]⟩
  have pos : ((t.putRun slot r (left.take 4096)).intake slot r).writePos = (t.intake slot r).writePos + 4096 := by
    rw [State.intake_of_feed feed, hv, State.intake_setIntake_same]
  have refused : (t.putRun slot r (left.take 4096)).runReady slot r
      ((t.putRun slot r (left.take 4096)).intake slot r).writePos
      = ((t.putRun slot r (left.take 4096)).addClaim ⟨.run slot r, .buffer⟩, false) := by
    refine State.runReady_waits unfilled ((State.run?_of_feed feed slot r).trans ?_) used (by rw [pos]; exact hpos)
    rw [hv]
    exact hy
  rw [State.writeBytes, writeFuel, State.writeRun_page h.fillingOf hw (List.ne_nil_of_length_pos (by omega)),
    State.writeRun_refused (fun e => ?_) refused]
  have := List.drop_eq_nil_iff.1 e
  omega

/-- The page is filled and the run waits for the next one: the overrun waits again, its unit held. -/
theorem State.overrunGranted_fills {u : BrokenUnit} (h : t.given slot r i c) (hc : t.stc.claims = [])
    (hr : t.stc.relocations = []) (hl : t.stc.buffers.length = 160) (hy : t.run? slot r = some y)
    (hw : (t.intake slot r).writePos % 4096 = 0)
    (hpos : (t.intake slot r).writePos + 4096 < y.headOffset + y.blocks.length * 262144)
    (hb : (t.intake slot r).broken = some u)
    (hleft : brokenRest u ((t.intake slot r).writePos - u.start) = left) (hn : 4096 < left.length) :
    let q := t.overrunGranted slot r
    q.waits = ([⟨.run slot r, .buffer⟩], [])
      ∧ q.intake slot r = { t.intake slot r with
          overrun := .waiting, writePos := (t.intake slot r).writePos + 4096 } ∧ q.sent = t.sent := by
  intro q
  have record := State.completing_intake t slot r
  have given : (t.completing slot r).given slot r i c := ⟨h.sorted, h.buffer, h.fresh, h.only⟩
  obtain ⟨w, writes, feed⟩ := given.writeBytes_fills hr hl hy (by rw [record]; exact hw) (by rw [record]; exact hpos) hn
  have unwritten : ¬ (left.drop 4096).isEmpty = true := fun e => by
    have := List.drop_eq_nil_iff.1 (List.isEmpty_iff.1 e)
    omega
  have refused : (t.completing slot r).completeUnit slot r u = (w.addClaim ⟨.run slot r, .buffer⟩, false) := by
    have rest : brokenRest u (((t.completing slot r).intake slot r).writePos - u.start) = left := by
      rw [record]
      exact hleft
    simp only [State.completeUnit, rest, writes, if_neg unwritten]
  have eq : q = (w.addClaim ⟨.run slot r, .buffer⟩).setIntake slot r { w.intake slot r with overrun := .waiting } :=
    State.overrunGranted_broken hb refused
  have claims : w.stc.claims = [] := (State.claims_of_feed feed).trans hc
  have relocations : w.stc.relocations = [] := (State.relocations_of_feed feed).trans hr
  have waits : q.waits = (w.stc.claims ++ [⟨.run slot r, .buffer⟩], w.stc.relocations) := by rw [eq]; rfl
  refine ⟨by rw [waits, claims, relocations]; rfl, ?_, ?_⟩
  · rw [eq, State.intake_setIntake_same, State.intake_of_feed feed, State.intake_setIntake_same, record]
  · rw [eq]
    exact (State.sent_of_feed feed :)

end

end Sys2Proof.Machine
end

section
/-! PROOF. The ends of a PROGRAM and of an ERASE that give a waiting run its page buffer or its block (R62, R125, R128,
R129). -/

namespace Sys2Proof.Machine

/-! ## A PROGRAM that ends well (R125) -/

section
variable {s t : State}

/-- From `s` to `t` a page buffer has come free, and no other has become FILLING. -/
structure State.freesBuffer (s t : State) : Prop where
  feed : t.feed = s.feed
  sorted : t.stc.buffers.sorted
  length : t.stc.buffers.length + 1 = s.stc.buffers.length
  unfilled : ∀ o, s.fillingOf o = none → t.fillingOf o = none

theorem State.freeBuf_freesBuffer {i : Nat} {c : Buf} (hs : s.stc.buffers.sorted) (hc : s.buf? i = some c) :
    s.freesBuffer (s.freeBuf i) where
  feed := rfl
  sorted := Table.sorted_del _ _ hs
  length := Table.length_del hs hc
  unfilled o ho := by
    refine (State.fillingOf_none (Table.sorted_del _ _ hs) o).2 fun j d hd => ?_
    by_cases hj : j = i
    · subst hj
      rw [State.buf?, State.freeBuf, Table.at?_del_same] at hd
      cases hd
    · rw [State.buf?, State.freeBuf, Table.at?_del_ne _ hj] at hd
      exact (State.fillingOf_none hs o).1 ho j d hd

theorem State.freesBuffer.starts {u : State} (h : s.freesBuffer t) (hf : u.feed = t.feed) (hp : t.startsPrograms u) :
    s.freesBuffer u where
  feed := hf.trans h.feed
  sorted := hp.sorted h.sorted
  length := by rw [hp.length h.sorted]; exact h.length
  unfilled o ho := hp.fillingOf_none h.sorted (h.unfilled o ho)

/-- With no relocation a program goes into none. -/
theorem State.relocOf_none (h : s.stc.relocations = []) (p : ProgramReq) (c : Buf) : s.relocOf p c = none := by
  have none : ∀ o, s.activeReloc o = none := fun o => by rw [State.activeReloc, h]; rfl
  unfold State.relocOf
  split
  · exact none _
  · rw [none]
    rfl

theorem State.programDone_freesBuffer {p : ProgramReq} {c : Buf} (hs : s.stc.buffers.sorted)
    (hc : s.buf? p.buffer = some c) (hr : s.stc.relocations = []) : s.freesBuffer (s.programDone p c) := by
  have frees : s.freesBuffer ((s.programPage p.block p.page c.data).freeBuf p.buffer) := by
    obtain ⟨feed, sorted, length, unfilled⟩ :=
      State.freeBuf_freesBuffer (s := s.programPage p.block p.page c.data) hs hc
    exact ⟨feed, sorted, length, unfilled⟩
  unfold State.programDone
  dsimp only
  split
  · exact frees
  · rw [State.relocOf_none (s := s.programPage p.block p.page c.data) hr]
    dsimp only
    unfold State.protectTest
    split
    · exact frees.starts rfl (State.startsPrograms_of_buffers rfl)
    · exact frees

theorem State.endProgram_freesBuffer {b : Nat} {p : ProgramReq} {c : Buf} (hs : s.stc.buffers.sorted)
    (hc : s.buf? p.buffer = some c) (hr : s.stc.relocations = []) : s.freesBuffer (s.endProgram b p true) := by
  have got : (s.setBank b { s.bank b with op := none }).buf? p.buffer = some c := hc
  have ends : s.endProgram b p true
      = ((s.setBank b { s.bank b with op := none }).programDone p c).arbitrate b := by
    simp only [State.endProgram, got, if_true]
  obtain ⟨feed, sorted, length, unfilled⟩ := State.programDone_freesBuffer (p := p)
    (s := s.setBank b { s.bank b with op := none }) hs hc hr
  rw [ends]
  exact State.freesBuffer.starts ⟨feed, sorted, length, unfilled⟩ (State.arbitrate_feed ..)
    (State.arbitrate_startsPrograms ..)

end

/-! ## The page buffer goes to the run that waits (R129) -/

theorem State.withdrawClaim_feed {s t : State} (h : t.feed = s.feed) (who : Claimant) :
    (t.withdrawClaim who).feed = (s.withdrawClaim who).feed :=
  congrArg (fun x => (x.1, x.2.1, x.2.2.1, x.2.2.2.1, x.2.2.2.2.1.filter (fun c => c.who != who), x.2.2.2.2.2)) h

theorem State.setRun_feed {s t : State} (h : t.feed = s.feed) (slot : Nat) (r : Role) (y : Run) :
    (t.setRun slot r y).feed = (s.setRun slot r y).feed :=
  congrArg (fun x => (x.1, x.2.1, x.2.2.1, x.2.2.2.1.put (roleKey slot r) y, x.2.2.2.2)) h

section
variable {s : State} {b slot : Nat} {r : Role} {y : Run}

/-- The state in which the waiting run has its buffer, and its overrun is about to end. -/
theorem programEnd_gives {p : ProgramReq} {buf : Buf} (hop : (s.bank b).op = some (.program p))
    (hc : s.buf? p.buffer = some buf) (hw : s.stc.buffers.within 160) (hr : s.stc.relocations = [])
    (hclaims : s.stc.claims = [⟨.run slot r, .buffer⟩]) (hy : s.run? slot r = some y)
    (hf : s.fillingOf (.run slot r) = none) :
    ∃ (g : State) (i : Nat) (c : Buf), g.given slot r i c ∧ g.feed = (s.withdrawClaim (.run slot r)).feed
      ∧ g.stc.buffers.length = s.stc.buffers.length
      ∧ ((g.overrunGranted slot r).stc.relocations = [] →
        exec (.programEnd b true) s = .next (g.overrunGranted slot r)) := by
  obtain ⟨q, hq⟩ : ∃ q, q = s.endProgram b p true := ⟨_, rfl⟩
  have frees : s.freesBuffer q := hq ▸ State.endProgram_freesBuffer hw.1 hc hr
  have most : s.stc.buffers.length ≤ 160 := by
    have nodup : (s.stc.buffers.map (fun e => e.1)).Nodup := List.Pairwise.imp Nat.ne_of_lt hw.1
    have below : s.stc.buffers.map (fun e => e.1) ⊆ List.range 160 := fun k hk => by
      obtain ⟨e, he, rfl⟩ := List.mem_map.1 hk
      exact List.mem_range.2 (hw.2 e he)
    have count := (nodup.subperm below).length_le
    rwa [List.length_map, List.length_range] at count
  have length := frees.length
  obtain ⟨i, c, given, feed, one⟩ := State.grant_buffer frees.sorted ((State.run?_of_feed frees.feed slot r).trans hy)
    (frees.unfilled _ hf) (by omega)
  have claims := (State.claims_of_feed frees.feed).trans hclaims
  have room : q.grantable ⟨.run slot r, .buffer⟩ = true := by
    refine decide_eq_true ?_
    show 0 < 160 - q.stc.buffers.length
    omega
  refine ⟨_, i, c, given, feed.trans (State.withdrawClaim_feed frees.feed _), by omega, fun hn => ?_⟩
  have none : (q.grant ⟨.run slot r, .buffer⟩).stc.claims = [] :=
    (State.claims_of_feed feed).trans (State.withdrawClaim_run claims)
  have served := State.serveClaims_run claims room none hn
  show Host.Outcome.next (match (s.bank b).op with
    | some (.program p) => (s.endProgram b p true).serveClaims
    | _ => s) = _
  rw [hop, ← served, hq]

/-! ## An ERASE that ends well (R118, R128) -/

theorem State.endErase_frees {e : Erase} (hb : b < 4) :
    (s.endErase b e true).feed = s.feed ∧ (s.endErase b e true).freeBlocks = s.freeBlocks + 1 := by
  obtain ⟨q, hq⟩ : ∃ q, q = (((s.setBank b { s.bank b with erase := none }).eraseBytes e.block).setBlock e.block
      ⟨.free, []⟩).setBank b { s.bank b with erase := none, free := (s.bank b).free ++ [e.block] } := ⟨_, rfl⟩
  have eq : s.endErase b e true = (q.evalLevels.scrubCount e.scrub).arbitrate b := by
    simp only [State.endErase, if_true, State.bank_setBank_same, hq]
  have free : (s.endErase b e true).freeBlocks = q.freeBlocks := State.freeBlocks_of_free fun c => by
    rw [eq, State.arbitrate_free, State.scrubCount_bank, State.evalLevels_bank]
  refine ⟨?_, free.trans ?_⟩
  · rw [eq, State.arbitrate_feed, State.scrubCount_feed, State.evalLevels_feed, hq]
    rfl
  · have other : ∀ c, c ≠ b → q.bank c = s.bank c := fun c h => by
      rw [hq]
      exact (State.bank_setBank_ne _ _ h).trans (State.bank_setBank_ne s _ h)
    have own : (q.bank b).free.length = (s.bank b).free.length + 1 := by
      rw [hq, State.bank_setBank_same]
      exact List.length_append
    have lengths : ∀ c, (q.bank c).free.length = (s.bank c).free.length + if c = b then 1 else 0 := fun c => by
      by_cases hc : c = b
      · rw [hc, own, if_pos rfl]
      · rw [other c hc, if_neg hc, Nat.add_zero]
    simp only [State.freeBlocks, lengths]
    split_ifs <;> omega

/-- A run whose head block lies beyond its low mark keeps its blocks (R120). -/
theorem State.retireTest_keeps (hy : s.run? slot r = some y) (hl : y.lowMark < y.headOffset + 262144) :
    s.retireTest slot r = s := by
  simp only [State.retireTest, hy, State.retireHeads]
  split
  · rfl
  · exact if_neg (by show ¬ y.headOffset + 262144 ≤ y.lowMark; omega)

/-- A block is taken as the next of a run, and the tail before it becomes SEALED (R128). -/
def State.takeNext (s : State) (y : Run) (g : Nat) : State :=
  match y.blocks.getLast? with
  | none => s.takeBlock g
  | some p => (s.takeBlock g).setBlockState p .sealed

theorem State.takeNext_feed (s : State) (y : Run) (g : Nat) : (s.takeNext y g).feed = s.feed := by
  unfold State.takeNext
  split <;> exact State.takeBlock_feed ..

theorem State.appendRunBlock_eq (s : State) (slot : Nat) (r : Role) (y : Run) (g : Nat) : s.appendRunBlock slot r y g
    = ((s.takeNext y g).setRun slot r { y with blocks := y.blocks ++ [g], lastBank := some (bankOf g) }).retireTest
        slot r := rfl

/-- A block joins the run, and nothing else that the intake works from changes. -/
theorem State.appendRunBlock_appends {g : Nat} (hl : y.lowMark < y.headOffset + 262144) :
    (s.appendRunBlock slot r y g).feed
      = (s.setRun slot r { y with blocks := y.blocks ++ [g], lastBank := some (bankOf g) }).feed := by
  have keeps := State.retireTest_keeps (State.run?_setRun_same (s.takeNext y g) slot r
    { y with blocks := y.blocks ++ [g], lastBank := some (bankOf g) }) hl
  rw [State.appendRunBlock_eq, keeps]
  exact State.setRun_feed (State.takeNext_feed ..) ..

/-- The block that a run waited for is asked for anew. `kind` is a variable, for the kernel would compute the bound of
`runBlock` in a match on `.block`. -/
theorem State.giveRun_block {kind : ClaimKind} (hk : kind = .block) (hy : s.run? slot r = some y) {q : State}
    {got : Bool} (h : s.runBlock slot r y (s.intake slot r).writePos = (q, got)) : s.giveRun slot r kind = q := by
  unfold State.giveRun
  split
  next hn =>
    rw [hn] at hy
    cases hy
  next x hx =>
    obtain rfl := Option.some.inj (hx.symm.trans hy)
    dsimp only
    rw [h, hk]

/-- A run that has used up its blocks, and whose claim for the next one is granted. -/
theorem State.grant_block (hy : s.run? slot r = some y) (hf : 32 < s.freeBlocks)
    (hw : (s.intake slot r).writePos = y.headOffset + y.blocks.length * 262144)
    (hl : y.lowMark < y.headOffset + 262144) :
    ∃ g, (s.grant ⟨.run slot r, .block⟩).feed = ((s.withdrawClaim (.run slot r)).setRun slot r
      { y with blocks := y.blocks ++ [g], lastBank := some (bankOf g) }).feed := by
  obtain ⟨u, hu⟩ : ∃ u, u = s.withdrawClaim (.run slot r) := ⟨_, rfl⟩
  have run : u.run? slot r = some y := by rw [hu]; exact hy
  have free : Config.intakeReserve < u.freeBlocks := by rw [hu]; exact hf
  have used : ¬ (u.intake slot r).writePos < y.headOffset + y.blocks.length * Config.blockBytes := by
    rw [Config.blockBytes, hu]
    show ¬ (s.intake slot r).writePos < _
    omega
  obtain ⟨g, hg⟩ := State.freeHead_some (s := u) (Nat.zero_lt_of_lt free) (runStart slot r y)
  have asks : s.grant ⟨.run slot r, .block⟩ = u.giveRun slot r .block := by rw [hu]; rfl
  have gets : u.runBlock slot r y (u.intake slot r).writePos = (u.appendRunBlock slot r y g, true) := by
    rw [State.runBlock, if_neg used, if_pos free, hg]
  have gives : s.grant ⟨.run slot r, .block⟩ = u.appendRunBlock slot r y g :=
    asks.trans (State.giveRun_block rfl run gets)
  exact ⟨g, by rw [gives, ← hu]; exact State.appendRunBlock_appends hl⟩

theorem eraseEnd_gives {e : Erase} (hb : b < 4) (he : (s.bank b).erase = some e) (hst : e.state ≠ .suspended)
    (hfree : 32 ≤ s.freeBlocks) (hr : s.stc.relocations = []) (hclaims : s.stc.claims = [⟨.run slot r, .block⟩])
    (hy : s.run? slot r = some y) (hbroken : (s.intake slot r).broken = none)
    (hw : (s.intake slot r).writePos = y.headOffset + y.blocks.length * 262144)
    (hl : y.lowMark < y.headOffset + 262144) :
    ∃ t g, exec (.eraseEnd b true) s = .next t ∧ t.stc.claims = []
      ∧ t.run? slot r = some { y with blocks := y.blocks ++ [g], lastBank := some (bankOf g) }
      ∧ t.intake slot r = { (s.intake slot r).hunt with overrun := .clear } ∧ t.sent = s.sent := by
  obtain ⟨feed, blocks⟩ := State.endErase_frees (s := s) (e := e) hb
  obtain ⟨q, hq⟩ : ∃ q, q = s.endErase b e true := ⟨_, rfl⟩
  rw [← hq] at feed blocks
  have claims := (State.claims_of_feed feed).trans hclaims
  have record := State.intake_of_feed feed slot r
  obtain ⟨g, granted⟩ := State.grant_block ((State.run?_of_feed feed slot r).trans hy) (by omega)
    (by rw [record]; exact hw) hl
  obtain ⟨t, ht⟩ : ∃ t, t = q.grant ⟨.run slot r, .block⟩ := ⟨_, rfl⟩
  rw [← ht] at granted
  have same : t.intake slot r = s.intake slot r := (State.intake_of_feed granted slot r).trans record
  have ends := State.overrunGranted_unbroken (s := t) (slot := slot) (r := r) (by rw [same]; exact hbroken)
  have noClaims : t.stc.claims = [] := (State.claims_of_feed granted).trans (State.withdrawClaim_run claims)
  have noReloc : t.stc.relocations = [] :=
    (State.relocations_of_feed granted).trans ((State.relocations_of_feed feed).trans hr)
  have served := State.serveClaims_run claims (by refine decide_eq_true ?_; show 32 < q.freeBlocks; omega)
    (by rw [← ht]; exact noClaims) (by rw [← ht, ends]; exact noReloc)
  rw [← ht, ends, same] at served
  refine ⟨t.setIntake slot r { (s.intake slot r).hunt with overrun := .clear }, g, ?_, noClaims, ?_,
    State.intake_setIntake_same .., ?_⟩
  · show Host.Outcome.next (match (s.bank b).erase with
      | some e => if e.state = EraseState.suspended ∧ true = true then s else (s.endErase b e true).serveClaims
      | none => s) = _
    rw [he]
    dsimp only
    rw [if_neg fun h => hst h.1, ← hq, served]
  · exact (State.run?_of_feed granted slot r).trans (State.run?_setRun_same ..)
  · exact (State.sent_of_feed granted).trans (State.sent_of_feed feed :)

end

end Sys2Proof.Machine
end

section
/-! PROOF. Payload cells, and how an overrun ends (O27). -/

namespace Sys2Proof.Machine

/-! ## Cells that are discarded, and body bytes (R50, R54) -/

theorem exec_payloadCell_discarded {s : State} {entry : ForwardEntry} {bytes : List Byte}
    (h : ∀ slot r, entry = .role slot r → takesCells (s.lecture? slot) r = false) (hs : s.atRest) :
    exec (.payloadCell entry bytes) s = .next (s.received (.payloadCell entry bytes)) := by
  have stays : (s.received (.payloadCell entry bytes)).takeCell entry bytes
      = s.received (.payloadCell entry bytes) := by
    cases entry with
    | free => rfl
    | role slot r =>
      have takes : takesCells ((s.received (.payloadCell (.role slot r) bytes)).lecture? slot) r = false := h slot r rfl
      rw [State.takeCell, takes]
      rfl
  show Host.Outcome.next (State.takeCell _ _ _).serveClaims = _
  have rest : (s.received (.payloadCell entry bytes)).atRest := State.atRest_of_waits rfl hs
  rw [stays, State.serveClaims_nil rest]

/-- From `s` to `t` body bytes of a unit being appended have joined buffer `i`. -/
structure State.takesBody (s t : State) (slot : Nat) (r : Role) (i : Nat) (c : Buf) (bytes : List Byte) : Prop where
  intake : t.intake slot r = { s.intake slot r with
    received := (s.intake slot r).received + bytes.length, writePos := (s.intake slot r).writePos + bytes.length }
  intakes : ∀ sl q, roleKey sl q ≠ roleKey slot r → t.intake sl q = s.intake sl q
  buffer : t.buf? i = some { c with data := c.data ++ bytes }
  buffers : ∀ j, j ≠ i → t.buf? j = s.buf? j
  waits : t.waits = s.waits

theorem State.takeBytes_takesBody {slot : Nat} {r : Role} {i : Nat} (bytes : List Byte) {s : State} {c : Buf}
    (hc : (s.intake slot r).overrun = .clear) (hp : (s.intake slot r).parse = .body)
    (hd : (s.intake slot r).disposition = .append)
    (hl : (s.intake slot r).received + bytes.length < (s.intake slot r).declared)
    (room : s.hasRoom slot r i c bytes.length) :
    s.takesBody (bytes.foldl (State.takeByte slot r) s) slot r i c bytes := by
  induction bytes generalizing s c with
  | nil => exact ⟨rfl, fun _ _ _ => rfl, by rw [List.append_nil]; exact room.buffer, fun _ _ => rfl, rfl⟩
  | cons b l ih =>
    rw [List.length_cons] at hl room
    obtain ⟨u, hu⟩ : ∃ u, u = (s.joined slot r i c [b]).setIntake slot r
        { (s.joined slot r i c [b]).intake slot r with received := (s.intake slot r).received + 1 } := ⟨_, rfl⟩
    have record : u.intake slot r = { s.intake slot r with
        received := (s.intake slot r).received + 1, writePos := (s.intake slot r).writePos + 1 } := by
      rw [hu, State.intake_setIntake_same, State.joined_intake]
      rfl
    have takes : State.takeByte slot r s b = u := by
      rw [State.takeByte_body b hc hp, State.bodyByte_joins b hd (room.mono (by omega)), hu]
      exact congrFun (if_pos (by omega)) _
    have fits : u.hasRoom slot r i { c with data := c.data ++ [b] } l.length := by
      have after : s.hasRoom slot r i c ([b].length + l.length) := room.mono (by rw [List.length_singleton]; omega)
      rw [hu]
      exact after.joined.setIntake rfl
    obtain ⟨intake, intakes, buffer, buffers, waits⟩ := ih (s := u) (by rw [record]; exact hc)
      (by rw [record]; exact hp) (by rw [record]; exact hd)
      (by rw [record]; show _ + 1 + l.length < (s.intake slot r).declared; omega) fits
    rw [List.foldl_cons, takes]
    refine ⟨intake.trans ?_, fun sl q hq => (intakes sl q hq).trans ?_, buffer.trans ?_, fun j hj =>
      (buffers j hj).trans ?_, waits.trans (by rw [hu]; rfl)⟩
    · rw [record, List.length_cons, Nat.add_comm l.length 1]
      simp only [Nat.add_assoc]
    · rw [hu]
      exact (Table.atD_put_ne _ _ _ hq).trans (Table.atD_put_ne _ _ _ hq)
    · rw [List.append_assoc]
      rfl
    · rw [hu]
      exact State.buf?_setBuf_ne (s.setIntake slot r _) _ hj

theorem exec_payloadCell_takesBody {s : State} {slot : Nat} {r : Role} {bytes : List Byte} {i : Nat} {c : Buf}
    (ht : takesCells (s.lecture? slot) r = true) (hc : (s.intake slot r).overrun = .clear)
    (hp : (s.intake slot r).parse = .body) (hd : (s.intake slot r).disposition = .append)
    (hl : (s.intake slot r).received + bytes.length < (s.intake slot r).declared)
    (room : s.hasRoom slot r i c bytes.length) (hs : s.atRest) :
    ∃ t, exec (.payloadCell (.role slot r) bytes) s = .next t ∧ s.takesBody t slot r i c bytes
      ∧ t.sgc = s.sgc ∧ t.jdp = s.jdp ∧ t.lanes = s.lanes ∧ t.still = s.still := by
  obtain ⟨u, hu⟩ : ∃ u, u = s.received (.payloadCell (.role slot r) bytes) := ⟨_, rfl⟩
  have took : takesCells (u.lecture? slot) r = true := by rw [hu]; exact ht
  have body : s.takesBody (bytes.foldl (State.takeByte slot r) u) slot r i c bytes := by
    have same : u.intake slot r = s.intake slot r := by rw [hu]; rfl
    obtain ⟨intake, intakes, buffer, buffers, waits⟩ := State.takeBytes_takesBody (s := u) (c := c) bytes
      (by rw [same]; exact hc) (by rw [same]; exact hp) (by rw [same]; exact hd) (by rw [same]; exact hl)
      (room.of_record (by rw [hu]; rfl) (by rw [same]))
    rw [same] at intake
    rw [hu] at intakes buffers waits
    subst hu
    exact ⟨intake, intakes, buffer, buffers, waits⟩
  have cell : bytes.foldl (State.takeByte slot r) u = u.takeCell (.role slot r) bytes := by
    rw [State.takeCell, if_pos took]
  have above : (u.takeCell (.role slot r) bytes).above = s.above := (State.takeCell_above ..).trans (by rw [hu]; rfl)
  have still : (u.takeCell (.role slot r) bytes).still = s.still :=
    (State.takeCell_still ..).trans (by rw [hu]; exact received_still s _ rfl)
  have rest := State.serveClaims_nil (State.atRest_of_waits body.waits hs)
  rw [cell] at body rest
  refine ⟨u.takeCell (.role slot r) bytes, ?_, body, State.sgc_of_above above, State.jdp_of_above above,
    State.lanes_of_above above, still⟩
  show Host.Outcome.next (State.takeCell _ _ _).serveClaims = _
  rw [← hu, rest]

/-! ## The end of an overrun that waits for a page buffer (R62) -/

section
variable {s : State} {b slot : Nat} {r : Role} {p : ProgramReq} {buf : Buf} {y : Run}

/-- No broken unit is held. -/
theorem programEnd_unbroken (hop : (s.bank b).op = some (.program p))
    (hc : s.buf? p.buffer = some buf) (hw : s.stc.buffers.within 160) (hr : s.stc.relocations = [])
    (hclaims : s.stc.claims = [⟨.run slot r, .buffer⟩]) (hy : s.run? slot r = some y)
    (hf : s.fillingOf (.run slot r) = none) (hb : (s.intake slot r).broken = none) :
    ∃ t, exec (.programEnd b true) s = .next t ∧ t.stc.claims = []
      ∧ t.intake slot r = { (s.intake slot r).hunt with overrun := .clear } ∧ t.sent = s.sent := by
  obtain ⟨g, i, c, -, feed, -, runs⟩ := programEnd_gives hop hc hw hr hclaims hy hf
  have record : g.intake slot r = s.intake slot r := State.intake_of_feed feed slot r
  have ends := State.overrunGranted_unbroken (s := g) (slot := slot) (r := r) (by rw [record]; exact hb)
  rw [ends, record] at runs
  exact ⟨_, runs ((State.relocations_of_feed feed).trans hr),
    (State.claims_of_feed feed).trans (State.withdrawClaim_run hclaims), State.intake_setIntake_same ..,
    (State.sent_of_feed feed :)⟩

variable {u : BrokenUnit} {left : List Byte}

/-- What is left of the broken unit ends within the page. -/
theorem programEnd_completes (hop : (s.bank b).op = some (.program p))
    (hc : s.buf? p.buffer = some buf) (hw : s.stc.buffers.within 160) (hr : s.stc.relocations = [])
    (hclaims : s.stc.claims = [⟨.run slot r, .buffer⟩]) (hy : s.run? slot r = some y)
    (hf : s.fillingOf (.run slot r) = none) (hl : ∀ l, s.lecture? slot = some l → l.state ≠ .closed)
    (hb : (s.intake slot r).broken = some u) (hpage : (s.intake slot r).writePos % 4096 = 0)
    (hleft : brokenRest u ((s.intake slot r).writePos - u.start) = left) (hpos : 0 < left.length)
    (hfit : left.length < 4096) :
    let x := s.intake slot r
    let stop := x.writePos + left.length
    ∃ t i c, exec (.programEnd b true) s = .next t ∧ t.stc.claims = [] ∧ t.intake slot r = { x.hunt with
        overrun := .clear, broken := none, writePos := stop, lastStamp := some u.stamp }
      ∧ t.sent = s.sent ++ [.unitNotice ⟨slot, r, u.stamp, u.key, some ⟨u.good, u.start, stop⟩⟩]
      ∧ t.buf? i = some c ∧ c.owner = .own (.run slot r) ∧ c.state = .filling ∧ c.data = left
      ∧ c.committed = left.length := by
  intro x stop
  obtain ⟨g, i, c, given, feed, -, runs⟩ := programEnd_gives hop hc hw hr hclaims hy hf
  have record : g.intake slot r = x := State.intake_of_feed feed slot r
  obtain ⟨intake, sent, buffer, waits⟩ := State.overrunGranted_completes (t := g) (slot := slot) (r := r) (i := i)
    (c := c) (by rw [record]; exact hb) (fun l hlec => hl l ((State.lecture?_of_feed feed slot).symm.trans hlec))
    (by rw [record]; exact hleft) (List.ne_nil_of_length_pos hpos) (given.hasRoom (by rw [record]; exact hpage) hfit)
  rw [record] at intake sent
  obtain ⟨block, page, rfl⟩ := given.fresh
  have noReloc := (State.relocations_of_feed feed).trans hr
  have noClaims := (State.claims_of_feed feed).trans (State.withdrawClaim_run hclaims)
  refine ⟨_, i, _, runs ((congrArg Prod.snd waits).trans noReloc), (congrArg Prod.fst waits).trans noClaims, intake,
    sent.trans (by rw [State.sent_of_feed feed]; rfl), buffer, rfl, rfl, rfl, Nat.zero_add _⟩

/-- The page does not hold what is left, and no other page buffer is free. -/
theorem programEnd_fills (hop : (s.bank b).op = some (.program p))
    (hc : s.buf? p.buffer = some buf) (hw : s.stc.buffers.within 160) (hr : s.stc.relocations = [])
    (hclaims : s.stc.claims = [⟨.run slot r, .buffer⟩]) (hy : s.run? slot r = some y)
    (hf : s.fillingOf (.run slot r) = none) (hb : (s.intake slot r).broken = some u)
    (hpage : (s.intake slot r).writePos % 4096 = 0)
    (hleft : brokenRest u ((s.intake slot r).writePos - u.start) = left) (hmore : 4096 < left.length)
    (hall : s.stc.buffers.length = 160)
    (hpos : (s.intake slot r).writePos + 4096 < y.headOffset + y.blocks.length * 262144) :
    ∃ t, exec (.programEnd b true) s = .next t ∧ t.stc.claims = [⟨.run slot r, .buffer⟩]
      ∧ t.intake slot r = { s.intake slot r with
          overrun := .waiting, writePos := (s.intake slot r).writePos + 4096 } ∧ t.sent = s.sent := by
  obtain ⟨g, i, c, given, feed, length, runs⟩ := programEnd_gives hop hc hw hr hclaims hy hf
  have record : g.intake slot r = s.intake slot r := State.intake_of_feed feed slot r
  obtain ⟨waits, intake, sent⟩ := State.overrunGranted_fills given
    ((State.claims_of_feed feed).trans (State.withdrawClaim_run hclaims)) ((State.relocations_of_feed feed).trans hr)
    (length.trans hall) ((State.run?_of_feed feed slot r).trans hy) (by rw [record]; exact hpage)
    (by rw [record]; exact hpos) (by rw [record]; exact hb) (by rw [record]; exact hleft) hmore
  rw [record] at intake
  exact ⟨_, runs (congrArg Prod.snd waits), congrArg Prod.fst waits, intake, sent.trans (State.sent_of_feed feed :)⟩

end

/-! ## The statement -/

/-- Settles O27, clause by clause: cells that are discarded, body bytes, and the overruns that a PROGRAM and an ERASE
end. -/
theorem payloadCell : Obligations.PayloadCell := by
  refine ⟨fun s entry bytes h hs => exec_payloadCell_discarded h hs,
    fun s slot r bytes i c ht hc hp hd hl hfill hbuf hown hst hroom hreach hs => ?_,
    fun s b p buf slot r y hop hbuf hw hr hclaims hy hf hl =>
      ⟨programEnd_unbroken hop hbuf hw hr hclaims hy hf, fun u hb hu hstart => ?_⟩,
    fun s b e slot r y hb he hst hfree hr hclaims hy hbroken hw hl =>
      eraseEnd_gives hb he hst hfree hr hclaims hy hbroken hw hl⟩
  · obtain ⟨t, ht, body, rest⟩ :=
      exec_payloadCell_takesBody ht hc hp hd hl ⟨hfill, hbuf, ⟨hown, hst⟩, hroom, hreach⟩ hs
    exact ⟨t, ht, body.intake, body.buffer, body.buffers, body.intakes, rest⟩
  · intro stop left hpage
    have hleft : brokenRest u ((s.intake slot r).writePos - u.start) = left := brokenRest_eq_drop hu _
    refine ⟨fun hpos hfit => ?_, fun hmore hall hnext =>
      programEnd_fills hop hbuf hw hr hclaims hy hf hb hpage hleft hmore hall hnext⟩
    have ends : (s.intake slot r).writePos + left.length = stop := by
      have length : left.length = 16 + u.declared + 8 - ((s.intake slot r).writePos - u.start) := by
        rw [List.length_drop, List.length_append, List.length_append, List.length_replicate, suffixBytes_length, hu]
      show _ = u.start + 24 + u.declared
      omega
    rw [← ends]
    exact programEnd_completes hop hbuf hw hr hclaims hy hf hl hb hpage hleft hpos hfit

end Sys2Proof.Machine
end

section
/-! PROOF. PROFILE_SET: what each of its operations makes of the profile table, and its refusals (O29). -/

namespace Sys2Proof.Machine

/-! ## The record of a WRITE (R66, R67) -/

/-- A WRITE whose fields pass check 4 of R67 gives the body's values. -/
theorem profileRecord_of_fits {kind roles bound : Byte} {limit : Word16} {k : ProfileKind}
    (hk : profileKindOf kind = some k) (hr : rolesFit k (rolesOfByte roles) = true)
    (hb : 1 ≤ bound.toNat ∧ bound.toNat ≤ 64) (hl : 20 ≤ limit.toNat ∧ limit.toNat ≤ 2000) (label : Word16) :
    profileRecord kind roles bound limit label
      = some ⟨k, rolesOfByte roles, bound.toNat, limit.toNat, label⟩ := by
  rw [profileRecord, hk]
  exact if_pos ⟨hr, hb.1, hb.2, hl.1, hl.2⟩

/-! ## What the owner makes of each operation (R67, R68) -/

section
variable {s : State} {n kind roles bound : Byte} {limit label : Word16}

theorem actProfileSet_writes (hn : n.toNat < 16) (free : s.profileUsers n.toNat = 0) {p : Profile}
    (hp : profileRecord kind roles bound limit label = some p) :
    actProfileSet n 1 kind roles bound limit label s
      = ({ s with sgc := { s.sgc with profiles := s.sgc.profiles.put n.toNat p } }, .done, []) := by
  rw [actProfileSet, in_range hn, if_neg (fun h => h rfl), if_neg (Nat.not_lt.2 (Nat.le_of_eq free)), hp]

theorem actProfileSet_inUse (hn : n.toNat < 16) (used : 0 < s.profileUsers n.toNat) :
    actProfileSet n 1 kind roles bound limit label s = s.refuse .inUse := by
  rw [actProfileSet, in_range hn, if_neg (fun h => h rfl), if_pos used]

/-- The operation is checked before the users, so the refusal is RANGE for a profile in use too. -/
theorem actProfileSet_unknown (hn : n.toNat < 16) {operation : Byte} (ho : operation ≠ 1) :
    actProfileSet n operation kind roles bound limit label s = s.refuse .range := by
  rw [actProfileSet, in_range hn, if_pos ho]

theorem actProfileClear_clears (hn : n.toNat < 16) (free : s.profileUsers n.toNat = 0) :
    actProfileClear n s
      = ({ s with sgc := { s.sgc with profiles := s.sgc.profiles.del n.toNat } }, .done, []) := by
  rw [actProfileClear, in_range hn, if_neg (Nat.not_lt.2 (Nat.le_of_eq free))]

theorem actProfileClear_inUse (hn : n.toNat < 16) (used : 0 < s.profileUsers n.toNat) :
    actProfileClear n s = s.refuse .inUse := by
  rw [actProfileClear, in_range hn, if_pos used]

/-! ## The directive -/

theorem exec_profileSetWrite {tag : Word16} {operation : Byte} (ho : operation ≠ 0)
    (h : s.accepts (.profileSetWrite tag n operation kind roles bound limit label)) {a : Answered}
    (ha : actProfileSet n operation kind roles bound limit label (s.taken 0x20 tag) = a) :
    exec (.profileSetWrite tag n operation kind roles bound limit label) s = .next (State.answer 0x20 tag a) := by
  show execProfileSetWrite .. = _
  rw [execProfileSetWrite, if_neg ho, State.directive_acts h 0x20 tag _ ha]

theorem exec_profileSetClear {tag : Word16} (h : s.accepts (.profileSetClear tag n)) {a : Answered}
    (ha : actProfileClear n (s.taken 0x20 tag) = a) :
    exec (.profileSetClear tag n) s = .next (State.answer 0x20 tag a) := by
  show execProfileSetClear .. = _
  rw [execProfileSetClear, State.directive_acts h 0x20 tag _ ha]

end

/-! ## The statement -/

/-- Settles O29: the two operations on a profile that no lecture names, and the refusals of one in use and of an
operation that is neither. -/
theorem profileSet : Obligations.ProfileSet := by
  intro s tag n kind roles bound limit label hn
  refine ⟨fun k free hk hr hb1 hb64 hl20 hl2000 h => ?_, fun free h => ?_,
    fun used => ⟨fun h => ?_, fun h => ?_⟩, fun operation h0 h1 h => ?_⟩
  · have record := profileRecord_of_fits hk hr ⟨hb1, hb64⟩ ⟨hl20, hl2000⟩ label
    exact exec_profileSetWrite (by decide) h (actProfileSet_writes (s := s.taken 0x20 tag) hn free record)
  · exact exec_profileSetClear h (actProfileClear_clears (s := s.taken 0x20 tag) hn free)
  · exact exec_profileSetWrite (by decide) h (actProfileSet_inUse (s := s.taken 0x20 tag) hn used)
  · exact exec_profileSetClear h (actProfileClear_inUse (s := s.taken 0x20 tag) hn used)
  · exact exec_profileSetWrite h0 h (actProfileSet_unknown hn h1)

end Sys2Proof.Machine
end

section
/-! PROOF. DISPATCH_SET: the settings it makes, the yields that turning preemption off withdraws, and its refusals
(O40). -/

namespace Sys2Proof.Machine

/-! ## What a dispatch pass leaves of the yields (R77, R78) -/

/-- Handing a job to a lane sets and withdraws no yield. -/
theorem State.handOver_yields (s : State) (n k : Nat) (j : Job) :
    (s.handOver n k j).1.jdp.yields = s.jdp.yields := by
  have begins : ∀ (q : State) (i : Job), (q.beginJob n i).jdp = q.jdp := fun q i => by
    unfold State.beginJob
    dsimp only
    split <;> rfl
  unfold State.handOver
  dsimp only
  split
  · rw [begins]
    rfl
  · rw [State.laneEvent_jdp, begins]
    rfl

theorem State.finishJob_yields (s : State) (k : Nat) (j : Job) (e : Nat) :
    (s.finishJob k j e).jdp.yields = s.jdp.yields := by
  rw [State.finishJob_jdp]

/-- One offer of the pass sets and withdraws no yield, whatever comes of it. -/
theorem State.offerJob_yields (s : State) (n k : Nat) : (s.offerJob n k).1.jdp.yields = s.jdp.yields := by
  unfold State.offerJob
  split
  · rfl
  next j _ =>
    split
    next e _ =>
      split
      · exact s.finishJob_yields k j e
      · exact s.handOver_yields n k j
    next =>
      split
      · rfl
      split
      · rfl
      next e _ =>
        dsimp only
        split
        · exact State.finishJob_yields ..
        · exact State.handOver_yields ..

theorem State.dispatchLoop_yields (fuel : Nat) (s : State) :
    (State.dispatchLoop fuel s).jdp.yields = s.jdp.yields := by
  induction fuel generalizing s with
  | zero => rfl
  | succ fuel ih =>
    unfold State.dispatchLoop
    split
    · rfl
    next n _ =>
      split
      · rfl
      next k _ =>
        dsimp only
        split
        · exact s.offerJob_yields n k
        · exact (ih _).trans (s.offerJob_yields n k)

/-! ## The yields with preemption OFF (R81, R83) -/

/-- With preemption OFF a yield is withdrawn in each round, so as many rounds as there are yields withdraw all. -/
theorem State.withdrawYields_off {fuel : Nat} {s : State} (off : s.jdp.preemption = false)
    (h : s.jdp.yields.length ≤ fuel) : (State.withdrawYields fuel s).jdp.yields = [] := by
  induction fuel generalizing s with
  | zero => exact List.eq_nil_of_length_eq_zero (Nat.le_zero.1 h)
  | succ fuel ih =>
    unfold State.withdrawYields
    dsimp only
    split
    next empty => exact List.isEmpty_iff.1 empty
    next =>
      rw [if_pos (by rw [off]; rfl)]
      exact ih off (by rw [List.length_dropLast]; omega)

/-- With preemption OFF no yield is set. -/
theorem State.setYields_off {s : State} (off : s.jdp.preemption = false) (fuel : Nat) :
    State.setYields fuel s = s := by
  cases fuel with
  | zero => rfl
  | succ fuel =>
    unfold State.setYields
    exact if_neg (by rw [off]; exact Bool.false_ne_true)

theorem State.settle_off {s : State} (off : s.jdp.preemption = false) (h : s.jdp.yields.length ≤ 13) :
    s.settle.jdp.yields = [] := by
  unfold State.settle
  dsimp only
  have passed := (State.preemption_of_still (State.dispatchLoop_still
    (s.jdp.live.length + s.jdp.backlog.length + 1) s)).trans off
  rw [State.setYields_off ((State.preemption_of_still (State.withdrawYields_still ..)).trans passed)]
  exact State.withdrawYields_off passed (by rwa [State.dispatchLoop_yields])

/-- With preemption OFF a step that moves jobs or lanes ends without yields. -/
theorem State.finish_off {s : State} (off : s.jdp.preemption = false) (h : s.jdp.yields.length ≤ 13) :
    s.finish.jdp.yields = [] := by
  unfold State.finish
  rw [State.serveClaims_jdp]
  exact State.settle_off (by rwa [State.evalLaneFailed_jdp]) (by rwa [State.evalLaneFailed_jdp])

/-! ## What the owner makes of the fields (R88) -/

/-- The floor and the preemption setting take the values of a body (R88 step 1). -/
def State.withDispatch (s : State) (floor : Nat) (on : Bool) : State :=
  { s with jdp := { s.jdp with floor := floor, preemption := on } }

section
variable {s : State} {floor preemption : Byte}

theorem actDispatchSet_sets (hf : floor.toNat ≤ 12) {on : Bool} (hp : onOff preemption = some on) :
    actDispatchSet floor preemption s = ((s.withDispatch floor.toNat on).finish, .done, []) := by
  rw [actDispatchSet, if_neg (Nat.not_lt.2 hf)]
  unfold onOff at hp
  split at hp
  next zero =>
    obtain rfl : false = on := Option.some.inj hp
    exact if_pos zero
  next zero =>
    split at hp
    next one =>
      obtain rfl : true = on := Option.some.inj hp
      exact (if_neg zero).trans (if_pos one)
    next => cases hp

theorem actDispatchSet_range (h : 12 < floor.toNat ∨ onOff preemption = none) :
    actDispatchSet floor preemption s = s.refuse .range := by
  unfold actDispatchSet
  split
  · rfl
  next fits =>
    have neither := h.resolve_left fits
    unfold onOff at neither
    split at neither
    · cases neither
    next zero =>
      split at neither
      · cases neither
      next one => exact (if_neg zero).trans (if_neg one)

/-! ## The directive -/

theorem exec_dispatchSet {tag : Word16} (h : s.accepts (.dispatchSet tag floor preemption)) {a : Answered}
    (ha : actDispatchSet floor preemption (s.taken 0x40 tag) = a) :
    exec (.dispatchSet tag floor preemption) s = .next (State.answer 0x40 tag a) :=
  congrArg Host.Outcome.next (State.directive_acts h 0x40 tag _ ha)

end

/-- An answer adds its reply and frees its place, and leaves the other registers of `State.still`. -/
theorem State.answer_still_eq (code : Nat) (tag : Word16) (t : State) (result : ReplyCode) (fields : List Byte) :
    (State.answer code tag (t, result, fields)).still = { t.still with
      reserved := t.still.reserved.erase ⟨code, tag⟩, replies := t.still.replies ++ [⟨code, tag, result, fields⟩] } :=
  rfl

/-- The settings, the reply and the arm are all that DISPATCH_SET changes of `State.still`: the dispatch pass that
follows touches none of these registers. -/
theorem State.answer_withDispatch_still (s : State) (tag : Word16) (floor : Nat) (on : Bool) :
    (State.answer 0x40 tag (((s.taken 0x40 tag).withDispatch floor on).finish, .done, [])).still
      = { (s.answered 0x40 tag .done []).still with floor := floor, preemption := on } := by
  rw [State.answer_still_eq, State.finish_still]
  rfl

/-! ## The statement -/

/-- Settles O40: the settings with the yields that OFF leaves, and the refusals. -/
theorem dispatchSet : Obligations.DispatchSet := by
  intro s tag floor preemption h
  refine ⟨fun on hf hp => ⟨_, exec_dispatchSet h (actDispatchSet_sets hf hp),
    s.answer_withDispatch_still tag floor.toNat on, fun off few => ?_⟩,
    fun bad => exec_dispatchSet h (actDispatchSet_range bad)⟩
  rw [State.answer_jdp]
  exact State.finish_off off (Nat.le_succ_of_le few)

end Sys2Proof.Machine
end

section
/-! PROOF. How a lane gives its job back (R84, R102), and LANE_REMOVE in each state of the lane (O42). -/

namespace Sys2Proof.Machine

/-! ## The end of a step on a lane left without a job (R107) -/

section
variable {s : State} {n : Nat} {st : LaneState}

theorem State.laneWithout_finish_state (h : st ≠ .idle) : ((s.laneWithout n st).finish.lane n).state = st := by
  rw [State.finish_state (by rwa [State.laneWithout_state]), State.laneWithout_state]

theorem State.laneWithout_finish_job (h : st ≠ .idle) : ((s.laneWithout n st).finish.lane n).job = none := by
  rw [State.finish_job (by rwa [State.laneWithout_state]), State.laneWithout_job]

theorem State.laneWithout_finish_fault (h : st ≠ .idle) :
    ((s.laneWithout n st).finish.lane n).fault = (s.lane n).fault := by
  rw [State.finish_fault (by rwa [State.laneWithout_state]), State.laneWithout_fault]

theorem State.laneWithout_finish_still : (s.laneWithout n st).finish.still = s.still := by
  rw [State.finish_still, State.laneWithout_still]

end

/-! ## A job that returns to the head of its list (R84) -/

section
variable {s : State} {n k : Nat} {j : Job}

/-- With no lane IDLE the end of a step leaves every job record. -/
theorem State.finish_job?_of_noIdle (h : s.anyIdle = false) (i : Nat) : s.finish.job? i = s.job? i := by
  obtain ⟨y, hy⟩ := State.finish_jdp_of_noIdle h
  simp only [State.job?, hy]

/-- With no lane IDLE the end of a step leaves both job lists. -/
theorem State.finish_list_of_noIdle (h : s.anyIdle = false) (c : LectureClass) :
    s.finish.jdp.list c = s.jdp.list c := by
  obtain ⟨y, hy⟩ := State.finish_jdp_of_noIdle h
  rw [hy]
  cases c <;> rfl

/-- A job that no abort is discarding stands at the head of its list, on no lane and with no dispatch order. -/
theorem State.returnJob_returns (h : s.sent.any (isDiscardOf k) = false) :
    (s.returnJob k j).job? k = some { j with lane := none, order := none }
      ∧ (s.returnJob k j).jdp.list j.cls = k :: s.jdp.list j.cls := by
  unfold State.returnJob
  rw [if_neg (by rw [h]; exact Bool.false_ne_true)]
  refine ⟨?_, ?_⟩
  · show Table.at? (Jdp.setList _ _ _).jobs k = _
    rw [Jdp.setList_jobs]
    exact Table.at?_put_same ..
  · show (Jdp.setList _ _ _).list j.cls = _
    rw [Jdp.list_setList_same]
    cases j.cls <;> rfl

/-- Overtaking a lane's chunk leaves both job lists. -/
theorem State.overtake_list (s : State) (n : Nat) (c : LectureClass) : (s.overtake n).jdp.list c = s.jdp.list c := by
  rw [State.overtake_jdp]
  cases c <;> rfl

/-- What becomes of a job that returns from lane `n`, left in a state that is not IDLE, as the step ends: with no other
lane IDLE it stands at the head of its list. -/
theorem State.returned_finish {t : State} {st : LaneState} (hi : s.anyIdle = false) (hst : st ≠ .idle)
    (hne : ∀ m, m ≠ n → t.lane m = s.lane m) (hd : t.sent.any (isDiscardOf k) = false) :
    ((t.returnJob k j).laneWithout n st).finish.job? k = some { j with lane := none, order := none }
      ∧ ((t.returnJob k j).laneWithout n st).finish.jdp.list j.cls = k :: t.jdp.list j.cls := by
  have idle : ((t.returnJob k j).laneWithout n st).anyIdle = false :=
    State.anyIdle_of_one hi (by rwa [State.laneWithout_state]) fun m hm => by
      rw [State.laneWithout_ne _ _ hm, State.lane_of_lanes (State.returnJob_lanes ..), hne m hm]
  obtain ⟨record, list⟩ := State.returnJob_returns (j := j) hd
  rw [State.finish_job?_of_noIdle idle, State.finish_list_of_noIdle idle,
    State.job?_of_jdp (State.laneWithout_jdp ..), State.laneWithout_jdp]
  exact ⟨record, list⟩

/-- A lane that holds a job lets it go: its chunk is overtaken, the job returns, and the lane takes the state. -/
theorem State.returnLaneJob_eq (hk : (s.lane n).job = some k) (hj : s.job? k = some j) (st : LaneState) :
    s.returnLaneJob n st = ((s.overtake n).returnJob k j).laneWithout n st := by
  unfold State.returnLaneJob
  rw [State.laneJob_eq hk hj, hk]

end

/-! ## LANE_REMOVE without FORCE (R100) -/

section
variable {s : State} {lane : Byte}

theorem actLaneRemove_out (hn : lane.toNat < 12)
    (h : (s.lane lane.toNat).state = .idle ∨ (s.lane lane.toNat).state = .test ∨ (s.lane lane.toNat).state = .failed) :
    actLaneRemove lane s = ((s.laneWithout lane.toNat .out).finish, .done, []) := by
  refine (in_range hn _ _).trans ?_
  rcases h with h | h | h <;> simp only [h]

/-- A BUSY lane made DRAINING, its yield withdrawn (R100). -/
def State.drain (s : State) (n : Nat) : State :=
  ((s.clearYield n).setLane n { s.lane n with state := .draining }).laneEvent n

theorem State.drain_lane (s : State) (n : Nat) : (s.drain n).lane n = { s.lane n with state := .draining } := by
  unfold State.drain
  rw [State.lane_of_lanes (State.laneEvent_lanes ..), State.lane_setLane_same]

theorem State.drain_works (s : State) (n : Nat) : ((s.drain n).lane n).state ≠ .idle := by
  rw [State.drain_lane]
  exact nofun

theorem State.drain_still (s : State) (n : Nat) : (s.drain n).still = s.still := by
  simp only [State.drain, State.laneEvent_still, State.setLane_still, State.clearYield_still]

theorem actLaneRemove_busy (hn : lane.toNat < 12) (h : (s.lane lane.toNat).state = .busy) :
    actLaneRemove lane s = ((s.drain lane.toNat).finish, .pending, []) := by
  refine (in_range hn _ _).trans ?_
  simp only [h]
  rfl

theorem actLaneRemove_draining (hn : lane.toNat < 12) (h : (s.lane lane.toNat).state = .draining) :
    actLaneRemove lane s = s.refuse .busy := by
  refine (in_range hn _ _).trans ?_
  simp only [h]

theorem actLaneRemove_refused (hn : lane.toNat < 12)
    (h : (s.lane lane.toNat).state = .out ∨ (s.lane lane.toNat).state = .off) :
    actLaneRemove lane s = s.refuse .state := by
  refine (in_range hn _ _).trans ?_
  rcases h with h | h <;> simp only [h]

/-! ## LANE_REMOVE with FORCE (R102) -/

theorem actLaneRemoveForce_returns (hn : lane.toNat < 12)
    (h : (s.lane lane.toNat).state = .busy ∨ (s.lane lane.toNat).state = .draining) :
    actLaneRemoveForce lane s = ((s.returnLaneJob lane.toNat .out).finish, .done, []) := by
  refine (in_range hn _ _).trans ?_
  rcases h with h | h <;> simp only [h]

theorem actLaneRemoveForce_other (hn : lane.toNat < 12) (h : (s.lane lane.toNat).works = false) :
    actLaneRemoveForce lane s = actLaneRemove lane s := by
  refine (in_range hn _ _).trans ?_
  unfold Lane.works at h
  match e : (s.lane lane.toNat).state with
  | .busy => rw [e] at h; cases h
  | .draining => rw [e] at h; cases h
  | .off | .idle | .out | .test | .failed => rfl

end

/-! ## The directive -/

section
variable {s : State} {tag : Word16} {lane : Byte}

/-- A removal at once (R100): the lane is OUT with its last fault, and nothing else that `State.still` holds changes. -/
theorem State.removed_answer {t : State} {n : Nat}
    (ht : t = State.answer 0x50 tag (((s.taken 0x50 tag).laneWithout n .out).finish, .done, [])) :
    (t.lane n).state = .out ∧ (t.lane n).fault = (s.lane n).fault ∧ t.still = (s.answered 0x50 tag .done []).still := by
  subst ht
  refine ⟨?_, ?_, State.answer_still State.laneWithout_finish_still _ _⟩
  · rw [State.answer_lane, State.laneWithout_finish_state (by decide)]
  · rw [State.answer_lane, State.laneWithout_finish_fault (by decide), State.taken_lane]

theorem exec_laneRemove (h : s.accepts (.laneRemove tag lane)) {a : Answered}
    (ha : actLaneRemove lane (s.taken 0x50 tag) = a) :
    exec (.laneRemove tag lane) s = .next (State.answer 0x50 tag a) :=
  congrArg Host.Outcome.next (State.directive_acts h 0x50 tag _ ha)

theorem exec_laneRemoveForce (h : s.accepts (.laneRemoveForce tag lane)) {a : Answered}
    (ha : actLaneRemoveForce lane (s.taken 0x50 tag) = a) :
    exec (.laneRemoveForce tag lane) s = .next (State.answer 0x50 tag a) :=
  congrArg Host.Outcome.next (State.directive_acts h 0x50 tag _ ha)

/-- LANE_REMOVE with FORCE of a working lane (R102). -/
theorem exec_laneRemoveForce_working {k : Nat} {j : Job} (hn : lane.toNat < 12)
    (h : s.accepts (.laneRemoveForce tag lane))
    (hs : (s.lane lane.toNat).state = .busy ∨ (s.lane lane.toNat).state = .draining)
    (hk : (s.lane lane.toNat).job = some k) (hj : s.job? k = some j) :
    ∃ t, exec (.laneRemoveForce tag lane) s = .next t ∧ (t.lane lane.toNat).state = .out
      ∧ (t.lane lane.toNat).job = none ∧ (t.lane lane.toNat).fault = (s.lane lane.toNat).fault
      ∧ t.still = (s.answered 0x50 tag .done []).still
      ∧ (s.anyIdle = false → s.sent.any (isDiscardOf k) = false →
          t.job? k = some { j with lane := none, order := none } ∧ t.jdp.list j.cls = k :: s.jdp.list j.cls) := by
  obtain ⟨u, hu⟩ : ∃ u, u = s.taken 0x50 tag := ⟨_, rfl⟩
  have act : actLaneRemoveForce lane u
      = ((((u.overtake lane.toNat).returnJob k j).laneWithout lane.toNat .out).finish, .done, []) := by
    rw [actLaneRemoveForce_returns hn (by rwa [hu, State.taken_lane]),
      State.returnLaneJob_eq (k := k) (j := j) (by rwa [hu, State.taken_lane]) (by rwa [hu, State.taken_job?])]
  refine ⟨_, exec_laneRemoveForce h (hu ▸ act), ?_, ?_, ?_, State.answer_still ?_ _ _, fun hi hd => ?_⟩
  · rw [State.answer_lane, State.laneWithout_finish_state (by decide)]
  · rw [State.answer_lane, State.laneWithout_finish_job (by decide)]
  · rw [State.answer_lane, State.laneWithout_finish_fault (by decide), State.lane_of_lanes (State.returnJob_lanes ..),
      State.overtake_lane, State.taken_lane]
  · rw [State.laneWithout_finish_still, State.returnJob_still, State.overtake_still]
  · simp only [State.answer_job?, State.answer_jdp]
    have others : ∀ m, m ≠ lane.toNat → (u.overtake lane.toNat).lane m = s.lane m := fun m hm => by
      rw [State.overtake_ne _ hm, hu, State.taken_lane]
    have back := State.returned_finish (k := k) (j := j) (st := .out) hi (by decide) others
      (by rwa [State.overtake_sent, hu, State.taken_sent])
    rwa [State.overtake_list, hu, State.taken_jdp] at back

/-! ## The statement -/

/-- Settles O42: the four answers without FORCE, the job that FORCE returns, and FORCE in the other states. -/
theorem laneRemoval : Obligations.LaneRemoval := by
  refine ⟨fun s tag lane hn h => ⟨fun hs => ?_, fun hs => ?_, fun hs => ?_, fun hs => ?_⟩,
    fun s tag lane k j hn h hs hk hj => exec_laneRemoveForce_working hn h hs hk hj,
    fun s tag lane hn h => ⟨fun hs => ?_, fun hs => ?_⟩⟩
  · exact ⟨_, exec_laneRemove h (actLaneRemove_out hn hs), State.removed_answer rfl⟩
  · refine ⟨_, exec_laneRemove h (actLaneRemove_busy hn hs), ?_, ?_, State.answer_still ?_ _ _⟩
    · rw [State.answer_lane, State.finish_state (State.drain_works _ _), State.drain_lane]
    · rw [State.answer_lane, State.finish_job (State.drain_works _ _), State.drain_lane]
      rfl
    · rw [State.finish_still, State.drain_still]
  · rw [exec_laneRemove h (actLaneRemove_draining hn hs), State.answer_refuse]
  · rw [exec_laneRemove h (actLaneRemove_refused hn hs), State.answer_refuse]
  · have other : ((s.taken 0x50 tag).lane lane.toNat).works = false := by
      rw [State.taken_lane, Lane.works]
      rcases hs with hs | hs | hs <;> rw [hs] <;> rfl
    exact ⟨_, exec_laneRemoveForce h ((actLaneRemoveForce_other hn other).trans (actLaneRemove_out hn hs)),
      State.removed_answer rfl⟩
  · have other : ((s.taken 0x50 tag).lane lane.toNat).works = false := by
      rw [State.taken_lane, Lane.works]
      rcases hs with hs | hs <;> rw [hs] <;> rfl
    rw [exec_laneRemoveForce h ((actLaneRemoveForce_other hn other).trans (actLaneRemove_refused hn hs)),
      State.answer_refuse]

end

end Sys2Proof.Machine
end

section
/-! PROOF. LANE_RESTORE and the loop-around test of a lane (R103, R104, R107, O43). -/

namespace Sys2Proof.Machine

/-! ## LANE_FAILED (R107) -/

/-- As a step ends LANE_FAILED holds exactly while some lane is FAILED. -/
theorem State.finish_laneFailed_eq (s : State) :
    s.finish.condition .laneFailed = laneNumbers.any (fun n => (s.lane n).state == .failed) := by
  unfold State.finish
  show (State.serveClaims _).ccu.conditions.laneFailed = _
  rw [State.serveClaims_laneFailed, State.settle_laneFailed]
  show s.evalLaneFailed.condition .laneFailed = _
  exact State.level_condition_same ..

theorem State.answer_condition (code : Nat) (tag : Word16) (a : Answered) (k : Condition) :
    (State.answer code tag a).condition k = a.1.condition k := rfl

/-! ## LANE_RESTORE (R103) -/

section
variable {s : State} {n : Nat}

theorem State.startTest_lane (s : State) (n : Nat) : (s.startTest n).lane n = { s.lane n with
    state := .test, testChunk := 0, testCheck := check32Start, timer := .running 4000 } := by
  unfold State.startTest
  rw [State.lane_of_lanes (State.laneEvent_lanes ..), State.lane_setLane_same]
  rfl

theorem State.startTest_ne (s : State) {n m : Nat} (h : m ≠ n) : (s.startTest n).lane m = s.lane m := by
  unfold State.startTest
  rw [State.lane_of_lanes (State.laneEvent_lanes ..), State.lane_setLane_ne _ _ h]

theorem State.startTest_state (s : State) (n : Nat) : ((s.startTest n).lane n).state = .test := by
  rw [State.startTest_lane]

theorem State.startTest_works (s : State) (n : Nat) : ((s.startTest n).lane n).state ≠ .idle := by
  rw [State.startTest_state]
  exact nofun

/-- A lane in TEST is not FAILED: LANE_FAILED follows the others. -/
theorem State.startTest_laneFailed (s : State) (n : Nat) :
    (s.startTest n).finish.condition .laneFailed
      = laneNumbers.any (fun m => m != n && (s.lane m).state == .failed) := by
  rw [State.finish_laneFailed_eq]
  congr 1
  funext m
  by_cases e : m = n
  · subst e
    rw [State.startTest_state, bne_self_eq_false]
    rfl
  · rw [State.startTest_ne s e, bne_iff_ne.2 e, Bool.true_and]

theorem actLaneRestore_tests {lane : Byte} (hn : lane.toNat < 12)
    (h : (s.lane lane.toNat).state = .out ∨ (s.lane lane.toNat).state = .failed) :
    actLaneRestore lane s = ((s.startTest lane.toNat).finish, .pending, []) := by
  refine (in_range hn _ _).trans ?_
  rcases h with h | h <;> simp only [h]

theorem actLaneRestore_refused {lane : Byte} (hn : lane.toNat < 12) (ho : (s.lane lane.toNat).state ≠ .out)
    (hf : (s.lane lane.toNat).state ≠ .failed) : actLaneRestore lane s = s.refuse .state := by
  refine (in_range hn _ _).trans ?_
  split
  next e => exact absurd e ho
  next e => exact absurd e hf
  next => rfl

theorem exec_laneRestore {tag : Word16} {lane : Byte} (h : s.accepts (.laneRestore tag lane)) {a : Answered}
    (ha : actLaneRestore lane (s.taken 0x51 tag) = a) :
    exec (.laneRestore tag lane) s = .next (State.answer 0x51 tag a) :=
  congrArg Host.Outcome.next (State.directive_acts h 0x51 tag _ ha)

/-! ## The chunks of the test (R104) -/

theorem exec_testChunkEnd (s : State) (n : Nat) (output : List Byte) :
    exec (.testChunkEnd n output) s = .next (s.testChunkDone n output) := rfl

theorem exec_testChunkExpiry (s : State) (n : Nat) : exec (.testChunkExpiry n) s = .next (s.testChunkExpire n) := rfl

/-- A test that fails leaves its lane FAILED with the fault, and LANE_FAILED active. -/
theorem State.testFails_fails (hn : n < 12) (f : LaneFault) :
    ((s.testFails n f).lane n).state = .failed ∧ ((s.testFails n f).lane n).fault = some f
      ∧ (s.testFails n f).condition .laneFailed = true := by
  refine ⟨State.laneWithout_finish_state (by decide), ?_, State.finish_laneFailed hn (State.laneWithout_state ..)⟩
  unfold State.testFails
  rw [State.laneWithout_finish_fault (by decide), State.lane_setLane_same]

variable {output : List Byte} (hs : (s.lane n).state = .test)

include hs in
theorem State.testChunkDone_next (h : (s.lane n).testChunk < 3) :
    s.testChunkDone n output = s.setLane n { s.lane n with
      scratch := (s.lane n).scratch.map (fun m => (if (s.lane n).testChunk = 0 then [] else m) ++ output)
      testChunk := (s.lane n).testChunk + 1
      testCheck := check32From (s.lane n).testCheck output
      timer := .running 4000 } := by
  unfold State.testChunkDone
  exact (if_neg (not_not_intro hs)).trans (if_pos h)

include hs in
theorem State.testChunkDone_passes (h : ¬ (s.lane n).testChunk < 3)
    (hc : check32Final (check32From (s.lane n).testCheck output) = Config.expectedTestCheck) :
    s.testChunkDone n output = ((s.setLane n { (s.lane n).scratched output with
      testCheck := check32From (s.lane n).testCheck output, fault := none }).laneWithout n .idle).finish := by
  unfold State.testChunkDone
  exact (if_neg (not_not_intro hs)).trans ((if_neg h).trans (if_pos hc))

include hs in
theorem State.testChunkDone_mismatch (h : ¬ (s.lane n).testChunk < 3)
    (hc : check32Final (check32From (s.lane n).testCheck output) ≠ Config.expectedTestCheck) :
    s.testChunkDone n output = (s.setLane n { (s.lane n).scratched output with
      testCheck := check32From (s.lane n).testCheck output }).testFails n .testMismatch := by
  unfold State.testChunkDone
  exact (if_neg (not_not_intro hs)).trans ((if_neg h).trans (if_neg hc))

/-- With both job lists empty a lane left IDLE as a step ends stays IDLE, with its last fault. -/
theorem State.laneWithout_finish_idle (hl : s.jdp.live = []) (hb : s.jdp.backlog = []) :
    ((s.laneWithout n .idle).finish.lane n).state = .idle
      ∧ ((s.laneWithout n .idle).finish.lane n).fault = (s.lane n).fault := by
  have kept := (State.finish_of_empty (s := s.laneWithout n .idle) (by rwa [State.laneWithout_jdp])
    (by rwa [State.laneWithout_jdp])).2 n
  exact ⟨(Lane.state_of_core kept).trans (State.laneWithout_state ..),
    (Lane.fault_of_core kept).trans (State.laneWithout_fault ..)⟩

end

/-! ## The statement -/

/-- Settles O43: LANE_RESTORE in each state, and the ends of a test chunk. -/
theorem laneTest : Obligations.LaneTest := by
  refine ⟨fun s tag lane hn h => ⟨fun hs => ?_, fun ho hf => ?_⟩, fun s n output hn hs => ⟨fun h => ?_,
    fun h hc hl hb => ?_, fun h hc => ?_, ?_⟩⟩
  · have lane0 := (s.taken 0x51 tag).startTest_lane lane.toNat
    have works := (s.taken 0x51 tag).startTest_works lane.toNat
    refine ⟨_, exec_laneRestore h (actLaneRestore_tests hn hs), ?_, ?_, ?_, ?_, ?_, State.answer_still ?_ _ _⟩
    · rw [State.answer_lane, State.finish_state works, lane0]
    · rw [State.answer_lane, State.finish_testChunk works, lane0]
    · simp only [State.answer_lane]
      exact State.finish_running works (by rw [lane0])
    · rw [State.answer_lane, State.finish_fault works, lane0]
      rfl
    · simp only [State.answer_condition, State.startTest_laneFailed, State.taken_lane]
    · rw [State.finish_still, State.startTest_still]
  · rw [exec_laneRestore h (actLaneRestore_refused hn ho hf), State.answer_refuse]
  · rw [exec_testChunkEnd, State.testChunkDone_next hs h]
  · refine ⟨_, (exec_testChunkEnd s n output).trans (congrArg _ (State.testChunkDone_passes hs h hc)), ?_⟩
    have idle := State.laneWithout_finish_idle (n := n) (s := s.setLane n { (s.lane n).scratched output with
      testCheck := check32From (s.lane n).testCheck output, fault := none }) hl hb
    rwa [State.lane_setLane_same] at idle
  · exact ⟨_, (exec_testChunkEnd s n output).trans (congrArg _ (State.testChunkDone_mismatch hs h hc)),
      State.testFails_fails hn _⟩
  · exact ⟨_, (exec_testChunkExpiry s n).trans (congrArg _ (if_pos hs)), State.testFails_fails hn _⟩

end Sys2Proof.Machine
end

section
/-! PROOF. The pending events as a step ends (R184): the dispatch pass and the claims that are served queue and rewrite
events, and take none back. -/

namespace Sys2Proof.Machine

variable {P : List Event → Prop} (hP : keptByQueueing P) {s : State}

/-- A fold of steps that each keep the pending events keeps them. -/
theorem foldl_kept {α : Type} {f : State → α → State}
    (hf : ∀ (q : State) (a : α), P q.ccu.events → P (f q a).ccu.events) (l : List α) (p : P s.ccu.events) :
    P (l.foldl f s).ccu.events := by
  induction l generalizing s with
  | nil => exact p
  | cons a l ih => exact ih (hf s a p)

/-! ## The store -/

theorem State.giveBuffer_kept (o : BufOwner) (g page : Nat) (p : P s.ccu.events) :
    P (s.giveBuffer o g page).ccu.events := by
  unfold State.giveBuffer
  split <;> exact p

theorem State.discardBuf_kept (i : Nat) (p : P s.ccu.events) : P (s.discardBuf i).ccu.events := by
  unfold State.discardBuf
  (repeat' split) <;> exact p

theorem State.discardWhere_kept (f : Buf → Bool) (p : P s.ccu.events) : P (s.discardWhere f).ccu.events :=
  foldl_kept (fun _ _ h => State.discardBuf_kept _ h) _ p

include hP

theorem State.joinCopy_kept (b : Nat) (r : CopyReq) (p : P s.ccu.events) : P (s.joinCopy b r).ccu.events :=
  State.afterJoin_kept hP _ p

theorem State.retireBlock_kept (g : Nat) (p : P s.ccu.events) : P (s.retireBlock g).ccu.events :=
  State.arbitrate_kept hP _ p

theorem State.badBlock_kept (g : Nat) (p : P s.ccu.events) : P (s.badBlock g).ccu.events :=
  State.joinCopy_kept hP _ _ p

theorem State.takeBlock_kept (g : Nat) (p : P s.ccu.events) : P (s.takeBlock g).ccu.events :=
  State.evalLevels_kept hP p

theorem State.offer_kept (i : Nat) (p : P s.ccu.events) : P (s.offer i).ccu.events := by
  unfold State.offer
  dsimp only
  (repeat' split)
  · exact p
  · exact p
  · exact State.afterJoin_kept hP _ p
  · exact State.afterJoin_kept hP _ p
  · exact State.joinCopy_kept hP _ _ p

theorem State.copyOn_kept (o : Owner) (most : Nat) (p : P s.ccu.events) : P (s.copyOn o most).ccu.events := by
  unfold State.copyOn
  dsimp only
  (repeat' split)
  · exact p
  · exact p
  · exact p
  · exact p
  · exact State.joinCopy_kept hP _ _ p
  · exact p
  · exact State.joinCopy_kept hP _ _ (foldl_kept (fun _ _ h => State.giveBuffer_kept _ _ _ h) _ p)

theorem State.askTarget_kept (r : Relocation) (p : P s.ccu.events) : P (s.askTarget r).ccu.events := by
  unfold State.askTarget
  split
  · exact p
  · exact State.takeBlock_kept hP _ p

theorem State.nextReloc_kept (o : Owner) (p : P s.ccu.events) : P (s.nextReloc o).ccu.events := by
  unfold State.nextReloc
  (repeat' split)
  · exact p
  · exact p
  · exact State.askTarget_kept hP _ p

theorem State.abandonReloc_kept (r : Relocation) (p : P s.ccu.events) : P (s.abandonReloc r).ccu.events := by
  unfold State.abandonReloc
  dsimp only
  apply State.badBlock_kept hP
  have q : P (State.discardWhere (if r.active = true then
      (((s.withdrawClaim (.relocation r.owner r.failed)).dropReloc r.failed).withdrawReads
        (· == .relocation r.owner)).discardWhere (fun b => b.owner == .relocation r.owner)
      else (s.withdrawClaim (.relocation r.owner r.failed)).dropReloc r.failed)
      (fun b => b.block == r.failed)).ccu.events := by
    apply State.discardWhere_kept
    split
    · exact State.discardWhere_kept _ p
    · exact p
  split
  · exact q
  · exact State.retireBlock_kept hP _ q

theorem State.retireHead_kept (slot : Nat) (r : Role) (x : Run) (g : Nat) (rest : List Nat) (p : P s.ccu.events) :
    P (s.retireHead slot r x g rest).ccu.events := by
  have q := foldl_kept (fun _ a h => State.abandonReloc_kept hP a h)
    ((s.discardWhere (fun b => b.block == g)).stc.relocations.filter (fun q => q.failed == g))
    (State.discardWhere_kept (fun b => b.block == g) p)
  unfold State.retireHead
  dsimp only
  apply State.nextReloc_kept hP
  show P (State.ccu (ite _ _ _)).events
  split
  · exact q
  · exact State.retireBlock_kept hP _ q

theorem State.retireHeads_kept (slot : Nat) (r : Role) (fuel : Nat) (p : P s.ccu.events) :
    P (s.retireHeads slot r fuel).ccu.events := by
  induction fuel generalizing s with
  | zero => exact p
  | succ fuel ih =>
    unfold State.retireHeads
    (repeat' split)
    · exact p
    · exact p
    · exact ih (State.retireHead_kept hP _ _ _ _ _ p)
    · exact p

theorem State.retireTest_kept (slot : Nat) (r : Role) (p : P s.ccu.events) : P (s.retireTest slot r).ccu.events := by
  unfold State.retireTest
  split
  · exact p
  · exact State.retireHeads_kept hP _ _ _ p

theorem State.sealTail_kept (o : Owner) (blocks : List Nat) (p : P s.ccu.events) :
    P (s.sealTail o blocks).ccu.events := by
  have padded : ∀ i, P (s.padBuffer i).ccu.events := fun i => by
    unfold State.padBuffer
    split
    · exact p
    · exact State.offer_kept hP _ p
  unfold State.sealTail
  dsimp only
  (repeat' split)
  · exact p
  · exact padded _
  · exact p
  · exact p
  · exact padded _
  · exact padded _

theorem State.closeExtent_kept (n slot segment rendition : Nat) (p : P s.ccu.events) :
    P (s.closeExtent n slot segment rendition).ccu.events := by
  unfold State.closeExtent
  (repeat' split)
  · exact p
  · exact State.sealTail_kept hP _ _ p
  · exact p

/-! ## Runs and the intake -/

theorem State.runBlock_kept (slot : Nat) (r : Role) (x : Run) (pos : Nat) (p : P s.ccu.events) :
    P (s.runBlock slot r x pos).1.ccu.events := by
  have appended : ∀ g, P (s.appendRunBlock slot r x g).ccu.events := fun g => by
    unfold State.appendRunBlock
    apply State.retireTest_kept hP
    split <;> exact State.takeBlock_kept hP g p
  unfold State.runBlock
  (repeat' split)
  · exact p
  · exact p
  · exact appended _
  · exact p

omit hP in
theorem State.runBuffer_kept (slot : Nat) (r : Role) (pos : Nat) (p : P s.ccu.events) :
    P (s.runBuffer slot r pos).1.ccu.events := by
  unfold State.runBuffer
  (repeat' split)
  · exact p
  · exact p
  · exact p
  · exact State.giveBuffer_kept _ _ _ p

theorem State.runReady_kept (slot : Nat) (r : Role) (pos : Nat) (p : P s.ccu.events) :
    P (s.runReady slot r pos).1.ccu.events := by
  unfold State.runReady
  dsimp only
  (repeat' split)
  · exact p
  · exact p
  · exact State.runBuffer_kept _ _ _ (State.runBlock_kept hP _ _ _ _ p)
  · exact State.runBlock_kept hP _ _ _ _ p

theorem State.putRun_kept (slot : Nat) (r : Role) (bs : List Byte) (p : P s.ccu.events) :
    P (s.putRun slot r bs).ccu.events := by
  unfold State.putRun
  dsimp only
  (repeat' split)
  · exact p
  · exact p
  · exact p
  · exact State.offer_kept hP _ p

theorem State.writeRun_kept (slot : Nat) (r : Role) (fuel : Nat) (bs : List Byte) (p : P s.ccu.events) :
    P (State.writeRun slot r fuel bs s).1.ccu.events := by
  induction fuel generalizing s bs with
  | zero => exact p
  | succ fuel ih =>
    have ready := State.runReady_kept hP slot r (s.intake slot r).writePos p
    unfold State.writeRun
    dsimp only
    (repeat' split)
    · exact p
    · exact ih _ (State.putRun_kept hP _ _ _ ready)
    · exact ready

theorem State.completeUnit_kept (slot : Nat) (r : Role) (u : BrokenUnit) (p : P s.ccu.events) :
    P (s.completeUnit slot r u).1.ccu.events := by
  have noticed : ∀ (q : State) (stamp : Stamp) (key good : Bool) (start : Nat), P q.ccu.events →
      P (q.noticeUnit slot r stamp key good start).ccu.events := fun q _ _ _ _ h => by
    unfold State.noticeUnit
    (repeat' split) <;> exact h
  unfold State.completeUnit
  dsimp only
  split
  · exact noticed _ _ _ _ _ (State.writeRun_kept hP _ _ _ _ p)
  · exact State.writeRun_kept hP _ _ _ _ p

theorem State.overrunGranted_kept (slot : Nat) (r : Role) (p : P s.ccu.events) :
    P (s.overrunGranted slot r).ccu.events := by
  have closed : ∀ q : State, P q.ccu.events → P (q.closeRunTail slot r).ccu.events := fun q h => by
    unfold State.closeRunTail
    split
    · exact h
    · exact State.sealTail_kept hP _ _ h
  have completed : ∀ (x : IntakeRec) (u : BrokenUnit),
      P ((s.setIntake slot r x).completeUnit slot r u).1.ccu.events :=
    fun x u => State.completeUnit_kept hP _ _ _ p
  unfold State.overrunGranted
  dsimp only
  (repeat' split)
  · exact p
  · exact completed _ _
  · exact closed _ (completed _ _)
  · exact completed _ _
  · exact completed _ _

/-! ## Claims -/

omit hP in
theorem State.laneFill_kept (n : Nat) (p : P s.ccu.events) : P (s.laneFill n).ccu.events := by
  unfold State.laneFill
  dsimp only
  (repeat' split) <;> exact p

theorem State.giveLane_kept (n : Nat) (kind : ClaimKind) (p : P s.ccu.events) :
    P (s.giveLane n kind).ccu.events := by
  have appended : ∀ (e : Nat) (x : Extent) (g : Nat), P ((s.unhold n).appendExtentBlock e x g).ccu.events :=
    fun e x g => by
      unfold State.appendExtentBlock
      dsimp only
      split <;> exact State.takeBlock_kept (s := s.unhold n) hP g p
  unfold State.giveLane
  (repeat' split)
  · exact p
  · exact State.laneFill_kept _ (State.giveBuffer_kept _ _ _ p)
  · exact p
  · exact appended _ _ _

theorem State.grant_kept (c : Claim) (p : P s.ccu.events) : P (s.grant c).ccu.events := by
  have given : ∀ (slot : Nat) (r : Role) (q : State), P q.ccu.events → P (q.giveRun slot r c.kind).ccu.events :=
    fun slot r q h => by
      unfold State.giveRun
      dsimp only
      (repeat' split)
      · exact h
      · exact State.runBlock_kept hP _ _ _ _ h
      · exact State.runBuffer_kept _ _ _ h
  unfold State.grant
  dsimp only
  (repeat' split)
  · exact State.copyOn_kept hP _ _ p
  · exact p
  · exact State.askTarget_kept hP _ p
  · exact State.giveLane_kept hP _ _ p
  · exact given _ _ _ p

theorem State.serveLoop_kept (fuel : Nat) (p : P s.ccu.events) : P (State.serveLoop fuel s).ccu.events := by
  induction fuel generalizing s with
  | zero => exact p
  | succ fuel ih =>
    unfold State.serveLoop
    split
    · exact p
    · exact ih (State.grant_kept hP _ p)

theorem State.serveClaims_kept (p : P s.ccu.events) : P s.serveClaims.ccu.events := by
  unfold State.serveClaims State.resumeCopies State.endOverruns
  refine foldl_kept (fun q r h => ?_) _ (foldl_kept (fun q c h => ?_) _ (State.serveLoop_kept hP _ p))
  · split
    · exact State.copyOn_kept hP _ _ h
    · exact h
  · split
    · exact State.overrunGranted_kept hP _ _ h
    · exact h

/-! ## The dispatch pass -/

theorem State.finishJob_kept (k : Nat) (j : Job) (e : Nat) (p : P s.ccu.events) :
    P (s.finishJob k j e).ccu.events :=
  State.closeExtent_kept hP _ _ _ _ p

theorem State.handOver_kept (n k : Nat) (j : Job) (p : P s.ccu.events) : P (s.handOver n k j).1.ccu.events := by
  have begun : ∀ (q : State) (i : Job), P q.ccu.events → P (q.beginJob n i).ccu.events := fun q i h => by
    unfold State.beginJob
    dsimp only
    split <;> exact h
  unfold State.handOver
  dsimp only
  split
  · exact begun _ _ p
  · exact State.queueEvent_kept hP _ _ _ nofun (begun _ _ p)

theorem State.offerJob_kept (n k : Nat) (p : P s.ccu.events) : P (s.offerJob n k).1.ccu.events := by
  unfold State.offerJob
  dsimp only
  (repeat' split)
  · exact p
  · exact State.finishJob_kept hP _ _ _ p
  · exact State.handOver_kept hP _ _ _ p
  · exact p
  · exact p
  · exact State.finishJob_kept (s := State.takeExtent ..) hP _ _ _ p
  · exact State.handOver_kept (s := State.setJob ..) hP _ _ _ p

theorem State.dispatchLoop_kept (fuel : Nat) (p : P s.ccu.events) : P (State.dispatchLoop fuel s).ccu.events := by
  induction fuel generalizing s with
  | zero => exact p
  | succ fuel ih =>
    unfold State.dispatchLoop
    dsimp only
    (repeat' split)
    · exact p
    · exact p
    · exact State.offerJob_kept hP _ _ p
    · exact ih (State.offerJob_kept hP _ _ p)

/-- What ends a step takes no pending event back (R184). -/
theorem State.finish_kept (p : P s.ccu.events) : P s.finish.ccu.events := by
  unfold State.finish
  apply State.serveClaims_kept hP
  obtain ⟨y, hy⟩ := State.settle_yields s.evalLaneFailed
  rw [hy]
  exact State.dispatchLoop_kept hP _ (State.level_kept hP _ _ p)

end Sys2Proof.Machine
end

section
/-! PROOF. What a supply fault and the start of FALLING make of a lane group and its four lanes (R110, R114), and the
supply fault itself (O46). -/

namespace Sys2Proof.Machine

/-! ## Steps over the lanes of a group -/

theorem groupLanes_nodup (g : Nat) : (groupLanes g).Nodup := List.nodup_range'

/-- In a fold of steps, each on its own lane, the step of a lane meets that lane as it was before the fold. -/
theorem foldl_lane_own {f : State → Nat → State} (hne : ∀ s n m, m ≠ n → (f s n).lane m = s.lane m) {l : List Nat}
    (hl : l.Nodup) (s : State) {n : Nat} (h : n ∈ l) :
    ∃ q : State, q.lane n = s.lane n ∧ (l.foldl f s).lane n = (f q n).lane n := by
  induction l generalizing s with
  | nil => cases h
  | cons a l ih =>
    obtain ⟨fresh, rest⟩ := List.nodup_cons.1 hl
    rw [List.foldl_cons]
    rcases List.mem_cons.1 h with rfl | later
    · exact ⟨s, rfl, foldl_lane_ne hne l _ _ fresh⟩
    · obtain ⟨q, before, after⟩ := ih rest (f s a) later
      exact ⟨q, before.trans (hne _ _ _ (fun e => fresh (e ▸ later))), after⟩

theorem State.group_of_groups {s t : State} (h : t.groups = s.groups) (g : Nat) : t.group g = s.group g := by
  rw [State.group, State.group, h]

theorem State.raise_groups (s : State) (k : Condition) : (s.raise k).groups = s.groups := by
  unfold State.raise State.queueAlarm
  (repeat' split) <;> rfl

theorem State.raise_mem (s : State) (k : Condition) : (s.raise k).mem = s.mem := by
  unfold State.raise State.queueAlarm
  (repeat' split) <;> rfl

/-! ## FALLING starts (R110) -/

section
variable {s : State} {g : Nat}

theorem State.startFalling_group_ne (s : State) (b : Bool) {m : Nat} (h : m ≠ g) :
    (s.startFalling g b).group m = s.group m := by
  rw [State.startFalling_eq, State.group_of_groups (State.groupEvent_groups ..), State.group_setGroup_ne _ _ h,
    State.group_of_still (s.lanesOff_still g)]

/-- As FALLING starts a GROUP event is queued. -/
theorem State.startFalling_event (s : State) (g : Nat) (b : Bool) :
    ∃ e ∈ (s.startFalling g b).ccu.events, e.object = .group g := by
  rw [State.startFalling_eq]
  obtain ⟨e, mem, object, -⟩ := putEvent_mem ((s.lanesOff g).setGroup g { (s.lanesOff g).group g with
    state := .falling, phase := some .clock, left := 16 }).ccu.events (.group g) .group
    (be1 g ++ be1 (groupStateCode .falling) ++ be1 (if ((s.lanesOff g).group g).monitorFault then 1 else 0) ++ flag b)
  refine ⟨e, ?_, object⟩
  simpa only [State.groupEvent, State.queueEvent, State.group_setGroup_same] using mem

/-- A step that ends with the lanes of a group OFF leaves them OFF, without jobs and with their last faults. -/
theorem State.falling_finish {t : State} {b : Bool} (ht : t.lanes = (s.startFalling g b).lanes) {n : Nat}
    (hn : n / 4 = g) : (t.finish.lane n).state = .off ∧ (t.finish.lane n).job = none
      ∧ (t.finish.lane n).fault = (s.lane n).fault := by
  have off : t.lane n = (s.lanesOff g).lane n := (State.lane_of_lanes ht n).trans (State.startFalling_lane ..)
  have notIdle : (t.lane n).state ≠ .idle := by
    rw [off, State.lanesOff_state s hn]
    exact nofun
  rw [State.finish_state notIdle, State.finish_job notIdle, State.finish_fault notIdle, off]
  exact ⟨State.lanesOff_state s hn, State.lanesOff_job s hn, State.lanesOff_fault s g n⟩

end

/-! ## A supply fault (R114) -/

/-- The lanes of a group at a supply fault, each with its job returned (R114 steps 1 to 3). -/
def State.lanesFault (s : State) (g : Nat) : State := (groupLanes g).foldl State.faultLane s

theorem State.takeFault_eq (s : State) (g : Nat) :
    s.takeFault g = (((s.lanesFault g).startFalling g true).raise .groupSupply).finish := rfl

theorem State.faultLane_ne (s : State) (n m : Nat) (h : m ≠ n) : (s.faultLane n).lane m = s.lane m := by
  unfold State.faultLane
  split
  · rfl
  · dsimp only
    rw [State.laneWithout_ne _ _ h, State.returnLaneJob_ne _ _ h, State.lane_setLane_ne _ _ h]

/-- Returning its job leaves a lane's last fault. -/
theorem State.returnLaneJob_fault (s : State) (n : Nat) (st : LaneState) :
    ((s.returnLaneJob n st).lane n).fault = (s.lane n).fault := by
  unfold State.returnLaneJob
  split
  · rw [State.laneWithout_fault, State.lane_of_lanes (State.returnJob_lanes ..), State.overtake_lane]
  · rfl

/-- A supply fault is the last fault of a lane that was not OFF; an OFF lane is left as it is. -/
theorem State.faultLane_fault (s : State) (n : Nat) :
    ((s.faultLane n).lane n).fault = if (s.lane n).state = .off then (s.lane n).fault else some .supply := by
  unfold State.faultLane
  split
  · rfl
  · dsimp only
    rw [State.laneWithout_fault, State.returnLaneJob_fault, State.lane_setLane_same]

section
variable {s : State} {g : Nat}

theorem State.lanesFault_still (s : State) (g : Nat) : (s.lanesFault g).still = s.still :=
  foldl_still _ (fun q n => State.faultLane_still q n) _ _

theorem State.lanesFault_fault {n : Nat} (hn : n / 4 = g) :
    ((s.lanesFault g).lane n).fault = if (s.lane n).state = .off then (s.lane n).fault else some .supply := by
  obtain ⟨q, before, after⟩ := foldl_lane_own (f := State.faultLane) State.faultLane_ne (groupLanes_nodup g) s
    ((mem_groupLanes g n).2 hn)
  unfold State.lanesFault
  rw [after, State.faultLane_fault, before]

/-- A supply fault takes its group into FALLING, its lanes OFF, and raises GROUP_SUPPLY (R114). -/
structure State.takesFault (s t : State) (g : Nat) : Prop where
  group : t.group g = { s.group g with state := .falling, phase := some .clock, left := 16 }
  groups : ∀ m, m ≠ g → t.group m = s.group m
  state : ∀ n, n / 4 = g → (t.lane n).state = .off
  fault : ∀ n, n / 4 = g →
    (t.lane n).fault = if (s.lane n).state = .off then (s.lane n).fault else some .supply
  supply : t.condition .groupSupply = true
  event : ∃ e ∈ t.ccu.events, e.object = .group g
  mem : t.mem = s.mem

/-- An event of a group stays pending whatever is queued behind it. -/
theorem kept_group (g : Nat) : keptByQueueing (fun l => ∃ e ∈ l, e.object = .group g) := by
  intro l o k c _ ⟨e, he, object⟩
  have mem : e.object ∈ l.map (fun e => e.object) := List.mem_map_of_mem he
  obtain ⟨d, hd, hobject⟩ := List.mem_map.1 ((putEvent_objects l o k c).subset mem)
  exact ⟨d, hd, hobject.trans object⟩

theorem State.takeFault_takesFault (s : State) (g : Nat) : s.takesFault (s.takeFault g) g := by
  have lanes := State.raise_lanes ((s.lanesFault g).startFalling g true) .groupSupply
  have groups := State.raise_groups ((s.lanesFault g).startFalling g true) .groupSupply
  have group : ∀ m, (s.lanesFault g).group m = s.group m := State.group_of_still (s.lanesFault_still g)
  rw [State.takeFault_eq]
  constructor
  case group => rw [State.finish_group, State.group_of_groups groups, State.startFalling_group, group]
  case groups =>
    intro m hm
    rw [State.finish_group, State.group_of_groups groups, State.startFalling_group_ne _ _ hm, group]
  case state => exact fun n hn => (State.falling_finish lanes hn).1
  case fault => exact fun n hn => (State.falling_finish lanes hn).2.2.trans (State.lanesFault_fault hn)
  case supply =>
    rw [State.groupSupply_of_still (State.finish_still _)]
    exact State.raise_condition_same ..
  case event =>
    exact State.finish_kept (kept_group g) (State.raise_kept (kept_group g) _ (State.startFalling_event _ g true))
  case mem =>
    rw [State.finish_mem, State.raise_mem, State.startFalling_mem, State.mem_of_still (s.lanesFault_still g)]

/-! ## The statement -/

theorem exec_supplyFault (hg : g < 3) : exec (.supplyFault g) s
    = .next (if (s.group g).watches then (s.setGroup g { s.group g with monitorFault := true }).takeFault g
        else s.setGroup g { s.group g with monitorFault := true }) :=
  congrArg Host.Outcome.next (in_range hg _ _)

end

/-- Settles O46: the fault of a group that the GPC watches, and what of the monitor it only records. -/
theorem supplyFault : Obligations.SupplyFault := by
  refine fun s g hg => ⟨fun hw => ?_, fun hw => ?_, congrArg Host.Outcome.next (in_range hg _ _)⟩
  · have falls := (s.setGroup g { s.group g with monitorFault := true }).takeFault_takesFault g
    refine ⟨_, (exec_supplyFault hg).trans (congrArg _ (if_pos hw)), ?_,
      fun n hn => ⟨falls.state n hn, fun on => (falls.fault n hn).trans (if_neg on)⟩, falls.supply, falls.mem⟩
    rw [falls.group, State.group_setGroup_same]
  · exact (exec_supplyFault hg).trans (congrArg _ (if_neg (by rw [hw]; exact Bool.false_ne_true)))

end Sys2Proof.Machine
end

section
/-! PROOF. GROUP_ON and the three phases of RISING (R109, R111, O44). -/

namespace Sys2Proof.Machine

/-! ## Steps that touch groups and lanes alone -/

/-- A state with another table of lanes. -/
def State.withLanes (l : Table Lane) (s : State) : State := { s with lanes := l }

/-- A write of the scratch memories of a group leaves everything but the lanes. -/
theorem State.setScratch_eq (s : State) (g : Nat) (x : Option (List Byte)) :
    s.setScratch g x = { s with lanes := (s.setScratch g x).lanes } :=
  foldl_keeps (State.withLanes (s.setScratch g x).lanes)
    (fun q n => q.setLane n { q.lane n with scratch := x }) (fun _ _ => rfl) (groupLanes g) s

theorem State.setScratch_groups (s : State) (g : Nat) (x : Option (List Byte)) :
    (s.setScratch g x).groups = s.groups := State.groups_of_still (s.setScratch_still g x)

/-- A phase that starts with a write of the group's scratch memories changes the group's phase and those alone. -/
theorem State.setGroup_setScratch_eq (s : State) (g : Nat) (x : Group) (c : Option (List Byte)) :
    (s.setGroup g x).setScratch g c = { s with
      groups := ((s.setGroup g x).setScratch g c).groups, lanes := ((s.setGroup g x).setScratch g c).lanes } := by
  rw [State.setScratch_groups]
  exact State.setScratch_eq ..

/-- The scratch memories do not say whether a lane is OFF. -/
theorem State.setScratch_state (s : State) {g n : Nat} (x : Option (List Byte)) (h : n / 4 = g) :
    ((s.setScratch g x).lane n).state = (s.lane n).state := by
  rw [State.setScratch_lane s x h]

/-- The lanes of a group made OUT, each without a job: the end of RISING (R109). -/
def State.lanesOut (s : State) (g : Nat) : State := (groupLanes g).foldl (fun q n => q.laneWithout n .out) s

section
variable {s : State} {g n : Nat}

theorem State.lanesOut_state (h : n / 4 = g) : ((s.lanesOut g).lane n).state = .out :=
  foldl_lane (f := fun q n => q.laneWithout n .out) (P := fun l => l.state = .out)
    (fun _ _ => State.laneWithout_state ..) (fun _ _ _ h => State.laneWithout_ne _ _ h) _ _ _ ((mem_groupLanes g n).2 h)

theorem State.lanesOut_fault : ((s.lanesOut g).lane n).fault = (s.lane n).fault :=
  foldl_fault (f := fun q n => q.laneWithout n .out) (fun q n => State.laneWithout_fault q n .out) _ _ _

theorem State.lanesOut_ne (h : n / 4 ≠ g) : (s.lanesOut g).lane n = s.lane n :=
  foldl_lane_ne (f := fun q n => q.laneWithout n .out) (fun _ _ _ h => State.laneWithout_ne _ _ h) _ _ _
    (fun e => h ((mem_groupLanes g n).1 e))

theorem State.lanesOut_jdp : (s.lanesOut g).jdp = s.jdp :=
  foldl_keeps State.jdp (fun q n => q.laneWithout n .out) (fun _ _ => State.laneWithout_jdp ..) _ _

theorem State.lanesOut_mem : (s.lanesOut g).mem = s.mem :=
  State.mem_of_still (foldl_still _ (fun q n => State.laneWithout_still q n .out) _ _)

end

/-! ## GROUP_ON (R111) -/

section
variable {s : State} {tag : Word16} {group : Byte}

theorem exec_groupOn (h : s.accepts (.groupOn tag group)) {a : Answered}
    (ha : actGroupOn group (s.taken 0x53 tag) = a) :
    exec (.groupOn tag group) s = .next (State.answer 0x53 tag a) :=
  congrArg Host.Outcome.next (State.directive_acts h 0x53 tag _ ha)

theorem actGroupOn_rises (hg : group.toNat < 3) (h : (s.group group.toNat).state = .off) :
    actGroupOn group s = ((s.setGroup group.toNat { s.group group.toNat with
      state := .rising, phase := some .supply, left := 120, enable := true }).groupEvent group.toNat false,
        .pending, []) := by
  refine (in_range hg _ _).trans ?_
  simp only [h]
  rfl

theorem actGroupOn_busy (hg : group.toNat < 3)
    (h : (s.group group.toNat).state = .rising ∨ (s.group group.toNat).state = .falling) :
    actGroupOn group s = s.refuse .busy := by
  refine (in_range hg _ _).trans ?_
  rcases h with h | h <;> simp only [h]

theorem actGroupOn_on (hg : group.toNat < 3) (h : (s.group group.toNat).state = .on) :
    actGroupOn group s = s.refuse .state := by
  refine (in_range hg _ _).trans ?_
  simp only [h]

end

/-! ## The phases of RISING (R109) -/

section
variable {s : State} {g : Nat}

theorem exec_risingPhaseEnd (s : State) (g : Nat) : exec (.risingPhaseEnd g) s = .next (s.risingEnd g) := rfl

/-- The state at the end of the phase SUPPLY of RISING, before the monitor is looked at. -/
def State.memoryStarts (s : State) (g : Nat) : State :=
  (s.setGroup g { s.group g with phase := some .memory, left := 40 }).setScratch g (some [])

theorem State.memoryStarts_mem (s : State) (g : Nat) : (s.memoryStarts g).mem = s.mem :=
  (State.mem_of_still (State.setScratch_still ..)).trans (State.setGroup_mem ..)

/-- The state at the end of the phase CLOCK of RISING. -/
def State.groupRisen (s : State) (g : Nat) : State :=
  ((s.lanesOut g).setGroup g { s.group g with state := .on, phase := none, left := 0 }).groupEvent g false

theorem State.groupRisen_lane (s : State) (g n : Nat) : (s.groupRisen g).lane n = (s.lanesOut g).lane n := by
  rw [State.groupRisen, State.lane_of_lanes (State.groupEvent_lanes ..), State.lane_of_lanes (State.setGroup_lanes ..)]

theorem State.groupRisen_group (s : State) (g : Nat) :
    (s.groupRisen g).group g = { s.group g with state := .on, phase := none, left := 0 } := by
  rw [State.groupRisen, State.group_of_groups (State.groupEvent_groups ..), State.group_setGroup_same]

theorem State.groupRisen_jdp (s : State) (g : Nat) : (s.groupRisen g).jdp = s.jdp := by
  rw [State.groupRisen, State.groupEvent_jdp, State.setGroup_jdp, State.lanesOut_jdp]

theorem State.groupRisen_mem (s : State) (g : Nat) : (s.groupRisen g).mem = s.mem := by
  rw [State.groupRisen, State.groupEvent_mem, State.setGroup_mem, State.lanesOut_mem]

variable (hg : g < 3) (hs : (s.group g).state = .rising)
include hg hs

theorem State.risingEnd_supply (hp : (s.group g).phase = some .supply) :
    s.risingEnd g = if (s.group g).monitorFault then (s.memoryStarts g).takeFault g else s.memoryStarts g := by
  unfold State.risingEnd
  refine (if_neg (by simp [hs, hg])).trans ?_
  simp only [hp]
  rfl

theorem State.risingEnd_memory (hp : (s.group g).phase = some .memory) :
    s.risingEnd g = s.setGroup g { s.group g with phase := some .clock, left := 8 } := by
  unfold State.risingEnd
  refine (if_neg (by simp [hs, hg])).trans ?_
  simp only [hp]
  rfl

theorem State.risingEnd_clock (hp : (s.group g).phase = some .clock) :
    s.risingEnd g = s.groupRisen g := by
  unfold State.risingEnd
  refine (if_neg (by simp [hs, hg])).trans ?_
  simp only [hp]
  rfl

end

/-! ## The statement -/

/-- Settles O44: GROUP_ON in each state of the group, and the ends of the three phases of RISING. -/
theorem groupOn : Obligations.GroupOn := by
  refine ⟨fun s tag group hg h => ⟨fun hs => ?_, fun hs => ?_, fun hs => ?_⟩,
    fun s g hg hs => ⟨fun hp hm => ?_, fun hp hm => ?_, fun hp => ?_, fun hp => ?_⟩⟩
  · exact ⟨_, exec_groupOn h (actGroupOn_rises hg hs), rfl, rfl, rfl, rfl⟩
  · rw [exec_groupOn h (actGroupOn_busy hg hs), State.answer_refuse]
  · rw [exec_groupOn h (actGroupOn_on hg hs), State.answer_refuse]
  · refine ⟨s.memoryStarts g, ?_, State.setScratch_groups .., fun n hn => State.setScratch_lane _ _ hn,
      fun n hn => State.setScratch_ne _ _ hn, State.setGroup_setScratch_eq ..⟩
    rw [exec_risingPhaseEnd, State.risingEnd_supply hg hs hp, hm]
    rfl
  · have falls := (s.memoryStarts g).takeFault_takesFault g
    have groups : ∀ m, (s.memoryStarts g).group m
        = (s.setGroup g { s.group g with phase := some .memory, left := 40 }).group m :=
      State.group_of_still (State.setScratch_still ..)
    refine ⟨(s.memoryStarts g).takeFault g, ?_, ?_, fun m hm => ?_, fun n hn => ⟨falls.state n hn, fun off => ?_⟩,
      falls.supply, falls.event, falls.mem.trans (State.memoryStarts_mem ..)⟩
    · rw [exec_risingPhaseEnd, State.risingEnd_supply hg hs hp, hm]
      rfl
    · rw [falls.group, groups, State.group_setGroup_same]
    · rw [falls.groups m hm, groups, State.group_setGroup_ne _ _ hm]
    · have before : ((s.memoryStarts g).lane n).state = .off := (State.setScratch_state _ _ hn).trans off
      rw [falls.fault n hn, if_pos before]
      exact State.setScratch_fault ..
  · rw [exec_risingPhaseEnd, State.risingEnd_memory hg hs hp]
  · refine ⟨_, congrArg Host.Outcome.next (State.risingEnd_clock hg hs hp), State.groupRisen_group ..,
      fun n hn => ?_, fun n hn => ?_, State.groupRisen_jdp .., State.groupRisen_mem ..⟩
    · rw [State.groupRisen_lane]
      exact ⟨State.lanesOut_state hn, State.lanesOut_fault⟩
    · rw [State.groupRisen_lane, State.lanesOut_ne hn]

end Sys2Proof.Machine
end

section
/-! PROOF. GROUP_OFF, with FORCE and without, and the three phases of FALLING (R110, R112, R113, O45). -/

namespace Sys2Proof.Machine

/-! ## GROUP_OFF (R112, R113) -/

/-- The jobs of a group's lanes returned, its lanes OUT: GROUP_OFF with FORCE before FALLING starts (R113). -/
def State.lanesReturned (s : State) (g : Nat) : State := (groupLanes g).foldl (fun q n => q.returnLaneJob n .out) s

theorem State.lanesReturned_still (s : State) (g : Nat) : (s.lanesReturned g).still = s.still :=
  foldl_still _ (fun q n => State.returnLaneJob_still q n .out) _ _

section
variable {s : State} {group : Byte} (hg : group.toNat < 3)
include hg

theorem actGroupOff_falls (h : (s.group group.toNat).state = .on) (hf : s.groupFree group.toNat = true) :
    actGroupOff group s = ((s.startFalling group.toNat false).finish, .pending, []) := by
  refine (in_range hg _ _).trans ?_
  simp only [h, hf, if_true]

theorem actGroupOff_interlock (h : (s.group group.toNat).state = .on) (hf : s.groupFree group.toNat = false) :
    actGroupOff group s = s.refuse .interlock := by
  refine (in_range hg _ _).trans ?_
  simp only [h, hf, Bool.false_eq_true, if_false]

theorem actGroupOff_busy (h : (s.group group.toNat).state = .rising ∨ (s.group group.toNat).state = .falling) :
    actGroupOff group s = s.refuse .busy := by
  refine (in_range hg _ _).trans ?_
  rcases h with h | h <;> simp only [h]

theorem actGroupOff_off (h : (s.group group.toNat).state = .off) : actGroupOff group s = s.refuse .state := by
  refine (in_range hg _ _).trans ?_
  simp only [h]

theorem actGroupOffForce_falls (h : (s.group group.toNat).state = .on) :
    actGroupOffForce group s
      = (((s.lanesReturned group.toNat).startFalling group.toNat false).finish, .pending, []) := by
  refine (in_range hg _ _).trans ?_
  simp only [h]
  rfl

theorem actGroupOffForce_busy (h : (s.group group.toNat).state = .rising ∨ (s.group group.toNat).state = .falling) :
    actGroupOffForce group s = s.refuse .busy := by
  refine (in_range hg _ _).trans ?_
  rcases h with h | h <;> simp only [h]

theorem actGroupOffForce_off (h : (s.group group.toNat).state = .off) :
    actGroupOffForce group s = s.refuse .state := by
  refine (in_range hg _ _).trans ?_
  simp only [h]

end

section
variable {s : State} {tag : Word16} {group : Byte}

theorem exec_groupOff (h : s.accepts (.groupOff tag group)) {a : Answered}
    (ha : actGroupOff group (s.taken 0x54 tag) = a) :
    exec (.groupOff tag group) s = .next (State.answer 0x54 tag a) :=
  congrArg Host.Outcome.next (State.directive_acts h 0x54 tag _ ha)

theorem exec_groupOffForce (h : s.accepts (.groupOffForce tag group)) {a : Answered}
    (ha : actGroupOffForce group (s.taken 0x54 tag) = a) :
    exec (.groupOffForce tag group) s = .next (State.answer 0x54 tag a) :=
  congrArg Host.Outcome.next (State.directive_acts h 0x54 tag _ ha)

/-- An act that takes a group into FALLING, from a state that the directive's first acts have left still. -/
theorem State.falling_answer {t u : State} {g : Nat} (hu : u.still = (s.taken 0x54 tag).still)
    (ht : t = State.answer 0x54 tag ((u.startFalling g false).finish, .pending, [])) :
    t.group g = { s.group g with state := .falling, phase := some .clock, left := 16 }
      ∧ (∀ n, n / 4 = g → (t.lane n).state = .off ∧ (t.lane n).job = none)
      ∧ t.ccu.replies = s.ccu.replies ++ [⟨0x54, tag, .pending, []⟩] ∧ t.mem = s.mem := by
  subst ht
  refine ⟨?_, fun n hn => ?_, ?_, ?_⟩
  · rw [State.answer_group, State.finish_group, State.startFalling_group, State.group_of_still hu, State.taken_group]
  · simp only [State.answer_lane]
    obtain ⟨off, job, -⟩ := State.falling_finish (t := u.startFalling g false) rfl hn
    exact ⟨off, job⟩
  · simp only [State.answer_replies, State.finish_replies, State.startFalling_replies, State.replies_of_still hu]
    rfl
  · rw [State.answer_mem, State.finish_mem, State.startFalling_mem, State.mem_of_still hu, State.taken_mem]

end

/-! ## The phases of FALLING (R110) -/

section
variable {s : State} {g : Nat}

theorem exec_fallingPhaseEnd (s : State) (g : Nat) : exec (.fallingPhaseEnd g) s = .next (s.fallingEnd g) := rfl

variable (hg : g < 3) (hs : (s.group g).state = .falling)
include hg hs

theorem State.fallingEnd_clock (hp : (s.group g).phase = some .clock) :
    s.fallingEnd g = (s.setGroup g { s.group g with phase := some .memory, left := 16 }).setScratch g none := by
  unfold State.fallingEnd
  refine (if_neg (by simp [hs, hg])).trans ?_
  simp only [hp]
  rfl

theorem State.fallingEnd_memory (hp : (s.group g).phase = some .memory) :
    s.fallingEnd g = s.setGroup g { s.group g with phase := some .supply, left := 16, enable := false } := by
  unfold State.fallingEnd
  refine (if_neg (by simp [hs, hg])).trans ?_
  simp only [hp]
  rfl

theorem State.fallingEnd_supply (hp : (s.group g).phase = some .supply) :
    s.fallingEnd g = (s.setGroup g { s.group g with state := .off, phase := none, left := 0 }).groupEvent g false := by
  unfold State.fallingEnd
  refine (if_neg (by simp [hs, hg])).trans ?_
  simp only [hp]

end

/-! ## The statement -/

/-- Settles O45: GROUP_OFF in each state of the group, with FORCE and without, and the ends of the phases of FALLING. -/
theorem groupOff : Obligations.GroupOff := by
  refine ⟨fun s tag group hg => ⟨fun h => ⟨fun hs hf => ?_, fun hs hf => ?_, fun hs => ?_, fun hs => ?_⟩,
    fun h => ⟨fun hs => ?_, fun hs => ?_, fun hs => ?_⟩⟩, fun s g hg hs => ⟨fun hp => ?_, fun hp => ?_, fun hp => ?_⟩⟩
  · obtain ⟨falls, lanes, rest⟩ := State.falling_answer (s := s) (tag := tag) (g := group.toNat) rfl rfl
    exact ⟨_, exec_groupOff h (actGroupOff_falls hg hs hf), falls, fun n hn => (lanes n hn).1, rest⟩
  · rw [exec_groupOff h (actGroupOff_interlock hg hs hf), State.answer_refuse]
  · rw [exec_groupOff h (actGroupOff_busy hg hs), State.answer_refuse]
  · rw [exec_groupOff h (actGroupOff_off hg hs), State.answer_refuse]
  · exact ⟨_, exec_groupOffForce h (actGroupOffForce_falls hg hs),
      State.falling_answer (State.lanesReturned_still ..) rfl⟩
  · rw [exec_groupOffForce h (actGroupOffForce_busy hg hs), State.answer_refuse]
  · rw [exec_groupOffForce h (actGroupOffForce_off hg hs), State.answer_refuse]
  · refine ⟨_, congrArg Host.Outcome.next (State.fallingEnd_clock hg hs hp), State.setScratch_groups ..,
      fun n hn => State.setScratch_lane _ _ hn, fun n hn => State.setScratch_ne _ _ hn,
      State.setGroup_setScratch_eq ..⟩
  · rw [exec_fallingPhaseEnd, State.fallingEnd_memory hg hs hp]
  · exact ⟨_, congrArg Host.Outcome.next (State.fallingEnd_supply hg hs hp), State.group_setGroup_same .., rfl, rfl⟩

end Sys2Proof.Machine
end

section
/-! PROOF. How a working lane lets its job go: sanity expiry, a malformed source, a discard request
(R84, R85, R96 to R98, O47). -/

namespace Sys2Proof.Machine

/-! ## A lane left without a job, with both job lists empty -/

section
variable {s : State} {n : Nat} {st : LaneState} (hl : s.jdp.live = []) (hb : s.jdp.backlog = [])
include hl hb

/-- With both job lists empty the end of a step hands the lane no job and keeps the job records. -/
theorem State.laneWithout_finish_of_empty :
    ((s.laneWithout n st).finish.lane n).state = st ∧ ((s.laneWithout n st).finish.lane n).job = none
      ∧ ((s.laneWithout n st).finish.lane n).fault = (s.lane n).fault
      ∧ ∀ i, (s.laneWithout n st).finish.job? i = s.job? i := by
  obtain ⟨⟨y, hy⟩, core⟩ := State.finish_of_empty (s := s.laneWithout n st) (by rwa [State.laneWithout_jdp])
    (by rwa [State.laneWithout_jdp])
  refine ⟨(Lane.state_of_core (core n)).trans (State.laneWithout_state ..),
    (Lane.job_of_core (core n)).trans (State.laneWithout_job ..),
    (Lane.fault_of_core (core n)).trans (State.laneWithout_fault ..), fun i => ?_⟩
  rw [State.job?, hy, State.laneWithout_jdp]
  rfl

theorem State.laneWithout_finish_jobFailed (h : s.condition .jobFailed = true) :
    (s.laneWithout n st).finish.condition .jobFailed = true := by
  refine State.finish_jobFailed (by rwa [State.laneWithout_condition]) (State.dispatchLoop_empty _ _ ?_ ?_)
  · rwa [State.evalLaneFailed_jdp, State.laneWithout_jdp]
  · rwa [State.evalLaneFailed_jdp, State.laneWithout_jdp]

end

section
variable {s : State} {n k : Nat} {j : Job}

/-- A lane's job ends FAILED: its chunk is overtaken, the job fails, and the lane is free of it. -/
theorem State.failLaneJob_eq (hk : (s.lane n).job = some k) (hj : s.job? k = some j) (reason : FailReason) :
    s.failLaneJob n reason = ((s.overtake n).failJob k j reason).laneWithout n (afterJob (s.lane n).state) := by
  unfold State.failLaneJob
  rw [State.laneJob_eq hk hj, hk]

/-- A job that ends FAILED adds no job to a list. -/
theorem State.failJob_overtake_empty (hl : s.jdp.live = []) (hb : s.jdp.backlog = []) (reason : FailReason) :
    ((s.overtake n).failJob k j reason).jdp.live = [] ∧ ((s.overtake n).failJob k j reason).jdp.backlog = [] := by
  rw [State.failJob_jdp, State.overtake_jdp]
  simp only [hl, hb, List.filter_nil, and_self]

theorem State.failJob_overtake_fault (reason : FailReason) :
    (((s.overtake n).failJob k j reason).lane n).fault = (s.lane n).fault := by
  rw [State.lane_of_lanes (State.failJob_lanes ..), State.overtake_lane]

/-- A lane whose job ends FAILED, with both job lists empty (R85, R97). -/
theorem State.failLaneJob_finish (hk : (s.lane n).job = some k) (hj : s.job? k = some j) (hl : s.jdp.live = [])
    (hb : s.jdp.backlog = []) (reason : FailReason) :
    ((s.failLaneJob n reason).finish.lane n).state = afterJob (s.lane n).state
      ∧ ((s.failLaneJob n reason).finish.lane n).job = none
      ∧ ((s.failLaneJob n reason).finish.lane n).fault = (s.lane n).fault
      ∧ (s.failLaneJob n reason).finish.job? k = none
      ∧ (s.failLaneJob n reason).finish.condition .jobFailed = true := by
  rw [State.failLaneJob_eq hk hj]
  obtain ⟨live, backlog⟩ := State.failJob_overtake_empty (n := n) (k := k) (j := j) hl hb reason
  obtain ⟨state, job, fault, jobs⟩ := State.laneWithout_finish_of_empty (n := n) (st := afterJob (s.lane n).state)
    live backlog
  exact ⟨state, job, fault.trans (State.failJob_overtake_fault reason), (jobs k).trans (State.failJob_job? ..),
    State.laneWithout_finish_jobFailed live backlog (State.failJob_condition ..)⟩

/-- A lane fails only while it works. -/
theorem State.laneFails_works (hw : (s.lane n).works = true) (reason : FailReason) :
    s.laneFails n reason = (s.failLaneJob n reason).finish := if_pos hw

/-! ## Sanity expiry (R84, R96) -/

/-- A lane whose sanity timer has run out: last fault SANITY, FAILED, without a job. -/
def State.sanityFault (s : State) (n : Nat) : State :=
  (s.setLane n { s.lane n with fault := some .sanity }).laneWithout n .failed

theorem State.sanityFault_lane (s : State) (n : Nat) : ((s.sanityFault n).lane n).state = .failed
    ∧ ((s.sanityFault n).lane n).fault = some .sanity ∧ ((s.sanityFault n).lane n).job = none := by
  refine ⟨State.laneWithout_state .., ?_, State.laneWithout_job ..⟩
  rw [State.sanityFault, State.laneWithout_fault, State.lane_setLane_same]

theorem State.sanityFault_ne (s : State) {n m : Nat} (h : m ≠ n) : (s.sanityFault n).lane m = s.lane m := by
  rw [State.sanityFault, State.laneWithout_ne _ _ h, State.lane_setLane_ne _ _ h]

theorem State.sanityFault_jdp (s : State) (n : Nat) : (s.sanityFault n).jdp = s.jdp := by
  rw [State.sanityFault, State.laneWithout_jdp, State.setLane_jdp]

theorem State.sanityFault_condition (s : State) (n : Nat) (c : Condition) :
    (s.sanityFault n).condition c = s.condition c := by
  rw [State.sanityFault, State.laneWithout_condition, State.setLane_condition]

/-- As the step ends the lane is FAILED with last fault SANITY, and LANE_FAILED active. -/
theorem State.sanityFault_finish (s : State) (hn : n < 12) : ((s.sanityFault n).finish.lane n).state = .failed
    ∧ ((s.sanityFault n).finish.lane n).fault = some .sanity ∧ ((s.sanityFault n).finish.lane n).job = none
    ∧ (s.sanityFault n).finish.condition .laneFailed = true := by
  obtain ⟨state, fault, job⟩ := s.sanityFault_lane n
  have works : ((s.sanityFault n).lane n).state ≠ .idle := by
    rw [state]
    exact nofun
  exact ⟨(State.finish_state works).trans state, (State.finish_fault works).trans fault,
    (State.finish_job works).trans job, State.finish_laneFailed hn state⟩

/-- No lane is IDLE after the fault of a lane where none was before. -/
theorem State.sanityFault_noIdle {t : State} (hi : s.anyIdle = false) (h : ∀ m, m ≠ n → t.lane m = s.lane m) :
    (t.sanityFault n).anyIdle = false :=
  State.anyIdle_of_one hi (by rw [(t.sanityFault_lane n).1]; exact nofun)
    fun m hm => (t.sanityFault_ne hm).trans (h m hm)

variable (hw : (s.lane n).works = true) (hk : (s.lane n).job = some k) (hj : s.job? k = some j)
include hw hk hj

theorem State.sanityExpire_eq {left : Nat} (ht : (s.lane n).timer = .running left) :
    s.sanityExpire n = ((if j.attempts + 1 < 3 then (s.overtake n).returnJob k { j with attempts := j.attempts + 1 }
      else (s.overtake n).failJob k { j with attempts := j.attempts + 1 } .sanity).sanityFault n).finish := by
  unfold State.sanityExpire
  rw [hw, ht, State.laneJob_eq hk hj, hk]
  rfl

omit hw hk hj in
theorem exec_discardRequest (s : State) (n k : Nat) : exec (.discardRequest n k) s
    = .next ((s.received (.discardRequest n k)).discardJob n k) := rfl

omit hj in
/-- A discard request for the job of a working lane frees the job's record (R98). -/
theorem State.discardJob_eq :
    s.discardJob n k = (((s.overtake n).freeJob k).laneWithout n (afterJob (s.lane n).state)).finish := if_pos ⟨hk, hw⟩

end

/-! ## The statement -/

section
variable {s : State} {n k : Nat} {j : Job} (hn : n < 12) (hw : (s.lane n).works = true) (hk : (s.lane n).job = some k)
  (hj : s.job? k = some j)
include hw hk hj

include hn in
/-- A sanity expiry (R84, R96): the job returns on its first two, and ends on its third. -/
theorem exec_sanityTimerExpiry_fails {left : Nat} (ht : (s.lane n).timer = .running left) :
    ∃ t, exec (.sanityTimerExpiry n) s = .next t ∧ (t.lane n).state = .failed ∧ (t.lane n).fault = some .sanity
      ∧ (t.lane n).job = none ∧ t.condition .laneFailed = true
      ∧ (s.anyIdle = false → j.attempts < 2 → s.sent.any (isDiscardOf k) = false →
          t.job? k = some { j with attempts := j.attempts + 1, lane := none, order := none }
          ∧ t.jdp.list j.cls = k :: s.jdp.list j.cls)
      ∧ (s.anyIdle = false → 2 ≤ j.attempts → t.job? k = none ∧ t.condition .jobFailed = true) := by
  have fails := fun t => State.sanityFault_finish (n := n) t hn
  by_cases few : j.attempts + 1 < 3
  · have step := State.sanityExpire_eq hw hk hj ht
    rw [if_pos few] at step
    obtain ⟨state, fault, job, failed⟩ := fails ((s.overtake n).returnJob k { j with attempts := j.attempts + 1 })
    refine ⟨_, congrArg Host.Outcome.next step, state, fault, job, failed, fun hi _ hd => ?_, fun _ many => by omega⟩
    have idle := State.sanityFault_noIdle (n := n)
      (t := (s.overtake n).returnJob k { j with attempts := j.attempts + 1 }) hi fun m hm => (State.lane_of_lanes (State.returnJob_lanes ..) m).trans (State.overtake_ne _ hm)
    obtain ⟨record, list⟩ := State.returnJob_returns (s := s.overtake n) (k := k)
      (j := { j with attempts := j.attempts + 1 }) (by rwa [State.overtake_sent])
    rw [State.finish_job?_of_noIdle idle, State.finish_list_of_noIdle idle,
      State.job?_of_jdp (State.sanityFault_jdp ..), State.sanityFault_jdp]
    exact ⟨record, list.trans (congrArg _ (State.overtake_list ..))⟩
  · have step := State.sanityExpire_eq hw hk hj ht
    rw [if_neg few] at step
    obtain ⟨state, fault, job, failed⟩ := fails ((s.overtake n).failJob k { j with attempts := j.attempts + 1 } .sanity)
    refine ⟨_, congrArg Host.Outcome.next step, state, fault, job, failed, fun _ less => by omega, fun hi _ => ?_⟩
    have idle := State.sanityFault_noIdle (n := n)
      (t := (s.overtake n).failJob k { j with attempts := j.attempts + 1 } .sanity)
      hi fun m hm => (State.lane_of_lanes (State.failJob_lanes ..) m).trans (State.overtake_ne _ hm)
    refine ⟨?_, State.finish_jobFailed ?_ (State.dispatchLoop_busy _ _ (State.find_of_noIdle ?_))⟩
    · rw [State.finish_job?_of_noIdle idle, State.job?_of_jdp (State.sanityFault_jdp ..), State.failJob_job?]
    · rw [State.sanityFault_condition, State.failJob_condition]
    · rwa [State.anyIdle_evalLaneFailed]

/-- A malformed source ends the job FAILED (R85, R97), with both job lists empty. -/
theorem exec_sourceMalformed_fails (hl : s.jdp.live = []) (hb : s.jdp.backlog = []) :
    ∃ t, exec (.sourceMalformed n) s = .next t ∧ (t.lane n).state = afterJob (s.lane n).state
      ∧ (t.lane n).job = none ∧ (t.lane n).fault = (s.lane n).fault ∧ t.job? k = none
      ∧ t.condition .jobFailed = true :=
  ⟨_, congrArg Host.Outcome.next (State.laneFails_works hw .sourceMalformed), State.failLaneJob_finish hk hj hl hb _⟩

omit hj in
/-- A discard request for the lane's job frees its record (R98), with both job lists empty. -/
theorem exec_discardRequest_frees (hl : s.jdp.live = []) (hb : s.jdp.backlog = []) :
    ∃ t, exec (.discardRequest n k) s = .next t ∧ (t.lane n).state = afterJob (s.lane n).state
      ∧ (t.lane n).job = none ∧ t.job? k = none := by
  obtain ⟨u, hu⟩ : ∃ u, u = s.received (.discardRequest n k) := ⟨_, rfl⟩
  have lane : u.lane n = s.lane n := by rw [hu]; rfl
  have lists : ((u.overtake n).freeJob k).jdp.live = [] ∧ ((u.overtake n).freeJob k).jdp.backlog = [] := by
    rw [State.freeJob_jdp, State.overtake_jdp, hu]
    show List.filter _ s.jdp.live = [] ∧ List.filter _ s.jdp.backlog = []
    simp only [hl, hb, List.filter_nil, and_self]
  obtain ⟨live, backlog⟩ := lists
  obtain ⟨state, job, -, jobs⟩ := State.laneWithout_finish_of_empty (n := n) (st := afterJob (u.lane n).state) live
    backlog
  have gone := (jobs k).trans (State.freeJob_job? (u.overtake n) k)
  have after : afterJob (u.lane n).state = afterJob (s.lane n).state := by rw [lane]
  refine ⟨_, ?_, state.trans after, job, gone⟩
  rw [exec_discardRequest, ← hu, State.discardJob_eq (s := u) (lane ▸ hw) (lane ▸ hk)]

omit hw hj in
/-- A discard request for a job that the lane does not hold finds nothing (R98). -/
theorem exec_discardRequest_other {m : Nat} (hm : m ≠ k) :
    exec (.discardRequest n m) s = .next (s.received (.discardRequest n m)) :=
  congrArg Host.Outcome.next (if_neg fun h => hm (Option.some.inj (h.1.symm.trans hk)))

end

/-- Settles O47: the sanity expiry, the malformed source, and the discard request for the lane's job and for another. -/
theorem laneLetsJobGo : Obligations.LaneLetsJobGo :=
  ⟨fun _ _ _ _ _ hn hw ht hk hj => exec_sanityTimerExpiry_fails hn hw hk hj ht,
    fun _ _ _ _ _ hw hk hj => ⟨fun hl hb => ⟨exec_sourceMalformed_fails hw hk hj hl hb,
      exec_discardRequest_frees hw hk hl hb⟩, fun _ hm => exec_discardRequest_other hk hm⟩⟩

end Sys2Proof.Machine
end

section
/-! PROOF. The commit of a chunk in the store: the messages under way, the extents, the claims, and the page buffers
that are offered to their banks (R123, R125). -/

namespace Sys2Proof.Machine

/-! ## What an offer leaves (R125) -/

theorem State.sent_of_ledger {s t : State} (h : t.ledger = s.ledger) : t.sent = s.sent := congrArg Prod.fst h

theorem State.extents_of_ledger {s t : State} (h : t.ledger = s.ledger) : t.stc.extents = s.stc.extents :=
  congrArg Prod.snd h

theorem State.extent?_of_ledger {s t : State} (h : t.ledger = s.ledger) (e : Nat) : t.extent? e = s.extent? e :=
  congrArg (Table.at? · e) (State.extents_of_ledger h)

theorem State.claims_of_waits {s t : State} (h : t.waits = s.waits) : t.stc.claims = s.stc.claims := congrArg Prod.fst h

theorem State.relocations_of_waits {s t : State} (h : t.waits = s.waits) : t.stc.relocations = s.stc.relocations :=
  congrArg Prod.snd h

theorem State.offer_ledger (s : State) (i : Nat) : (s.offer i).ledger = s.ledger := by
  unfold State.offer
  dsimp only
  (repeat' split) <;> simp

theorem State.offer_waits (s : State) (i : Nat) : (s.offer i).waits = s.waits := by
  unfold State.offer State.joinCopy
  dsimp only
  (repeat' split)
  · rfl
  · rfl
  · exact (State.afterJoin_waits ..).trans rfl
  · exact (State.afterJoin_waits ..).trans rfl
  · exact (State.afterJoin_waits ..).trans rfl

theorem State.afterJoin_startsPrograms (s : State) (b : Nat) : s.startsPrograms (s.afterJoin b) := by
  unfold State.afterJoin
  dsimp only
  (repeat' split)
  · exact State.startsPrograms_of_buffers rfl
  · exact State.arbitrate_startsPrograms ..
  · exact State.arbitrate_startsPrograms ..

/-- With no relocation an offer may start programs, and changes no page buffer but for that. -/
theorem State.offer_startsPrograms {s : State} (hr : s.stc.relocations = []) (i : Nat) :
    s.startsPrograms (s.offer i) := by
  have joins : ∀ (b : Nat) (y : Bank), s.startsPrograms ((s.setBank b y).afterJoin b) := fun b y =>
    (State.startsPrograms_of_buffers (s := s) (t := s.setBank b y) rfl).trans (State.afterJoin_startsPrograms ..)
  have still : ∀ g, s.relocating g = false := fun g => by rw [State.relocating, hr]; rfl
  unfold State.offer State.joinCopy
  dsimp only
  split
  · exact State.startsPrograms_of_buffers rfl
  · rw [still, if_neg Bool.false_ne_true]
    (repeat' split) <;> exact joins ..

/-! ## Offering one page buffer after another -/

/-- From `s` to `t` page buffers have been offered, with no relocation. -/
structure State.offers (s t : State) (l : List Nat) : Prop where
  starts : s.startsPrograms t
  programs : ∀ c p, s.programs c p → t.programs c p
  offered : ∀ i ∈ l, ∀ b e, s.buf? i = some b → b.owner = .own (.extent e) →
    t.programs (bankOf b.block) ⟨i, b.block, b.page⟩

theorem State.foldl_offer_offers (l : Table Nat) {s : State} (hr : s.stc.relocations = []) :
    s.offers (l.foldl (fun q e => q.offer e.2) s) (l.map (fun e => e.2)) := by
  induction l generalizing s with
  | nil => exact ⟨State.startsPrograms_of_buffers rfl, fun _ _ h => h, fun _ h => by cases h⟩
  | cons a l ih =>
    have later := ih ((State.relocations_of_waits (s.offer_waits a.2)).trans hr)
    have first := State.offer_startsPrograms hr a.2
    refine ⟨first.trans later.starts, fun c p h => later.programs c p (State.offer_programs _ h),
      fun i hi b e hb ho => ?_⟩
    rcases List.mem_cons.1 hi with rfl | hi
    · refine later.programs _ _ (State.offer_offered hb ho ?_)
      rw [State.relocating, hr]
      rfl
    · rcases first.buffers i with same | ⟨d, hd, starts⟩
      · exact later.offered i hi b e (same.trans hb) ho
      · obtain rfl := Option.some.inj (hd.symm.trans hb)
        exact later.offered i hi { d with state := .programming } e starts ho

/-! ## The commit (R125) -/

/-- The page buffers of an extent that no discard has reached. -/
def State.extentBuffers (s : State) (e : Nat) : Table Buf :=
  s.stc.buffers.filter (fun b => b.2.owner == .own (.extent e) && !b.2.discarded)

/-- The bytes of a page buffer that stand before an output offset. -/
def upTo (x : Extent) (length : Nat) (b : Buf) : Nat := min b.data.length (length - outputBase x.blocks b)

/-- An extent's committed length and its page buffers' committed counts advanced, nothing offered yet. -/
def State.advance (s : State) (e : Nat) (x : Extent) (length : Nat) : State :=
  (s.extentBuffers e).foldl (fun q b => q.setBuf b.1 { b.2 with committed := upTo x length b.2 })
    (s.setExtent e { x with committed := length })

/-- The page buffers of an extent that a commit offers, in page order. -/
def State.readyBuffers (s : State) (e : Nat) (x : Extent) (length : Nat) : Table Nat :=
  ((s.extentBuffers e).filter (fun b => b.2.state == .pending && b.2.committed != b.2.data.length
    && upTo x length b.2 == b.2.data.length)).foldl
      (fun (t : Table Nat) b => t.enter (outputBase x.blocks b.2) b.1) []

section
variable {s : State} {e : Nat} {x : Extent} {length : Nat}

theorem State.commitExtent_eq (s : State) (e : Nat) (x : Extent) (length : Nat) :
    s.commitExtent e x length
      = (s.readyBuffers e x length).foldl (fun q b => q.offer b.2) (s.advance e x length) := rfl

theorem State.mem_readyBuffers {i : Nat} {b : Buf} (h : (i, b) ∈ s.extentBuffers e) (hp : b.state = .pending)
    (hc : b.committed ≠ b.data.length) (hu : upTo x length b = b.data.length) :
    i ∈ (s.readyBuffers e x length).map (fun b => b.2) := by
  refine List.mem_map.2 ⟨(outputBase x.blocks b, i), (Table.mem_foldl_enter ..).2 (.inr ⟨(i, b), ?_, rfl⟩), rfl⟩
  exact List.mem_filter.2 ⟨h, by simp [hp, hc, hu]⟩

theorem State.advance_ledger (s : State) (e : Nat) (x : Extent) (length : Nat) :
    (s.advance e x length).ledger = (s.setExtent e { x with committed := length }).ledger :=
  foldl_keeps State.ledger _ (fun _ _ => State.setBuf_ledger ..) _ _

theorem State.advance_waits (s : State) (e : Nat) (x : Extent) (length : Nat) :
    (s.advance e x length).waits = s.waits :=
  foldl_keeps State.waits (fun q (b : Nat × Buf) => q.setBuf b.1 { b.2 with committed := upTo x length b.2 })
    (fun _ _ => rfl) (s.extentBuffers e) (s.setExtent e { x with committed := length })

theorem State.commitExtent_ledger (s : State) (e : Nat) (x : Extent) (length : Nat) :
    (s.commitExtent e x length).ledger = (s.setExtent e { x with committed := length }).ledger :=
  (foldl_keeps State.ledger (fun q (b : Nat × Nat) => q.offer b.2) (fun q b => q.offer_ledger b.2) _ _).trans
    (State.advance_ledger ..)

theorem State.commitExtent_waits (s : State) (e : Nat) (x : Extent) (length : Nat) :
    (s.commitExtent e x length).waits = s.waits :=
  (foldl_keeps State.waits (fun q (b : Nat × Nat) => q.offer b.2) (fun q b => q.offer_waits b.2) _ _).trans
    (State.advance_waits ..)

/-- Writing one page buffer after another, each its own, leaves each as its own write does. -/
theorem foldl_setBuf_buf? (f : Buf → Buf) (l : Table Buf) (hl : l.sorted) {q : State} {i : Nat} {b : Buf}
    (h : (i, b) ∈ l) : (l.foldl (fun q b => q.setBuf b.1 (f b.2)) q).buf? i = some (f b) := by
  have others : ∀ (t : Table Buf) (q : State), i ∉ t.map (fun b => b.1) →
      (t.foldl (fun q b => q.setBuf b.1 (f b.2)) q).buf? i = q.buf? i := by
    intro t
    induction t with
    | nil => exact fun _ _ => rfl
    | cons a t it =>
      intro q h
      obtain ⟨ha, ht⟩ := not_or.1 (mt List.mem_cons.2 h)
      rw [List.foldl_cons, it _ ht, State.buf?_setBuf_ne _ _ ha]
  induction l generalizing q with
  | nil => cases h
  | cons a l ih =>
    rw [List.foldl_cons]
    rcases List.mem_cons.1 h with rfl | h
    · rw [others _ _ fun again => ?_, State.buf?_setBuf_same]
      exact absurd (List.rel_of_pairwise_cons hl again) (lt_irrefl _)
    · exact ih (List.Pairwise.of_cons hl) h

theorem State.extentBuffers_sorted (h : s.stc.buffers.sorted) (e : Nat) : (s.extentBuffers e).sorted :=
  List.Pairwise.sublist (List.filter_sublist.map _) h

theorem State.mem_extentBuffers {i : Nat} {b : Buf} (hb : s.buf? i = some b) (ho : b.owner = .own (.extent e))
    (hd : b.discarded = false) : (i, b) ∈ s.extentBuffers e :=
  List.mem_filter.2 ⟨Table.mem_of_at? hb, by simp [ho, hd]⟩

/-- A page buffer after the commit: its bytes kept, its committed count advanced, a program of it perhaps begun. -/
theorem State.commitExtent_buf? (hs : s.stc.buffers.sorted) (hr : s.stc.relocations = []) {i : Nat} {b : Buf}
    (hb : s.buf? i = some b) (ho : b.owner = .own (.extent e)) (hd : b.discarded = false) :
    (∃ c, (s.commitExtent e x length).buf? i = some c ∧ c.data = b.data ∧ c.committed = upTo x length b)
      ∧ (b.state = .pending → b.committed ≠ b.data.length → upTo x length b = b.data.length →
          (s.commitExtent e x length).programs (bankOf b.block) ⟨i, b.block, b.page⟩) := by
  have mine := State.mem_extentBuffers hb ho hd
  have written : (s.advance e x length).buf? i = some { b with committed := upTo x length b } :=
    foldl_setBuf_buf? (fun b => { b with committed := upTo x length b }) _ (State.extentBuffers_sorted hs e) mine
  have offers := State.foldl_offer_offers (s.readyBuffers e x length) (s := s.advance e x length)
    ((State.relocations_of_waits (s.advance_waits e x length)).trans hr)
  rw [← State.commitExtent_eq] at offers
  refine ⟨?_, fun hp hc hu => offers.offered i (State.mem_readyBuffers mine hp hc hu)
    { b with committed := upTo x length b } e written ho⟩
  rcases offers.starts.buffers i with same | ⟨d, hd, starts⟩
  · exact ⟨_, same.trans written, rfl, rfl⟩
  · obtain rfl := Option.some.inj (hd.symm.trans written)
    exact ⟨_, starts, rfl, rfl⟩

end

/-! ## The end of an extent's output (R93) -/

theorem le_foldl_max {α : Type} (f : α → Nat) (l : List α) (a : Nat) :
    a ≤ l.foldl (fun a e => max a (f e)) a ∧ ∀ e ∈ l, f e ≤ l.foldl (fun a e => max a (f e)) a := by
  induction l generalizing a with
  | nil => exact ⟨le_refl a, fun _ h => by cases h⟩
  | cons c l ih =>
    obtain ⟨start, rest⟩ := ih (max a (f c))
    refine ⟨(le_max_left ..).trans start, fun e he => ?_⟩
    rcases List.mem_cons.1 he with rfl | he
    · exact (le_max_right ..).trans start
    · exact rest e he

/-- All the bytes of an extent's page buffer stand before the end of its output. -/
theorem State.upTo_extentEnd {s : State} {e i : Nat} {x : Extent} {b : Buf} (h : (i, b) ∈ s.extentBuffers e) :
    upTo x (s.extentEnd e x) b = b.data.length := by
  have reach := (le_foldl_max (fun b : Nat × Buf => outputBase x.blocks b.2 + b.2.data.length) (s.extentBuffers e)
    x.committed).2 _ h
  change outputBase x.blocks b + b.data.length ≤ s.extentEnd e x at reach
  unfold upTo
  omega

/-! ## The close of an extent (R123) -/

section
variable {s : State}

theorem State.padBuffer_ledger (s : State) (i : Nat) : (s.padBuffer i).ledger = s.ledger := by
  unfold State.padBuffer
  split
  · rfl
  · rw [State.offer_ledger, State.setBuf_ledger]

theorem State.padBuffer_waits (s : State) (i : Nat) : (s.padBuffer i).waits = s.waits := by
  unfold State.padBuffer
  split
  · rfl
  · exact (State.offer_waits ..).trans rfl

theorem State.sealTail_ledger (s : State) (o : Owner) (blocks : List Nat) :
    (s.sealTail o blocks).ledger = s.ledger := by
  unfold State.sealTail
  dsimp only
  (repeat' split) <;> simp [State.padBuffer_ledger]

theorem State.setBlockState_waits (s : State) (g : Nat) (x : BlockState) : (s.setBlockState g x).waits = s.waits := rfl

theorem State.sealTail_waits (s : State) (o : Owner) (blocks : List Nat) : (s.sealTail o blocks).waits = s.waits := by
  unfold State.sealTail
  dsimp only
  (repeat' split) <;> simp only [State.padBuffer_waits, State.setBlockState_waits]

theorem State.closeExtent_waits (s : State) (n slot segment rendition : Nat) :
    (s.closeExtent n slot segment rendition).waits = s.waits := by
  unfold State.closeExtent
  split
  · rfl
  split
  · exact (show _ = (s.sealTail ..).waits from rfl).trans (State.sealTail_waits ..)
  · rfl

/-- A close makes a WRITING extent CLOSED, and leaves the messages under way. -/
theorem State.closeExtent_closes {n slot segment rendition : Nat} {x : Extent}
    (h : s.extentFor n slot segment rendition = some x) :
    (s.closeExtent n slot segment rendition).sent = s.sent
      ∧ (s.closeExtent n slot segment rendition).extent? n
        = some { x with state := if x.state = .writing then .closed else x.state } := by
  simp only [State.closeExtent, h]
  by_cases hw : x.state = .writing
  · rw [if_pos hw, if_pos hw]
    exact ⟨(State.setExtent_sent ..).trans (State.sent_of_ledger (State.sealTail_ledger ..)), Table.at?_put_same ..⟩
  · rw [if_neg hw, if_neg hw]
    exact ⟨rfl, State.extent?_of_extentFor h⟩

end

/-! ## The end of a step with no claim waiting (R129) -/

theorem State.level_ledger (s : State) (k : Condition) (b : Bool) : (s.level k b).ledger = s.ledger := by
  unfold State.level
  split
  · exact State.raise_ledger ..
  · rfl

/-- With both job lists empty and no claim waiting, the end of a step leaves the messages and the extents. -/
theorem State.finish_ledger {s : State} (hl : s.jdp.live = []) (hb : s.jdp.backlog = []) (hc : s.stc.claims = []) :
    s.finish.ledger = s.ledger := by
  obtain ⟨y, hy⟩ := State.settle_eq s.evalLaneFailed
    (State.dispatchLoop_empty _ _ (by rw [State.evalLaneFailed_jdp, hl]) (by rw [State.evalLaneFailed_jdp, hb]))
  have claims : s.evalLaneFailed.settle.stc.claims = [] := by
    rw [hy]
    exact (congrArg Stc.claims (State.level_stc ..)).trans hc
  unfold State.finish
  rw [State.serveClaims_noClaims claims, State.resumeCopies_ledger, hy]
  exact State.level_ledger ..

/-- With no relocation either it leaves the store. -/
theorem State.finish_stc {s : State} (hl : s.jdp.live = []) (hb : s.jdp.backlog = []) (hc : s.stc.claims = [])
    (hr : s.stc.relocations = []) : s.finish.stc = s.stc := by
  obtain ⟨y, hy⟩ := State.settle_eq s.evalLaneFailed
    (State.dispatchLoop_empty _ _ (by rw [State.evalLaneFailed_jdp, hl]) (by rw [State.evalLaneFailed_jdp, hb]))
  have stc : s.evalLaneFailed.settle.stc = s.stc := by
    rw [hy]
    exact State.level_stc ..
  unfold State.finish
  rw [State.serveClaims_noClaims (by rw [stc, hc]), State.resumeCopies, stc, hr]
  exact stc

end Sys2Proof.Machine
end

section
/-! PROOF. The end of a chunk: its commit, and what follows it on a lane without a yield (R95, R101). -/

namespace Sys2Proof.Machine

/-! ## The last output of a chunk (R93) -/

theorem State.laneFill_ne (s : State) {n m : Nat} (h : m ≠ n) : (s.laneFill n).lane m = s.lane m := by
  unfold State.laneFill
  dsimp only
  split
  · exact State.lane_setLane_ne _ _ h
  split
  · rfl
  split
  · rfl
  · exact State.lane_setLane_ne _ _ h

theorem State.laneFill_ledger (s : State) (n : Nat) : (s.laneFill n).ledger = s.ledger := by
  unfold State.laneFill
  dsimp only
  (repeat' split) <;> rfl

theorem State.laneFill_waits (s : State) (n : Nat) : (s.laneFill n).waits = s.waits := by
  unfold State.laneFill
  dsimp only
  (repeat' split) <;> rfl

theorem State.laneFill_sorted {s : State} (h : s.stc.buffers.sorted) (n : Nat) : (s.laneFill n).stc.buffers.sorted := by
  unfold State.laneFill
  dsimp only
  split
  · exact h
  split
  · exact h
  split
  · exact h
  · exact Table.sorted_put _ _ _ h

section
variable (s : State) (n : Nat) (output : List Byte)

theorem State.laneWrites_ne {m : Nat} (h : m ≠ n) : (s.laneWrites n output).lane m = s.lane m := by
  unfold State.laneWrites
  rw [State.laneFill_ne _ h, State.lane_setLane_ne _ _ h]

theorem State.laneWrites_sorted (s : State) (h : s.stc.buffers.sorted) (n : Nat) (output : List Byte) :
    (s.laneWrites n output).stc.buffers.sorted :=
  State.laneFill_sorted (s := s.setLane n { s.lane n with output := (s.lane n).output ++ output }) h n

theorem State.laneWrites_ledger : (s.laneWrites n output).ledger = s.ledger := State.laneFill_ledger ..

theorem State.laneWrites_waits : (s.laneWrites n output).waits = s.waits := State.laneFill_waits ..

theorem State.laneWrites_sgc : (s.laneWrites n output).sgc = s.sgc := State.laneFill_sgc ..

end

/-! ## The commit of a chunk (R95) -/

/-- A chunk's output committed in its extent, where the record is still in use for the lane's job. -/
def State.commitOutput (s : State) (n : Nat) : State :=
  match s.laneExtent n with
  | none => s
  | some (e, x) => s.commitExtent e x (s.extentEnd e x)

theorem State.commitChunk_eq (s : State) (n k : Nat) (j : Job) : s.commitChunk n k j
    = (((s.commitOutput n).setJob k { j with done := j.done + 1 }).withdrawReads (Reader.ofLane n)).setLane n
      { (s.commitOutput n).lane n with timer := .stopped } := rfl

section
variable {s : State} {n k : Nat} {j : Job}

theorem State.commitOutput_some {e : Nat} {x : Extent} (h : s.laneExtent n = some (e, x)) :
    s.commitOutput n = s.commitExtent e x (s.extentEnd e x) := by
  rw [State.commitOutput, h]

theorem State.commitOutput_above (s : State) (n : Nat) : (s.commitOutput n).above = s.above := by
  unfold State.commitOutput
  split
  · rfl
  · exact State.commitExtent_above ..

theorem State.commitOutput_sent (s : State) (n : Nat) : (s.commitOutput n).sent = s.sent := by
  unfold State.commitOutput
  split
  · rfl
  · exact (State.sent_of_ledger (State.commitExtent_ledger ..)).trans (State.setExtent_sent ..)

theorem State.commitOutput_waits (s : State) (n : Nat) : (s.commitOutput n).waits = s.waits := by
  unfold State.commitOutput
  split
  · rfl
  · exact State.commitExtent_waits ..

/-- From `s` to `t` lane `n` has committed a chunk of its job. -/
structure State.commits (s t : State) (n k : Nat) (j : Job) : Prop where
  core : ∀ m, (t.lane m).core = (s.lane m).core
  others : ∀ m, m ≠ n → t.lane m = s.lane m
  jdp : t.jdp = { s.jdp with jobs := s.jdp.jobs.put k { j with done := j.done + 1 } }
  sent : t.sent = s.sent
  sgc : t.sgc = s.sgc
  waits : t.waits = s.waits

theorem State.commitChunk_commits (s : State) (n k : Nat) (j : Job) : s.commits (s.commitChunk n k j) n k j := by
  have above := s.commitOutput_above n
  have lane := State.lane_of_lanes (State.lanes_of_above above)
  have jdp := State.jdp_of_above above
  have sgc := State.sgc_of_above above
  have sent := s.commitOutput_sent n
  have waits := s.commitOutput_waits n
  rw [State.commitChunk_eq]
  generalize s.commitOutput n = q at above lane jdp sgc sent waits
  have others : ∀ m, m ≠ n → (((q.setJob k { j with done := j.done + 1 }).withdrawReads (Reader.ofLane n)).setLane n
      { q.lane n with timer := .stopped }).lane m = s.lane m := fun m hm => by
    rw [State.lane_setLane_ne _ _ hm]
    exact lane m
  refine ⟨fun m => ?_, others, ?_, sent, sgc, waits⟩
  · by_cases hm : m = n
    · subst hm
      rw [State.lane_setLane_same, lane]
      rfl
    · rw [others m hm]
  · rw [← jdp]
    rfl

theorem State.commits.after {t : State} {output : List Byte} (h : (s.laneWrites n output).commits t n k j) :
    s.commits t n k j where
  core m := (h.core m).trans (s.laneWrites_core n output m)
  others m hm := (h.others m hm).trans (s.laneWrites_ne n output hm)
  jdp := by rw [h.jdp, State.laneWrites_jdp]
  sent := h.sent.trans (State.sent_of_ledger (s.laneWrites_ledger n output))
  sgc := h.sgc.trans (s.laneWrites_sgc n output)
  waits := h.waits.trans (s.laneWrites_waits n output)

/-! ## What follows a commit (R95, R101) -/

section
variable (hy : n ∉ s.jdp.yields)
include hy

/-- With chunks left a lane that is not DRAINING goes on with the next one. -/
theorem State.afterCommit_goes (hd : j.done ≠ j.total) (hs : (s.lane n).state ≠ .draining) :
    s.afterCommit n k j = s.startChunk n j j.done (s.lane n).nextPositions := by
  unfold State.afterCommit
  have no : s.jdp.yields.contains n = false := by simpa using hy
  simp only [no, if_neg hd, if_neg hs, Bool.false_eq_true, if_false]

/-- The last chunk ends the job. -/
theorem State.afterCommit_ends (hd : j.done = j.total) : s.afterCommit n k j
    = ((s.clearYield n).finishJob k j (j.extent.getD 0)).laneWithout n (afterJob (s.lane n).state) := by
  unfold State.afterCommit
  have no : s.jdp.yields.contains n = false := by simpa using hy
  simp only [no, if_pos hd, Bool.false_eq_true, if_false]

/-- With chunks left a DRAINING lane is OUT, and its job returns. -/
theorem State.afterCommit_drains (hd : j.done ≠ j.total) (hs : (s.lane n).state = .draining) :
    s.afterCommit n k j = (s.returnJob k j).laneWithout n .out := by
  unfold State.afterCommit
  have no : s.jdp.yields.contains n = false := by simpa using hy
  simp only [no, if_neg hd, if_pos hs, Bool.false_eq_true, if_false]

end

/-- The state in which a lane with a yield takes the head of the LIVE list: its yield spent, its job returned. -/
def State.yielded (t : State) (n k : Nat) (j : Job) : State :=
  ((t.clearYield n).returnJob k j).setLane n { ((t.clearYield n).returnJob k j).lane n with
    job := none, positions := PerRole.all none }

/-- With chunks left a lane with a yield gives its job back, and takes the head of the LIVE list (R82). -/
theorem State.afterCommit_yields (hy : n ∈ s.jdp.yields) (hd : j.done ≠ j.total) :
    s.afterCommit n k j = State.takeLive n ((s.yielded n k j).jdp.live.length + 1) (s.yielded n k j) := by
  unfold State.afterCommit
  have yes : s.jdp.yields.contains n = true := by simpa using hy
  simp only [yes, if_neg hd, if_true]
  rfl

end

/-! ## The end of a chunk -/

section
variable {s : State} {n k : Nat} {j : Job} {output : List Byte}

/-- The state once a chunk has been committed (R95 steps 1 to 3). -/
def State.chunkCommitted (s : State) (n k : Nat) (j : Job) (output : List Byte) : State :=
  (s.laneWrites n output).commitChunk n k j

theorem State.chunkCommitted_commits (s : State) (n k : Nat) (j : Job) (output : List Byte) :
    s.commits (s.chunkCommitted n k j output) n k j := (State.commitChunk_commits ..).after

/-- The end of a chunk that has been read to and written whole. -/
structure State.chunkEnds (s : State) (n k : Nat) (j : Job) (output : List Byte) : Prop where
  works : (s.lane n).works = true
  held : (s.lane n).held = .none
  reached : (s.lane n).allReached = true
  job : (s.lane n).job = some k
  record : s.job? k = some j
  written : ((s.laneWrites n output).lane n).output = []

theorem exec_chunkEnd (h : s.chunkEnds n k j output) : exec (.chunkEnd n output) s
    = .next ((s.chunkCommitted n k j output).afterCommit n k { j with done := j.done + 1 }).finish := by
  have record : (s.laneWrites n output).job? k = some j :=
    (State.job?_of_jdp (s.laneWrites_jdp n output) k).trans h.record
  show Host.Outcome.next (s.chunkDone n output) = _
  unfold State.chunkDone
  simp only [h.works, h.reached, h.held, h.job, h.written, record, Bool.and_self, List.isEmpty_nil, Bool.not_true,
    Bool.false_eq_true, if_false]
  rfl

section
variable {t : State} (h : s.commits t n k j)
include h

theorem State.commits.state : (t.lane n).state = (s.lane n).state := Lane.state_of_core (h.core n)

theorem State.commits.yields : t.jdp.yields = s.jdp.yields := by rw [h.jdp]

theorem State.commits.live : t.jdp.live = s.jdp.live := by rw [h.jdp]

theorem State.commits.backlog : t.jdp.backlog = s.jdp.backlog := by rw [h.jdp]

theorem State.commits.job? : t.job? k = some { j with done := j.done + 1 } := by
  rw [State.job?, h.jdp]
  exact Table.at?_put_same ..

/-- A BUSY lane with chunks left goes on with the next one, with both job lists empty. -/
theorem State.commits.goes (hy : n ∉ s.jdp.yields) (hl : s.jdp.live = []) (hb : s.jdp.backlog = [])
    (hs : (s.lane n).state = .busy) (hk : (s.lane n).job = some k) (hd : j.done + 1 ≠ j.total) {q : State}
    (hq : q = t.afterCommit n k { j with done := j.done + 1 }) :
    (q.finish.lane n).state = .busy ∧ (q.finish.lane n).job = some k ∧ (q.finish.lane n).chunk = j.done + 1
      ∧ q.finish.job? k = some { j with done := j.done + 1 } := by
  rw [State.afterCommit_goes (by rwa [h.yields]) hd (by rw [h.state, hs]; exact nofun)] at hq
  have jdp : q.jdp = t.jdp := by rw [hq]; rfl
  obtain ⟨⟨y, hy'⟩, core⟩ := State.finish_of_empty (s := q) (by rw [jdp, h.live, hl]) (by rw [jdp, h.backlog, hb])
  have lane : q.lane n = { t.lane n with
      chunk := j.done + 1, held := .none, timer := .running (t.chunkTicks { j with done := j.done + 1 })
      positions := (t.lane n).nextPositions, output := []
      reads := t.chunkReads { j with done := j.done + 1 } (t.lane n).nextPositions, received := [] } := by
    rw [hq]
    exact State.lane_setLane_same ..
  refine ⟨?_, ?_, ?_, ?_⟩
  · rw [Lane.state_of_core (core n), lane]
    exact h.state.trans hs
  · rw [Lane.job_of_core (core n), lane]
    exact (Lane.job_of_core (h.core n)).trans hk
  · rw [Lane.chunk_of_core (core n), lane]
  · rw [State.job?, hy', jdp]
    exact h.job?

/-- The last chunk ends the job, with both job lists empty. -/
theorem State.commits.ends (hy : n ∉ s.jdp.yields) (hl : s.jdp.live = []) (hb : s.jdp.backlog = [])
    (hd : j.done + 1 = j.total) {q : State} (hq : q = t.afterCommit n k { j with done := j.done + 1 }) :
    (q.finish.lane n).state = afterJob (s.lane n).state ∧ (q.finish.lane n).job = none ∧ q.finish.job? k = none := by
  rw [State.afterCommit_ends (by rwa [h.yields]) hd, h.state] at hq
  have jdp := (t.clearYield n).finishJob_jdp k { j with done := j.done + 1 } (j.extent.getD 0)
  obtain ⟨u, hu⟩ : ∃ u, u = (t.clearYield n).finishJob k { j with done := j.done + 1 } (j.extent.getD 0) := ⟨_, rfl⟩
  rw [← hu] at jdp hq
  have live : u.jdp.live = [] := by
    rw [jdp]
    exact (congrArg _ (h.live.trans hl)).trans (List.filter_nil ..)
  have backlog : u.jdp.backlog = [] := by
    rw [jdp]
    exact (congrArg _ (h.backlog.trans hb)).trans (List.filter_nil ..)
  obtain ⟨state, job, -, jobs⟩ := State.laneWithout_finish_of_empty (n := n) (st := afterJob (s.lane n).state) live
    backlog
  rw [hq]
  refine ⟨state, job, (jobs k).trans ?_⟩
  rw [State.job?, jdp]
  exact Table.at?_del_same ..

/-- With chunks left a DRAINING lane is OUT, and its job stands at the head of its list, with no lane IDLE (R101). -/
theorem State.commits.drains (hy : n ∉ s.jdp.yields) (hs : (s.lane n).state = .draining) (hd : j.done + 1 ≠ j.total)
    (hi : s.anyIdle = false) (hr : s.sent.any (isDiscardOf k) = false) {q : State}
    (hq : q = t.afterCommit n k { j with done := j.done + 1 }) :
    (q.finish.lane n).state = .out ∧ (q.finish.lane n).job = none ∧ (q.finish.lane n).fault = (s.lane n).fault
      ∧ q.finish.job? k = some { j with done := j.done + 1, lane := none, order := none }
      ∧ q.finish.jdp.list j.cls = k :: s.jdp.list j.cls := by
  rw [State.afterCommit_drains (by rwa [h.yields]) hd (h.state.trans hs)] at hq
  obtain ⟨record, list⟩ := State.returned_finish (k := k) (j := { j with done := j.done + 1 }) (st := .out) hi
    (by decide) h.others (by rwa [h.sent])
  rw [hq]
  refine ⟨State.laneWithout_finish_state (by decide), State.laneWithout_finish_job (by decide), ?_, record,
    list.trans ?_⟩
  · rw [State.laneWithout_finish_fault (by decide), State.lane_of_lanes (State.returnJob_lanes ..)]
    exact Lane.fault_of_core (h.core n)
  · rw [h.jdp]
    cases j.cls <;> rfl

end

end

end Sys2Proof.Machine
end

section
/-! PROOF. What the end of a chunk makes of the job's extent and of its page buffers (R95, R123, R125). -/

namespace Sys2Proof.Machine

/-! ## The lane's extent (R123) -/

section
variable {s : State} {n e : Nat} {x : Extent} {j : Job}

/-- The extent a lane writes is that of its job. -/
theorem State.laneExtent_some (h : s.laneExtent n = some (e, x)) (hj : s.laneJob n = some j) :
    j.extent = some e ∧ s.extentFor e j.slot j.segment j.rendition = some x := by
  simp only [State.laneExtent, hj] at h
  cases he : j.extent with
  | none => simp [he] at h
  | some d =>
    simp only [he, Option.map_eq_some_iff, Prod.mk.injEq] at h
    obtain ⟨y, record, rfl, rfl⟩ := h
    exact ⟨rfl, record⟩

/-- A record that is in use for a job stays so while its slot, segment and rendition do. -/
theorem State.extentFor_of_extent? {t : State} {slot segment rendition : Nat} {y : Extent}
    (h : s.extentFor e slot segment rendition = some x) (ht : t.extent? e = some y) (hs : y.slot = x.slot)
    (hg : y.segment = x.segment) (hr : y.rendition = x.rendition) : t.extentFor e slot segment rendition = some y := by
  obtain ⟨-, same⟩ := Option.filter_eq_some_iff.1 h
  exact Option.filter_eq_some_iff.2 ⟨ht, by rwa [hs, hg, hr]⟩

end

/-! ## What stays as a job leaves its lane -/

theorem State.laneWithout_ledger (s : State) (n : Nat) (st : LaneState) : (s.laneWithout n st).ledger = s.ledger := by
  unfold State.laneWithout
  dsimp only
  split <;> rfl

theorem State.laneWithout_waits (s : State) (n : Nat) (st : LaneState) : (s.laneWithout n st).waits = s.waits := by
  unfold State.laneWithout
  dsimp only
  split <;> rfl

/-- As a job record is freed every message stays under way that is no discard request for the job. -/
theorem State.freeJob_keeps {s : State} {k : Nat} {m : Instr} (h : m ∈ s.sent) (hm : isDiscardOf k m = false) :
    m ∈ (s.freeJob k).sent :=
  List.mem_append_left _ (List.mem_filter.2 ⟨h, by rw [hm]; rfl⟩)

theorem State.freeJob_frees (s : State) (k : Nat) : .jobRecordFreed ∈ (s.freeJob k).sent :=
  List.mem_append_right _ (List.mem_singleton.2 rfl)

/-- A job that ends DONE closes its extent; its outcome and the freed record are under way (R75, R80). -/
theorem State.finishJob_reports {s : State} (k : Nat) {j : Job} {e : Nat} {x : Extent}
    (h : s.extentFor e j.slot j.segment j.rendition = some x) :
    (s.finishJob k j e).extent? e = some { x with state := if x.state = .writing then .closed else x.state }
      ∧ .jobOutcome j.slot j.segment j.rendition (.done e) ∈ (s.finishJob k j e).sent
      ∧ .jobRecordFreed ∈ (s.finishJob k j e).sent :=
  ⟨(State.closeExtent_closes h).2,
    State.freeJob_keeps (List.mem_append_right _ (List.mem_singleton.2 rfl)) rfl, State.freeJob_frees ..⟩

theorem State.finishJob_waits (s : State) (k : Nat) (j : Job) (e : Nat) : (s.finishJob k j e).waits = s.waits :=
  (show _ = (s.closeExtent e j.slot j.segment j.rendition).waits from rfl).trans (State.closeExtent_waits ..)

/-! ## The commit in the store -/

/-- A program that waits or runs still does when a lane's reads are withdrawn. -/
theorem State.withdrawReads_programs {s : State} {b : Nat} {p : ProgramReq} (h : s.programs b p)
    (who : Reader → Bool) : (s.withdrawReads who).programs b p := by
  have bank : (s.withdrawReads who).bank b = (s.bank b).withdrawReads (fun r => who r.reader) :=
    Table.atD_map s.stc.banks (·.withdrawReads (fun r => who r.reader)) Bank.empty b rfl
  unfold State.programs
  rw [bank]
  refine h.imp_right fun op => ?_
  rw [Bank.withdrawReads, op]

/-- What a chunk's commit does to the job and to the lane leaves the messages, the extents and the page buffers. -/
theorem State.commitChunk_ledger (s : State) (n k : Nat) (j : Job) :
    (s.commitChunk n k j).ledger = (s.commitOutput n).ledger := by
  rw [State.commitChunk_eq]
  generalize s.commitOutput n = q
  rfl

theorem State.commitChunk_buf? (s : State) (n k : Nat) (j : Job) (i : Nat) :
    (s.commitChunk n k j).buf? i = (s.commitOutput n).buf? i := by
  rw [State.commitChunk_eq]
  generalize s.commitOutput n = q
  rfl

theorem State.commitChunk_freeExtent (s : State) (n k : Nat) (j : Job) :
    (s.commitChunk n k j).freeExtent = (s.commitOutput n).freeExtent := by
  rw [State.commitChunk_eq]
  generalize s.commitOutput n = q
  rfl

theorem State.commitChunk_programs {s : State} {n b : Nat} {p : ProgramReq} (h : (s.commitOutput n).programs b p)
    (k : Nat) (j : Job) : (s.commitChunk n k j).programs b p := by
  rw [State.commitChunk_eq]
  generalize s.commitOutput n = q at h
  exact State.withdrawReads_programs (s := q.setJob k { j with done := j.done + 1 }) h (Reader.ofLane n)

section
variable {s : State} {n k e : Nat} {j : Job} {x : Extent} {output : List Byte}

/-- The end of the output that a lane's extent holds once the chunk's last bytes are written. -/
def State.outputEnd (s : State) (n e : Nat) (x : Extent) (output : List Byte) : Nat :=
  (s.laneWrites n output).extentEnd e x

section
variable (hx : (s.laneWrites n output).laneExtent n = some (e, x))
include hx

/-- After the commit the extent's committed length is the end of its output. -/
theorem State.chunkCommitted_extent? : (s.chunkCommitted n k j output).extent? e
    = some { x with committed := s.outputEnd n e x output } := by
  have ledger : (s.chunkCommitted n k j output).ledger = ((s.laneWrites n output).commitOutput n).ledger :=
    State.commitChunk_ledger ..
  rw [State.commitOutput_some hx, State.commitExtent_ledger] at ledger
  exact (State.extent?_of_ledger ledger e).trans (Table.at?_put_same ..)

/-- After the commit every page buffer of the extent is committed, and one that was full has been offered. -/
theorem State.chunkCommitted_buf? (hs : s.stc.buffers.sorted) (hr : s.stc.relocations = []) {i : Nat} {b : Buf}
    (hb : (s.laneWrites n output).buf? i = some b) (ho : b.owner = .own (.extent e)) (hd : b.discarded = false) :
    ∃ c, (s.chunkCommitted n k j output).buf? i = some c ∧ c.data = b.data ∧ c.committed = b.data.length
      ∧ (b.state = .pending → b.committed < b.data.length →
          (s.chunkCommitted n k j output).programs (bankOf b.block) ⟨i, b.block, b.page⟩) := by
  have relocations := (State.relocations_of_waits (s.laneWrites_waits n output)).trans hr
  have whole := State.upTo_extentEnd (x := x) (State.mem_extentBuffers hb ho hd)
  obtain ⟨⟨c, hc, data, committed⟩, offered⟩ := State.commitExtent_buf? (x := x)
    (length := (s.laneWrites n output).extentEnd e x) (s.laneWrites_sorted hs n output) relocations hb ho hd
  rw [whole] at committed
  rw [← State.commitOutput_some hx] at hc offered
  exact ⟨c, (State.commitChunk_buf? ..).trans hc, data, committed,
    fun hp hlt => State.commitChunk_programs (offered hp (Nat.ne_of_lt hlt) whole) k j⟩

end

/-! ## The end of the chunk -/

variable (h : s.chunkEnds n k j output) (hy : n ∉ s.jdp.yields) (hl : s.jdp.live = []) (hb : s.jdp.backlog = [])
  (hc : s.stc.claims = []) (hx : (s.laneWrites n output).laneExtent n = some (e, x))

theorem State.chunkEnds.laneJob (h : s.chunkEnds n k j output) : (s.laneWrites n output).laneJob n = some j :=
  State.laneJob_eq ((Lane.job_of_core (s.laneWrites_core n output n)).trans h.job)
    ((State.job?_of_jdp (s.laneWrites_jdp n output) k).trans h.record)

include h hy hl hb hc hx

/-- The last chunk closes a WRITING extent; the outcome and the freed record are under way. -/
theorem chunkEnd_last (hd : j.done + 1 = j.total) : ∃ t, exec (.chunkEnd n output) s = .next t
    ∧ t.extent? e = some { x with
        committed := s.outputEnd n e x output, state := if x.state = .writing then .closed else x.state }
    ∧ .jobOutcome j.slot j.segment j.rendition (.done e) ∈ t.sent ∧ .jobRecordFreed ∈ t.sent := by
  have commits := s.chunkCommitted_commits n k j output
  obtain ⟨extent, inUse⟩ := State.laneExtent_some hx h.laneJob
  have record := State.chunkCommitted_extent? (k := k) (j := j) hx
  refine ⟨_, exec_chunkEnd h, ?_⟩
  have number : ({ j with done := j.done + 1 } : Job).extent.getD 0 = e := by
    show j.extent.getD 0 = e
    rw [extent]
    rfl
  rw [State.afterCommit_ends (by rwa [commits.yields]) hd, number]
  generalize s.chunkCommitted n k j output = c at commits record
  have inUse' : (c.clearYield n).extentFor e j.slot j.segment j.rendition
      = some { x with committed := s.outputEnd n e x output } :=
    State.extentFor_of_extent? inUse record rfl rfl rfl
  obtain ⟨closed, outcome, freed⟩ := State.finishJob_reports (s := c.clearYield n) k
    (j := { j with done := j.done + 1 }) inUse'
  have jdp := (c.clearYield n).finishJob_jdp k { j with done := j.done + 1 } e
  have claims := State.claims_of_waits ((c.clearYield n).finishJob_waits k { j with done := j.done + 1 } e)
  generalize (c.clearYield n).finishJob k { j with done := j.done + 1 } e = u at closed outcome freed jdp claims
  have ledger : (u.laneWithout n (afterJob (c.lane n).state)).finish.ledger = u.ledger := by
    rw [State.finish_ledger ?_ ?_ ?_, State.laneWithout_ledger]
    · rw [State.laneWithout_jdp, jdp]
      exact (congrArg _ (commits.live.trans hl)).trans (List.filter_nil ..)
    · rw [State.laneWithout_jdp, jdp]
      exact (congrArg _ (commits.backlog.trans hb)).trans (List.filter_nil ..)
    · rw [State.claims_of_waits (State.laneWithout_waits ..), claims]
      exact (State.claims_of_waits commits.waits).trans hc
  rw [State.extent?_of_ledger ledger, State.sent_of_ledger ledger]
  exact ⟨closed, outcome, freed⟩

/-- A lane that goes on leaves the store as the commit left it, and the page buffers too with no relocation. -/
theorem chunkEnd_goes (hs : (s.lane n).state = .busy) (hd : j.done + 1 ≠ j.total) :
    ∃ t, exec (.chunkEnd n output) s = .next t ∧ t.extent? e = some { x with committed := s.outputEnd n e x output }
      ∧ (s.stc.relocations = [] → s.stc.buffers.sorted → ∀ i b, (s.laneWrites n output).buf? i = some b →
          b.owner = .own (.extent e) → b.discarded = false →
          ∃ c, t.buf? i = some c ∧ c.data = b.data ∧ c.committed = b.data.length
            ∧ (b.state = .pending → b.committed < b.data.length →
                t.programs (bankOf b.block) ⟨i, b.block, b.page⟩)) := by
  have commits := s.chunkCommitted_commits n k j output
  have record := State.chunkCommitted_extent? (k := k) (j := j) hx
  have buffers := State.chunkCommitted_buf? (k := k) (j := j) hx
  refine ⟨_, exec_chunkEnd h, ?_⟩
  rw [State.afterCommit_goes (by rwa [commits.yields]) hd (by rw [commits.state, hs]; exact nofun)]
  generalize s.chunkCommitted n k j output = c at commits record buffers
  obtain ⟨u, hu⟩ : ∃ u, u = c.startChunk n { j with done := j.done + 1 } (j.done + 1) (c.lane n).nextPositions :=
    ⟨_, rfl⟩
  have jdp : u.jdp = c.jdp := by rw [hu]; rfl
  have stc : u.stc = c.stc := by rw [hu]; rfl
  have live : u.jdp.live = [] := by rw [jdp, commits.live, hl]
  have backlog : u.jdp.backlog = [] := by rw [jdp, commits.backlog, hb]
  have claims : u.stc.claims = [] := by rw [stc, State.claims_of_waits commits.waits, hc]
  rw [← hu]
  refine ⟨?_, fun hr hsorted i b hi ho hdis => ?_⟩
  · rw [State.extent?_of_ledger (State.finish_ledger live backlog claims), State.extent?, stc]
    exact record
  · have same : u.finish.stc = c.stc := (State.finish_stc live backlog claims (by
      rw [stc, State.relocations_of_waits commits.waits, hr])).trans stc
    obtain ⟨d, hd', data, committed, offered⟩ := buffers hsorted hr hi ho hdis
    exact ⟨d, (congrArg (fun x : Stc => x.buffers.at? i) same).trans hd', data, committed,
      fun hp hlt => State.programs_of_bank (congrArg (fun x : Stc => x.banks.atD (bankOf b.block) Bank.empty) same)
        (offered hp hlt)⟩

end

end Sys2Proof.Machine
end

section
/-! PROOF. The yields: which lanes take them, the bounds they keep to, and the one set first (R81, R83). -/

namespace Sys2Proof.Machine

/-! ## What the yields leave -/

/-- The job a lane holds depends on the lane and the job records. -/
theorem State.laneJob_of {s t : State} {n : Nat} (job : (t.lane n).job = (s.lane n).job)
    (jobs : t.jdp.jobs = s.jdp.jobs) : t.laneJob n = s.laneJob n := by
  have record : t.job? = s.job? := funext fun k => congrArg (fun x : Table Job => x.at? k) jobs
  simp only [State.laneJob, job, record]

theorem State.laneRuns_of {s t : State} {n : Nat} (state : (t.lane n).state = (s.lane n).state)
    (job : (t.lane n).job = (s.lane n).job) (jobs : t.jdp.jobs = s.jdp.jobs) (c : LectureClass) :
    t.laneRuns c n = s.laneRuns c n := by
  simp only [State.laneRuns, state, State.laneJob_of job jobs]

theorem State.withdrawYields_laneRuns (fuel : Nat) (s : State) (c : LectureClass) (n : Nat) :
    (State.withdrawYields fuel s).laneRuns c n = s.laneRuns c n := by
  obtain ⟨y, hy⟩ := State.withdrawYields_eq fuel s
  rw [hy]
  rfl

/-! ## Which lanes have a yield -/

theorem State.latestLane_mem {s : State} {l : List Nat} {n : Nat} (h : s.latestLane l = some n) : n ∈ l := by
  induction l generalizing n with
  | nil => cases h
  | cons a l ih =>
    unfold State.latestLane at h
    split at h
    · obtain rfl := Option.some.inj h
      exact List.mem_cons_self
    next m hm =>
      split at h
      · obtain rfl := Option.some.inj h
        exact List.mem_cons_self
      · obtain rfl := Option.some.inj h
        exact List.mem_cons_of_mem _ (ih hm)

/-- A lane that takes a yield is BUSY with a BACKLOG job that no abort is discarding. -/
theorem State.canYield_iff {s : State} {n : Nat} : s.canYield n = true
    ↔ (s.lane n).state = .busy ∧ s.laneRuns .backlog n = true ∧ n ∉ s.jdp.yields ∧ s.discarding n = false := by
  simp [State.canYield, and_assoc]

/-- The lanes among which a yield is set. -/
def State.yieldLanes (s : State) : List Nat := laneNumbers.filter s.canYield

theorem State.mem_yieldLanes {s : State} {n : Nat} : n ∈ s.yieldLanes ↔ n < 12 ∧ s.canYield n = true := by
  simp [State.yieldLanes, laneNumbers]

/-- A yield stands already, or is set on a lane with a BACKLOG job. -/
theorem State.setYields_mem {fuel n : Nat} {s : State} (h : n ∈ (State.setYields fuel s).jdp.yields) :
    n ∈ s.jdp.yields ∨ s.laneRuns .backlog n = true := by
  induction fuel generalizing s with
  | zero => exact .inl h
  | succ fuel ih =>
    unfold State.setYields at h
    dsimp only at h
    split at h
    case isFalse => exact .inl h
    split at h
    · exact .inl h
    next m hm =>
      rcases ih h with stood | runs
      · rcases List.mem_append.1 stood with stood | now
        · exact .inl stood
        · obtain rfl := List.mem_singleton.1 now
          exact .inr (State.canYield_iff.1 (State.mem_yieldLanes.1 (State.latestLane_mem hm)).2).2.1
      · exact .inr runs

theorem State.withdrawYields_mem {fuel n : Nat} {s : State} (h : n ∈ (State.withdrawYields fuel s).jdp.yields) :
    n ∈ s.jdp.yields := by
  induction fuel generalizing s with
  | zero => exact h
  | succ fuel ih =>
    unfold State.withdrawYields at h
    dsimp only at h
    split at h
    · exact h
    split at h
    · exact List.mem_of_mem_dropLast (ih h)
    · exact h

/-- With no lane IDLE, a lane without a yield whose job is not of class BACKLOG has none as the step ends. -/
theorem State.finish_noYield {s : State} {n : Nat} (hi : s.anyIdle = false) (hy : n ∉ s.jdp.yields)
    (hr : s.laneRuns .backlog n = false) : n ∉ s.finish.jdp.yields := by
  intro h
  have idle : s.evalLaneFailed.anyIdle = false := (State.anyIdle_evalLaneFailed s).trans hi
  unfold State.finish State.settle at h
  rw [State.serveClaims_jdp, State.dispatchLoop_busy _ _ (State.find_of_noIdle idle)] at h
  rcases State.setYields_mem h with stood | runs
  · exact hy (s.evalLaneFailed_jdp ▸ State.withdrawYields_mem stood)
  · rw [State.withdrawYields_laneRuns] at runs
    have same : s.evalLaneFailed.laneRuns .backlog n = s.laneRuns .backlog n := State.laneRuns_of
      (by rw [State.evalLaneFailed_lane]) (by rw [State.evalLaneFailed_lane]) (by rw [State.evalLaneFailed_jdp]) _
    exact absurd ((same.trans hr).symm.trans runs) Bool.false_ne_true

/-! ## The bounds (R81, R83) -/

/-- The yields keep to their bounds: no more than LIVE jobs are queued, nor than the BACKLOG jobs on lanes exceed the
floor, and none while a lane is IDLE. -/
structure State.yieldsFit (s : State) : Prop where
  live : s.jdp.yields.length ≤ s.jdp.live.length
  backlog : s.jdp.yields.length ≤ s.backlogCount - s.jdp.floor
  idle : s.anyIdle = true → s.jdp.yields = []

theorem State.yieldsFit_nil {s : State} (h : s.jdp.yields = []) : s.yieldsFit :=
  ⟨by rw [h]; exact Nat.zero_le _, by rw [h]; exact Nat.zero_le _, fun _ => h⟩

/-- As many rounds as there are yields withdraw those beyond the bounds. -/
theorem State.withdrawYields_fit {fuel : Nat} {s : State} (h : s.jdp.yields.length ≤ fuel) :
    (State.withdrawYields fuel s).yieldsFit := by
  induction fuel generalizing s with
  | zero => exact State.yieldsFit_nil (List.eq_nil_of_length_eq_zero (Nat.le_zero.1 h))
  | succ fuel ih =>
    unfold State.withdrawYields
    dsimp only
    split
    next empty => exact State.yieldsFit_nil (List.isEmpty_iff.1 empty)
    split
    · exact ih (by rw [List.length_dropLast]; omega)
    next fits =>
      simp only [Bool.or_eq_true, decide_eq_true_eq, not_or, Nat.not_lt] at fits
      obtain ⟨⟨⟨-, busy⟩, live⟩, backlog⟩ := fits
      exact ⟨live, backlog, fun idle => absurd idle busy⟩

/-- A yield is set only within the bounds. -/
theorem State.setYields_fit {fuel : Nat} {s : State} (h : s.yieldsFit) : (State.setYields fuel s).yieldsFit := by
  induction fuel generalizing s with
  | zero => exact h
  | succ fuel ih =>
    unfold State.setYields
    dsimp only
    split
    case isFalse => exact h
    next room =>
      split
      · exact h
      next n _ =>
        simp only [Bool.and_eq_true, Bool.not_eq_true', decide_eq_true_eq] at room
        obtain ⟨⟨⟨-, busy⟩, live⟩, backlog⟩ := room
        have length : (s.jdp.yields ++ [n]).length = s.jdp.yields.length + 1 := by simp
        exact ih ⟨length ▸ live, length ▸ backlog, fun idle => absurd (busy.symm.trans idle) Bool.false_ne_true⟩

/-- The bounds are of the lanes, the jobs and the yields. -/
theorem State.yieldsFit.of_core {s t : State} (h : s.yieldsFit) (jdp : t.jdp = s.jdp)
    (core : ∀ n, (t.lane n).core = (s.lane n).core) : t.yieldsFit := by
  have state : ∀ n, (t.lane n).state = (s.lane n).state := fun n => Lane.state_of_core (core n)
  have job : ∀ n, (t.lane n).job = (s.lane n).job := fun n => Lane.job_of_core (core n)
  have runs : ∀ n, t.laneRuns .backlog n = s.laneRuns .backlog n := fun n =>
    State.laneRuns_of (state n) (job n) (by rw [jdp]) _
  have count : t.backlogCount = s.backlogCount := by simp only [State.backlogCount, funext runs]
  have idle : t.anyIdle = s.anyIdle := by simp only [State.anyIdle, state]
  refine ⟨by rw [jdp]; exact h.live, by rw [jdp, count]; exact h.backlog, fun i => by rw [jdp]; exact h.idle (idle ▸ i)⟩

/-- As a step ends the yields keep to their bounds. -/
theorem State.finish_yieldsFit {s : State} (h : s.jdp.yields.length ≤ 12) : s.finish.yieldsFit := by
  have fits : s.evalLaneFailed.settle.yieldsFit := by
    unfold State.settle
    refine State.setYields_fit (State.withdrawYields_fit ?_)
    rw [State.dispatchLoop_yields, State.evalLaneFailed_jdp]
    omega
  exact fits.of_core (State.serveClaims_jdp _) (State.serveClaims_core _)

/-! ## The first yield (R81) -/

/-- Of two numbers within half the circle from a base the later one is farther from it. -/
theorem stampLater_iff {a b base : Stamp} (ha : (a - base).toNat < 2 ^ 31) (hb : (b - base).toNat < 2 ^ 31) :
    stampLater a b = true ↔ (b - base).toNat < (a - base).toNat := by
  have cancel : b - a = (b - base) - (a - base) := by bv_omega
  rw [stampLater, stampBelow, cancel, BitVec.slt_iff_toInt_lt]
  generalize a - base = p at ha ⊢
  generalize b - base = q at hb ⊢
  have zero : BitVec.toInt (0 : Stamp) = 0 := rfl
  rw [BitVec.toInt_eq_toNat_cond, BitVec.toNat_sub, zero]
  omega

/-- The lane with the latest order, among lanes whose orders lie within half the circle from a base. -/
theorem State.latestLane_latest {s : State} {base : Word32} {l : List Nat} {n : Nat}
    (hb : ∀ q ∈ l, (s.laneOrder q - base).toNat < 2 ^ 31) (h : s.latestLane l = some n) :
    ∀ q ∈ l, (s.laneOrder q - base).toNat ≤ (s.laneOrder n - base).toNat := by
  induction l generalizing n with
  | nil => exact fun q hq => by cases hq
  | cons a l ih =>
    have rest : ∀ q ∈ l, (s.laneOrder q - base).toNat < 2 ^ 31 := fun q hq => hb q (List.mem_cons_of_mem _ hq)
    have first := hb a List.mem_cons_self
    unfold State.latestLane at h
    split at h
    next none =>
      obtain rfl := Option.some.inj h
      have empty : l = [] := by
        cases l with
        | nil => rfl
        | cons b l =>
          unfold State.latestLane at none
          split at none
          · cases none
          · split at none <;> cases none
      subst empty
      exact fun q hq => by rw [List.mem_singleton.1 hq]
    next m hm =>
      have latest := ih rest hm
      have among := rest m (State.latestLane_mem hm)
      split at h
      next later =>
        obtain rfl := Option.some.inj h
        have beyond := (stampLater_iff first among).1 later
        intro q hq
        rcases List.mem_cons.1 hq with rfl | hq
        · exact le_refl _
        · exact (latest q hq).trans (Nat.le_of_lt beyond)
      next sooner =>
        obtain rfl := Option.some.inj h
        have within := Nat.not_lt.1 (mt (stampLater_iff first among).2 sooner)
        intro q hq
        rcases List.mem_cons.1 hq with rfl | hq
        · exact within
        · exact latest q hq

theorem State.latestLane_some {s : State} {l : List Nat} {q : Nat} (h : q ∈ l) : ∃ n, s.latestLane l = some n := by
  cases l with
  | nil => cases h
  | cons a l =>
    unfold State.latestLane
    split
    · exact ⟨_, rfl⟩
    · split <;> exact ⟨_, rfl⟩

/-- A yield that stands stays in its place as further ones are set. -/
theorem State.setYields_head {fuel n : Nat} {s : State} (h : s.jdp.yields.head? = some n) :
    (State.setYields fuel s).jdp.yields.head? = some n := by
  induction fuel generalizing s with
  | zero => exact h
  | succ fuel ih =>
    unfold State.setYields
    dsimp only
    split
    case isFalse => exact h
    split
    · exact h
    · refine ih ?_
      rw [List.head?_append, h]
      rfl

/-- Where no yield stands and the conditions allow one, the first goes to the latest lane that can take it. -/
theorem State.setYields_first {fuel n : Nat} {s : State} (hy : s.jdp.yields = []) (on : s.jdp.preemption = true)
    (hi : s.anyIdle = false) (hl : s.jdp.live ≠ []) (hb : s.jdp.floor < s.backlogCount)
    (hn : s.latestLane s.yieldLanes = some n) : (State.setYields (fuel + 1) s).jdp.yields.head? = some n := by
  have live : 0 < s.jdp.live.length := List.length_pos_iff.2 hl
  have backlog : 0 < s.backlogCount - s.jdp.floor := Nat.sub_pos_of_lt hb
  unfold State.yieldLanes at hn
  unfold State.setYields
  simp only [on, hi, hy, hn, live, backlog, List.length_nil, decide_true, Bool.not_false, Bool.and_self, if_true]
  exact State.setYields_head rfl

end Sys2Proof.Machine
end

section
/-! PROOF. A lane with a yield at the end of a chunk, the yields that DISPATCH_SET leaves, and O48 (R81 to R83, R88,
R95). -/

namespace Sys2Proof.Machine

/-! ## A job that is handed to a lane (R78) -/

/-- From `s` to `t` lane `n` was handed job `m`, to begin it at a chunk. -/
structure State.hands (s t : State) (n m : Nat) (i : Job) : Prop where
  others : ∀ q, q ≠ n → t.lane q = s.lane q
  state : (t.lane n).state = .busy
  job : (t.lane n).job = some m
  chunk : (t.lane n).chunk = i.done
  live : t.jdp.live = s.jdp.live.filter (· != m)
  backlog : t.jdp.backlog = s.jdp.backlog.filter (· != m)
  yields : t.jdp.yields = s.jdp.yields
  record : ∃ p, t.job? m = some p ∧ p.cls = i.cls
  records : ∀ k, k ≠ m → t.job? k = s.job? k

theorem State.beginJob_jdp (s : State) (n : Nat) (j : Job) : (s.beginJob n j).jdp = s.jdp := by
  unfold State.beginJob
  dsimp only
  split <;> rfl

theorem State.beginJob_chunk (s : State) (n : Nat) (j : Job) : ((s.beginJob n j).lane n).chunk = j.done := by
  unfold State.beginJob
  dsimp only
  split
  · rw [State.startChunk, State.lane_setLane_same]
  · rw [State.startWalk, State.lane_setLane_same]

/-- The JDP once a job has been handed to a lane. -/
theorem State.handOver_jdp (s : State) (n k : Nat) (j : Job) : (s.handOver n k j).1.jdp = { s.jdp with
    live := s.jdp.live.filter (· != k), backlog := s.jdp.backlog.filter (· != k)
    waits := s.jdp.waits.filter (· != k), count := s.jdp.count + 1
    jobs := s.jdp.jobs.put k { j with lane := some n, order := some (s.jdp.count + 1) } } := by
  unfold State.handOver
  dsimp only
  split
  · rw [State.beginJob_jdp]
    rfl
  · rw [State.laneEvent_jdp, State.beginJob_jdp]
    rfl

theorem State.handOver_chunk (s : State) (n k : Nat) (j : Job) : ((s.handOver n k j).1.lane n).chunk = j.done := by
  unfold State.handOver
  dsimp only
  split
  · exact State.beginJob_chunk ..
  · rw [State.lane_of_lanes (State.laneEvent_lanes ..), State.beginJob_chunk]

theorem State.handOver_hands (s : State) (n m : Nat) (i : Job) : s.hands (s.handOver n m i).1 n m i := by
  have jdp := s.handOver_jdp n m i
  obtain ⟨state, job⟩ := s.handOver_lane n m i
  refine ⟨fun q hq => s.handOver_ne m i hq, state, job, s.handOver_chunk n m i, by rw [jdp], by rw [jdp], by rw [jdp],
    ⟨{ i with lane := some n, order := some (s.jdp.count + 1) }, ?_, rfl⟩, fun k hk => ?_⟩
  · rw [State.job?, jdp]
    exact Table.at?_put_same ..
  · rw [State.job?, jdp]
    exact Table.at?_put_ne _ _ hk

/-- A job with an extent, or with a free one and no wait for one, is handed over where its source is not EMPTY. -/
theorem State.offerJob_hands {s : State} {m : Nat} {i : Job} (n : Nat) (hm : s.job? m = some i)
    (hx : i.extent = none → m ∉ s.jdp.waits ∧ s.freeExtent ≠ none) (he : s.emptySource i = false) :
    (s.offerJob n m).2 = .handed ∧ s.hands (s.offerJob n m).1 n m i := by
  cases hi : i.extent with
  | some e =>
    simp only [State.offerJob, hm, hi, he, Bool.false_eq_true, if_false]
    exact ⟨rfl, s.handOver_hands n m i⟩
  | none =>
    obtain ⟨asks, free⟩ := hx hi
    obtain ⟨e, hfree⟩ := Option.ne_none_iff_exists'.1 free
    have waits : s.jdp.waits.contains m = false := by simpa using asks
    simp only [State.offerJob, hm, hi, he, waits, hfree, Bool.false_eq_true, if_false]
    obtain ⟨others, state, job, chunk, live, backlog, yields, record, records⟩ :=
      ((s.takeExtent e i.slot i.segment i.rendition .writing).setJob m { i with extent := some e }).handOver_hands n m
        { i with extent := some e }
    exact ⟨rfl, others, state, job, chunk, live, backlog, yields, record,
      fun k hk => (records k hk).trans (Table.at?_put_ne _ _ hk)⟩

/-- A spent yield takes the head of the LIVE list. -/
theorem State.takeLive_hands {s : State} {n m : Nat} {rest : List Nat} (hl : s.jdp.live = m :: rest)
    (ho : (s.offerJob n m).2 = .handed) (fuel : Nat) : State.takeLive n (fuel + 1) s = (s.offerJob n m).1 := by
  unfold State.takeLive
  simp only [hl, ho]

/-! ## The free extent record at a commit -/

/-- Which record is free next does not change as a record in use is written. -/
theorem Table.freeFrom_put {α : Type} {u : Table α} {n start e : Nat} {v : α} (h : (u.at? e).isSome = true) :
    (u.put e v).freeFrom n start = u.freeFrom n start := by
  have same : ∀ k, ((u.put e v).at? k).isNone = (u.at? k).isNone := fun k => by
    by_cases hk : k = e
    · subst hk
      rw [Table.at?_put_same, Option.isNone_some, Option.isNone_eq_false_iff.2 h]
    · rw [Table.at?_put_ne _ _ hk]
  simp only [Table.freeFrom, same]

section
variable {s : State} {n k : Nat} {j : Job} {output : List Byte}

theorem State.laneFill_extentPick (s : State) (n : Nat) : (s.laneFill n).stc.extentPick = s.stc.extentPick := by
  unfold State.laneFill
  dsimp only
  (repeat' split) <;> rfl

theorem State.startProgram_extentPick (s : State) (b : Nat) (x : Bank) (p : ProgramReq) :
    (s.startProgram b x p).stc.extentPick = s.stc.extentPick := by
  unfold State.startProgram
  dsimp only
  split <;> simp

theorem State.grantCopy_extentPick (s : State) (b : Nat) (x : Bank) (l : List CopyReq) :
    (s.grantCopy b x l).1.stc.extentPick = s.stc.extentPick := by
  induction l generalizing s with
  | nil => rfl
  | cons c l ih =>
    cases c with
    | read r => rfl
    | program p => exact State.startProgram_extentPick ..
    | append g =>
      unfold State.grantCopy
      split
      · rw [ih, State.badlistFull_stc]
      · rfl

theorem State.grantErase_extentPick (s : State) (b : Nat) : (s.grantErase b).stc.extentPick = s.stc.extentPick := by
  unfold State.grantErase
  dsimp only
  (repeat' split) <;> rfl

theorem State.arbitrate_extentPick (s : State) (b : Nat) : (s.arbitrate b).stc.extentPick = s.stc.extentPick := by
  unfold State.arbitrate
  dsimp only
  (repeat' split) <;>
    simp [State.startProgram_extentPick, State.grantCopy_extentPick, State.grantErase_extentPick]

theorem State.afterJoin_extentPick (s : State) (b : Nat) : (s.afterJoin b).stc.extentPick = s.stc.extentPick := by
  unfold State.afterJoin
  dsimp only
  (repeat' split) <;> simp [State.arbitrate_extentPick]

theorem State.offer_extentPick (s : State) (i : Nat) : (s.offer i).stc.extentPick = s.stc.extentPick := by
  unfold State.offer State.joinCopy
  dsimp only
  (repeat' split) <;> simp [State.afterJoin_extentPick]

/-- A chunk's commit leaves which extent record is free next. -/
theorem State.commitOutput_freeExtent (s : State) (n : Nat) : (s.commitOutput n).freeExtent = s.freeExtent := by
  cases h : s.laneExtent n with
  | none => rw [State.commitOutput, h]
  | some ex =>
    obtain ⟨e, x⟩ := ex
    have record : (s.extent? e).isSome = true := by
      unfold State.laneExtent at h
      split at h
      · cases h
      split at h
      · cases h
      next d _ =>
        obtain ⟨y, inUse, same⟩ := Option.map_eq_some_iff.1 h
        obtain ⟨rfl, rfl⟩ := Prod.mk.inj same
        rw [State.extent?_of_extentFor inUse]
        rfl
    have extents := State.extents_of_ledger (s.commitExtent_ledger e x (s.extentEnd e x))
    have pick : (s.commitExtent e x (s.extentEnd e x)).stc.extentPick = s.stc.extentPick :=
      (foldl_keeps (fun q => q.stc.extentPick) (fun q (b : Nat × Nat) => q.offer b.2)
        (fun q b => q.offer_extentPick b.2) _ _).trans
      (foldl_keeps (fun q : State => q.stc.extentPick)
        (fun q (b : Nat × Buf) => q.setBuf b.1 { b.2 with committed := upTo x (s.extentEnd e x) b.2 })
        (fun _ _ => rfl) (s.extentBuffers e) (s.setExtent e { x with committed := s.extentEnd e x }))
    rw [State.commitOutput_some h, State.freeExtent, extents, pick]
    exact Table.freeFrom_put record

theorem State.chunkCommitted_freeExtent (s : State) (n k : Nat) (j : Job) (output : List Byte) :
    (s.chunkCommitted n k j output).freeExtent = s.freeExtent := by
  have commit : (s.chunkCommitted n k j output).freeExtent = ((s.laneWrites n output).commitOutput n).freeExtent :=
    State.commitChunk_freeExtent ..
  have pick : (s.laneWrites n output).stc.extentPick = s.stc.extentPick := State.laneFill_extentPick ..
  rw [commit, State.commitOutput_freeExtent, State.freeExtent, State.freeExtent, pick,
    State.extents_of_ledger (s.laneWrites_ledger n output)]

/-! ## A lane with a yield (R82) -/

/-- The JDP after a lane has yielded a BACKLOG job that no abort is discarding. -/
theorem State.yielded_jdp {t : State} (hr : t.sent.any (isDiscardOf k) = false) (hc : j.cls = .backlog) :
    (t.yielded n k j).jdp = { t.jdp with
      yields := t.jdp.yields.filter (· != n), backlog := k :: t.jdp.backlog
      jobs := t.jdp.jobs.put k { j with lane := none, order := none } } := by
  have none : ¬ (t.clearYield n).sent.any (isDiscardOf k) = true := by
    show ¬ t.sent.any (isDiscardOf k) = true
    rw [hr]
    exact Bool.false_ne_true
  show ((t.clearYield n).returnJob k j).jdp = _
  unfold State.returnJob
  rw [if_neg none, hc]
  rfl

theorem State.yielded_ne (t : State) {q : Nat} (hq : q ≠ n) : (t.yielded n k j).lane q = t.lane q := by
  rw [State.yielded, State.lane_setLane_ne _ _ hq, State.lane_of_lanes (State.returnJob_lanes ..)]
  rfl

theorem State.yielded_sgc (t : State) : (t.yielded n k j).sgc = t.sgc := State.returnJob_sgc ..

theorem State.yielded_freeExtent (t : State) : (t.yielded n k j).freeExtent = t.freeExtent := by
  show ((t.clearYield n).returnJob k j).freeExtent = _
  unfold State.returnJob
  split <;> rfl

variable {m : Nat} {rest : List Nat} {i : Job}

/-- A BUSY lane with a yield returns its BACKLOG job and is handed the head of the LIVE list. -/
theorem chunkEnd_yields (h : s.chunkEnds n k j output) (hy : n ∈ s.jdp.yields)
    (hl : s.jdp.live = m :: rest) (hm : m ∉ rest) (hmb : m ∉ s.jdp.backlog) (hmk : m ≠ k) (hi : s.job? m = some i)
    (hic : i.cls = .live) (hjc : j.cls = .backlog) (hx : i.extent = none → m ∉ s.jdp.waits ∧ s.freeExtent ≠ none)
    (he : s.emptySource i = false) (idle : s.anyIdle = false) (hr : s.sent.any (isDiscardOf k) = false)
    (hd : j.done + 1 ≠ j.total) :
    ∃ t, exec (.chunkEnd n output) s = .next t ∧ (t.lane n).state = .busy ∧ (t.lane n).job = some m
      ∧ (t.lane n).chunk = i.done ∧ t.jdp.live = rest ∧ t.jdp.backlog = k :: s.jdp.backlog
      ∧ t.job? k = some { j with done := j.done + 1, lane := none, order := none } ∧ n ∉ t.jdp.yields := by
  have commits := s.chunkCommitted_commits n k j output
  have free := s.chunkCommitted_freeExtent n k j output
  have step := exec_chunkEnd h
  generalize s.chunkCommitted n k j output = c at commits free step
  rw [State.afterCommit_yields (by rwa [commits.yields]) hd] at step
  obtain ⟨u, hu⟩ : ∃ u, u = c.yielded n k { j with done := j.done + 1 } := ⟨_, rfl⟩
  rw [← hu] at step
  have jdp := State.yielded_jdp (n := n) (t := c) (k := k) (j := { j with done := j.done + 1 })
    (by rw [commits.sent]; exact hr) hjc
  have lanes : ∀ q, q ≠ n → u.lane q = s.lane q := fun q hq => by
    rw [hu, c.yielded_ne hq, commits.others q hq]
  have sgc : u.sgc = s.sgc := by rw [hu, State.yielded_sgc, commits.sgc]
  have free' : u.freeExtent = s.freeExtent := by rw [hu, State.yielded_freeExtent, free]
  rw [← hu, commits.jdp] at jdp
  have live : u.jdp.live = m :: rest := by rw [jdp, hl]
  have record : u.job? m = some i := by
    rw [State.job?, jdp]
    exact (Table.at?_put_ne _ _ hmk).trans ((Table.at?_put_ne _ _ hmk).trans hi)
  obtain ⟨handed, hands⟩ := State.offerJob_hands n record (by rw [jdp, free']; exact hx)
    ((State.emptySource_of_sgc sgc i).trans he)
  have taken := State.takeLive_hands live handed u.jdp.live.length
  generalize (u.offerJob n m).1 = t at hands taken
  have busy : (t.lane n).state ≠ .idle := by
    rw [hands.state]
    exact nofun
  have noIdle : t.anyIdle = false :=
    State.anyIdle_of_one idle busy fun q hq => (hands.others q hq).trans (lanes q hq)
  have list := fun c => State.finish_list_of_noIdle noIdle c
  have noYield : n ∉ t.jdp.yields := by
    rw [hands.yields, jdp]
    simp
  obtain ⟨p, hp, class_p⟩ := hands.record
  have runs : t.laneRuns .backlog n = false := by
    simp only [State.laneRuns, State.laneJob_eq hands.job hp, class_p, hic]
    exact Bool.and_false _
  refine ⟨t.finish, by rw [step, taken], ?_, ?_, ?_, ?_,
    ?_, ?_, State.finish_noYield noIdle noYield runs⟩
  · rw [State.finish_state busy, hands.state]
  · rw [State.finish_job busy, hands.job]
  · rw [Lane.chunk_of_core (State.finish_core _ _ busy), hands.chunk]
  · refine (list .live).trans ?_
    show t.jdp.live = rest
    rw [hands.live, live, List.filter_cons_of_neg (by simp)]
    exact List.filter_eq_self.2 fun q hq => by simpa using fun e : q = m => hm (e ▸ hq)
  · refine (list .backlog).trans ?_
    show t.jdp.backlog = k :: s.jdp.backlog
    rw [hands.backlog, jdp]
    refine List.filter_eq_self.2 fun q hq => ?_
    rcases List.mem_cons.1 hq with rfl | hq
    · simpa using hmk.symm
    · simpa using fun e : q = m => hmb (e ▸ hq)
  · rw [State.finish_job?_of_noIdle noIdle, hands.records k hmk.symm, State.job?, jdp]
    exact Table.at?_put_same ..

end

end Sys2Proof.Machine
end

section
/-! PROOF. The yields that DISPATCH_SET leaves with preemption ON, and O48 (R81, R83, R88, R95). -/

namespace Sys2Proof.Machine

/-! ## DISPATCH_SET with preemption ON (R88) -/

section
variable {s : State} {tag : Word16} {floor : Byte}

/-- The state that DISPATCH_SET with preemption ON settles. -/
def State.preempting (s : State) (tag : Word16) (floor : Byte) : State :=
  (s.taken 0x40 tag).withDispatch floor.toNat true

/-- What becomes of it: the dispatch pass and the yields, then the reply. -/
theorem exec_dispatchSet_on (h : s.accepts (.dispatchSet tag floor 1)) (hf : floor.toNat ≤ 12) :
    exec (.dispatchSet tag floor 1) s
      = .next (State.answer 0x40 tag ((s.preempting tag floor).finish, .done, [])) :=
  exec_dispatchSet h (actDispatchSet_sets hf rfl)

/-- An answer leaves the JDP and the lanes. -/
theorem State.answer_state_jdp (code : Nat) (tag : Word16) (t : State) (result : ReplyCode) (fields : List Byte) :
    (State.answer code tag (t, result, fields)).jdp = t.jdp := rfl

theorem State.yieldsFit.answered {t : State} (h : t.yieldsFit) (code : Nat) (tag : Word16) (result : ReplyCode)
    (fields : List Byte) : (State.answer code tag (t, result, fields)).yieldsFit := h.of_core rfl fun _ => rfl

/-- The bounds hold of the yields that DISPATCH_SET leaves. -/
theorem State.preempting_fits (h : s.jdp.yields.length ≤ 12) {t : State}
    (ht : t = State.answer 0x40 tag ((s.preempting tag floor).finish, .done, [])) :
    t.jdp.yields.length ≤ t.jdp.live.length ∧ t.jdp.yields.length ≤ t.backlogCount - floor.toNat
      ∧ (t.anyIdle = true → t.jdp.yields = []) := by
  have fits : (s.preempting tag floor).finish.yieldsFit := State.finish_yieldsFit h
  have floors : (s.preempting tag floor).finish.jdp.floor = floor.toNat :=
    congrArg Still.floor (State.finish_still (s.preempting tag floor))
  have fits' : t.yieldsFit := ht ▸ fits.answered 0x40 tag .done []
  have floors' : t.jdp.floor = floor.toNat := by rw [ht, State.answer_state_jdp, floors]
  exact ⟨fits'.live, floors' ▸ fits'.backlog, fits'.idle⟩

/-- The state in which the yields are set, with no lane IDLE. -/
theorem State.preempting_only (s : State) (tag : Word16) (floor : Byte) :
    ((s.preempting tag floor).evalLaneFailed.lanes = s.lanes)
      ∧ (s.preempting tag floor).evalLaneFailed.jdp = { s.jdp with floor := floor.toNat, preemption := true }
      ∧ (s.preempting tag floor).evalLaneFailed.sent = s.sent :=
  ⟨State.evalLaneFailed_lanes _, State.evalLaneFailed_jdp _, State.sent_of_ledger (State.level_ledger ..)⟩

/-- Where no yield stood and the conditions allow one, the first goes to the lane whose BACKLOG job was dispatched
last. -/
theorem State.preempting_first {base : Word32} (hy : s.jdp.yields = []) (hi : s.anyIdle = false)
    (hl : s.jdp.live ≠ []) (hb : floor.toNat < s.backlogCount)
    (hq : ∃ q < 12, (s.lane q).state = .busy ∧ s.laneRuns .backlog q = true ∧ s.discarding q = false)
    (near : ∀ q < 12, s.laneRuns .backlog q = true → (s.laneOrder q - base).toNat < 2 ^ 31) :
    ∃ n < 12, (s.preempting tag floor).finish.jdp.yields.head? = some n ∧ (s.lane n).state = .busy
      ∧ s.laneRuns .backlog n = true ∧ s.discarding n = false
      ∧ (∀ q < 12, (s.lane q).state = .busy → s.laneRuns .backlog q = true → s.discarding q = false →
          (s.laneOrder q - base).toNat ≤ (s.laneOrder n - base).toNat) := by
  obtain ⟨lanes, jdp, sent⟩ := s.preempting_only tag floor
  obtain ⟨u, hu⟩ : ∃ u, u = (s.preempting tag floor).evalLaneFailed := ⟨_, rfl⟩
  have settles : (s.preempting tag floor).finish.jdp = u.settle.jdp := by
    rw [hu]
    exact State.serveClaims_jdp _
  rw [← hu] at lanes jdp sent
  have job : ∀ n, u.laneJob n = s.laneJob n := fun n =>
    State.laneJob_of (by rw [State.lane_of_lanes lanes]) (by rw [jdp])
  have runs : ∀ n, u.laneRuns .backlog n = s.laneRuns .backlog n := fun n =>
    State.laneRuns_of (by rw [State.lane_of_lanes lanes]) (by rw [State.lane_of_lanes lanes]) (by rw [jdp]) _
  have order : ∀ n, u.laneOrder n = s.laneOrder n := fun n => by rw [State.laneOrder, job, State.laneOrder]
  have discards : ∀ n, u.discarding n = s.discarding n := fun n => by
    simp only [State.discarding, State.lane_of_lanes lanes, sent]
  have noIdle : u.anyIdle = false := (State.anyIdle_of_lanes lanes).trans hi
  have yields : u.jdp.yields = [] := by rw [jdp, hy]
  have among : ∀ q, q ∈ u.yieldLanes
      ↔ q < 12 ∧ (s.lane q).state = .busy ∧ s.laneRuns .backlog q = true ∧ s.discarding q = false := fun q => by
    rw [State.mem_yieldLanes, State.canYield_iff, State.lane_of_lanes lanes, runs, discards, yields]
    simp
  obtain ⟨q, fits⟩ := hq
  obtain ⟨n, hn⟩ := State.latestLane_some ((among q).2 fits)
  obtain ⟨below, busy, backlog, kept⟩ := (among n).1 (State.latestLane_mem hn)
  have latest := State.latestLane_latest (base := base) (fun q hq => by
    obtain ⟨below, -, backlog, -⟩ := (among q).1 hq
    rw [order]
    exact near q below backlog) hn
  have settled : u.settle = State.setYields 12 u := by
    unfold State.settle
    rw [State.dispatchLoop_busy _ _ (State.find_of_noIdle noIdle)]
    unfold State.withdrawYields
    simp only [yields, List.isEmpty_nil, if_true]
  refine ⟨n, below, ?_, busy, backlog, kept, fun q hq hqs hqr hqd => ?_⟩
  · rw [settles, settled]
    refine State.setYields_first yields (by rw [jdp]) noIdle (by rw [jdp]; exact hl) ?_ hn
    rw [jdp, State.backlogCount, funext runs]
    exact hb
  · rw [← order, ← order]
    exact latest q ((among q).2 ⟨hq, hqs, hqr, hqd⟩)

end

/-! ## The statement -/

/-- Settles O48: the commit and what follows it, with and without a yield, and the yields that DISPATCH_SET leaves. -/
theorem chunkEnd : Obligations.ChunkEnd := by
  refine ⟨fun s n k j output hn hw hh hr hk hj ho => ?_, fun s tag floor ha hf => ?_⟩
  · have ends : s.chunkEnds n k j output := ⟨hw, hh, hr, hk, hj, ho⟩
    have commits := s.chunkCommitted_commits n k j output
    have step := exec_chunkEnd ends
    refine ⟨fun hy hl hb => ⟨fun hs hd => ?_, fun hd => ?_, fun e x hx hc => ⟨fun hd => ?_, fun hs hd => ?_⟩⟩,
      fun hy hs hd hi hq => ?_, fun m rest i hy hs hl hm hmb _ hmk him hic hjc hx he hi hq hd => ?_⟩
    · exact ⟨_, step, commits.goes hy hl hb hs hk hd rfl⟩
    · exact ⟨_, step, commits.ends hy hl hb hd rfl⟩
    · exact chunkEnd_last ends hy hl hb hc hx hd
    · exact chunkEnd_goes ends hy hl hb hc hx hs hd
    · exact ⟨_, step, commits.drains hy hs hd hi hq rfl⟩
    · exact chunkEnd_yields ends hy hl hm hmb hmk him hic hjc hx he hi hq hd
  · refine ⟨_, exec_dispatchSet_on ha hf, fun few => State.preempting_fits few rfl, fun base hy hi hl hb hq near => ?_⟩
    rw [State.answer_state_jdp]
    exact State.preempting_first hy hi hl hb hq near

end Sys2Proof.Machine
end

section
/-! PROOF. How a lane reads on in its source: the step at one unit, and what a job of one role makes of it (R91 to R93,
R97). -/

namespace Sys2Proof.Machine

/-! ## One unit (R91, R92) -/

section
variable {l : Lane} {r : Role} {x : RoleRange} {limit : Option Stamp} {q : SourceRead} {last : Nat}
  (hx : x.endOffset = some last)
include hx

/-- At the range's end the reading stops. -/
theorem Lane.readStep_end (h : last ≤ q.unit) : l.readStep r x limit q = .stops := by
  simp only [Lane.readStep, hx, Option.getD_some, if_pos h]

section
variable (room : q.unit + 24 ≤ last)
include room

/-- A unit whose header has not been returned is waited for. -/
theorem Lane.readStep_waits (h : l.has r q.unit (q.unit + 16) = false) : l.readStep r x limit q = .waits := by
  have more : ¬ last ≤ q.unit := by omega
  simp only [Lane.readStep, hx, Option.getD_some, if_neg more, if_neg (Nat.not_lt.2 room), h, Bool.not_false, if_true]

/-- With its header returned a unit is told by its marker, by the limit and by the range's end. -/
theorem Lane.readStep_header (h : l.has r q.unit (q.unit + 16) = true) : l.readStep r x limit q
    = if (l.headerAt r q.unit).take 2 ≠ [0x4C, 0x55] then .unfit
      else if limit.any (fun t => stampFrom (headerStamp (l.headerAt r q.unit)) t) then .stops
      else if last < q.unit + 24 + headerLength (l.headerAt r q.unit) then .unfit
      else if l.has r (if q.walking then q.unit + 24 + headerLength (l.headerAt r q.unit) - 8 else q.unit)
        (q.unit + 24 + headerLength (l.headerAt r q.unit))
      then .passes (q.unit + 24 + headerLength (l.headerAt r q.unit)) else .waits := by
  have more : ¬ last ≤ q.unit := by omega
  simp only [Lane.readStep, hx, Option.getD_some, if_neg more, if_neg (Nat.not_lt.2 room), h, Bool.not_true,
    Bool.false_eq_true, if_false, bne_iff_ne]

theorem Lane.readStep_unfit (h : l.has r q.unit (q.unit + 16) = true)
    (marker : (l.headerAt r q.unit).take 2 ≠ [0x4C, 0x55]) : l.readStep r x limit q = .unfit := by
  rw [Lane.readStep_header hx room h, if_pos marker]

section
variable (h : l.has r q.unit (q.unit + 16) = true) (marker : (l.headerAt r q.unit).take 2 = [0x4C, 0x55])
include h marker

theorem Lane.readStep_limit {stamp : Stamp} (hl : limit = some stamp)
    (beyond : stampFrom (headerStamp (l.headerAt r q.unit)) stamp = true) : l.readStep r x limit q = .stops := by
  have reached : limit.any (fun t => stampFrom (headerStamp (l.headerAt r q.unit)) t) = true := by rwa [hl]
  rw [Lane.readStep_header hx room h, if_neg (not_not_intro marker), if_pos reached]

theorem Lane.readStep_passes
    (before : ∀ stamp, limit = some stamp → stampFrom (headerStamp (l.headerAt r q.unit)) stamp = false)
    (fits : q.unit + 24 + headerLength (l.headerAt r q.unit) ≤ last)
    (whole : l.has r (if q.walking = true then q.unit + 24 + headerLength (l.headerAt r q.unit) - 8 else q.unit)
      (q.unit + 24 + headerLength (l.headerAt r q.unit)) = true) :
    l.readStep r x limit q = .passes (q.unit + 24 + headerLength (l.headerAt r q.unit)) := by
  have below : ¬ limit.any (fun t => stampFrom (headerStamp (l.headerAt r q.unit)) t) = true := by
    cases hl : limit with
    | none => exact Bool.false_ne_true
    | some stamp =>
      rw [Option.any_some, before stamp hl]
      exact Bool.false_ne_true
  rw [Lane.readStep_header hx room h, if_neg (not_not_intro marker), if_neg below, if_neg (Nat.not_lt.2 fits),
    if_pos whole]

end

end

end

/-! ## Reading on, unit by unit -/

section
variable {l : Lane} {r : Role} {x : RoleRange} {limit : Option Stamp} {q : SourceRead} (fuel : Nat)

theorem Lane.readOn_waits (h : l.readStep r x limit q = .waits) : l.readOn r x limit (fuel + 1) q = (q, false) := by
  rw [Lane.readOn, h]

theorem Lane.readOn_stops (h : l.readStep r x limit q = .stops) :
    l.readOn r x limit (fuel + 1) q = (q.stop, false) := by
  rw [Lane.readOn, h]

theorem Lane.readOn_unfit (h : l.readStep r x limit q = .unfit) : l.readOn r x limit (fuel + 1) q = (q, true) := by
  rw [Lane.readOn, h]

end

/-! ## The roles of a lane -/

/-- Every role's reading of a lane, each read on as far as the pages returned go. -/
def Lane.readRoles (l : Lane) (g : Segment) (j : Job) : PerRole (Option (SourceRead × Bool)) :=
  ⟨l.readRole g j .camera, l.readRole g j .voice, l.readRole g j .screen⟩

theorem Lane.readRoles_get (l : Lane) (g : Segment) (j : Job) (r : Role) :
    (l.readRoles g j).get r = l.readRole g j r := by
  cases r <;> rfl

/-- A lane after its roles have been read on. -/
def Lane.withReads (l : Lane) (q : PerRole (Option (SourceRead × Bool))) : Lane :=
  { l with reads := q.map (fun _ o => o.map (·.1)) }

section
variable {s : State} {n : Nat} {j : Job} {g : Segment} (hj : s.laneJob n = some j) (hg : s.jobSegment j = some g)
include hj hg

theorem State.laneReadOn_eq : s.laneReadOn n
    = if allRoles.any (fun r => (((s.lane n).readRoles g j).get r).any (·.2)) then s.laneFails n .sourceMalformed
      else if (s.lane n).walking && !((s.lane n).withReads ((s.lane n).readRoles g j)).walking then
        s.startChunk n j (s.lane n).chunk ((s.lane n).withReads ((s.lane n).readRoles g j)).nextPositions
      else s.setLane n ((s.lane n).withReads ((s.lane n).readRoles g j)) := by
  unfold State.laneReadOn
  simp only [hj, hg]
  rfl

end

theorem PerRole.ext_get {α : Type} {p q : PerRole α} (h : ∀ r, p.get r = q.get r) : p = q := by
  obtain ⟨a, b, c⟩ := p
  obtain ⟨d, e, f⟩ := q
  have camera : a = d := h .camera
  have voice : b = e := h .voice
  have screen : c = f := h .screen
  rw [camera, voice, screen]

/-- A lane that waits for bytes in each role it still reads is left as it is. -/
theorem State.laneReadOn_rests {s : State} {n : Nat} (h : s.awaitsSource n) :
    (s.laneReadOn n).lane n = s.lane n ∧ (s.laneReadOn n).stc = s.stc := by
  cases hj : s.laneJob n with
  | none =>
    unfold State.laneReadOn
    simp only [hj, and_self]
  | some j =>
    cases hg : s.jobSegment j with
    | none =>
      unfold State.laneReadOn
      simp only [hj, hg, and_self]
    | some g =>
      have role : ∀ r, ((s.lane n).readRoles g j).get r
          = ((s.lane n).reads.get r).map (fun q => (q, false)) := fun r => by
        rw [Lane.readRoles_get, Lane.readRole]
        cases hq : (s.lane n).reads.get r with
        | none => rfl
        | some q =>
          rw [Option.map_some, Option.map_some]
          split
          next reading =>
            simp only [Bool.and_eq_true, beq_iff_eq, Bool.not_eq_true'] at reading
            rw [Lane.readOn_waits _ (h j g r q hj hg hq reading.1 reading.2)]
          next => rfl
      have fit : ¬ allRoles.any (fun r => (((s.lane n).readRoles g j).get r).any (·.2)) = true := by
        rw [Bool.not_eq_true, List.any_eq_false]
        intro r _
        rw [role]
        cases (s.lane n).reads.get r <;> simp
      have same : (s.lane n).withReads ((s.lane n).readRoles g j) = s.lane n := by
        have reads : (((s.lane n).readRoles g j).map (fun _ o => o.map (·.1))) = (s.lane n).reads :=
          PerRole.ext_get fun r => by
            rw [PerRole.get_map, role]
            cases (s.lane n).reads.get r <;> rfl
        rw [Lane.withReads, reads]
      rw [State.laneReadOn_eq hj hg, if_neg fit, same, Bool.and_not_self, if_neg Bool.false_ne_true]
      exact ⟨State.lane_setLane_same .., rfl⟩

end Sys2Proof.Machine
end

section
/-! PROOF. Reading on in a job of one role, and a read of the lane's next source bytes within one page (R91, R92, R97,
R127). -/

namespace Sys2Proof.Machine

/-! ## A job of one role -/

/-- The reading of one role alone. -/
def oneRole {α : Type} (r : Role) (v : α) : PerRole (Option α) := (PerRole.all none).set r (some v)

section
variable {α β : Type} {r : Role} {v : α}

theorem oneRole_get_same : (oneRole r v).get r = some v := PerRole.get_set_same ..

theorem oneRole_get_ne {k : Role} (h : k ≠ r) : (oneRole r v).get k = none := by
  rw [oneRole, PerRole.get_set_ne _ _ h, PerRole.get_all]

theorem oneRole_map (f : α → β) : (oneRole r v).map (fun _ o => o.map f) = oneRole r (f v) :=
  PerRole.ext_get fun k => by
    rw [PerRole.get_map]
    by_cases h : k = r
    · rw [h, oneRole_get_same, oneRole_get_same]
      rfl
    · rw [oneRole_get_ne h, oneRole_get_ne h]
      rfl

theorem oneRole_any (p : α → Bool) : allRoles.any (fun k => ((oneRole r v).get k).any p) = p v := by
  cases r <;> simp [allRoles, oneRole, PerRole.set, PerRole.all, PerRole.get]

end

section
variable {l : Lane} {r : Role} {q : SourceRead}

theorem Lane.walking_oneRole (h : l.reads = oneRole r q) : l.walking = q.walking := by
  rw [Lane.walking, h]
  exact oneRole_any SourceRead.walking

/-- A lane that reads one role. -/
theorem Lane.readRoles_oneRole (h : l.reads = oneRole r q) (hq : q.reached = false) (g : Segment) (j : Job) :
    l.readRoles g j = oneRole r
      (l.readOn r (g.ranges.get r) (l.readLimit g j) (171 * l.received.length + 1) q) :=
  PerRole.ext_get fun k => by
    rw [Lane.readRoles_get, Lane.readRole, h, Lane.walking_oneRole h]
    by_cases hk : k = r
    · rw [hk, oneRole_get_same, oneRole_get_same, Option.map_some, hq]
      simp
    · rw [oneRole_get_ne hk, oneRole_get_ne hk]
      rfl

theorem Lane.withReads_oneRole (p : SourceRead × Bool) :
    l.withReads (oneRole r p) = { l with reads := oneRole r p.1 } := by
  rw [Lane.withReads, oneRole_map (fun p : SourceRead × Bool => p.1)]

end

/-! ## Reading on in such a job -/

/-- A chunk's readings walk no more. -/
theorem Lane.walking_chunkReads (l : Lane) (s : State) (j : Job) (p : PerRole (Option Nat))
    (h : l.reads = s.chunkReads j p) : l.walking = false := by
  rw [Lane.walking, List.any_eq_false, h, State.chunkReads]
  intro k _
  split
  · simp
  · rw [PerRole.get_map]
    cases p.get k <;> simp [SourceRead.start]

section
variable {u : State} {n : Nat} {r : Role} {j : Job} {g : Segment} {q : SourceRead}

/-- The stamp at which the reading stops. -/
def readingLimit (l : Lane) (g : Segment) (j : Job) (q : SourceRead) : Option Stamp :=
  if q.walking then some (chunkStart g l.chunk)
  else if l.chunk + 1 = j.total then none else some (chunkStart g (l.chunk + 1))

theorem Lane.readLimit_oneRole {l : Lane} (h : l.reads = oneRole r q) (g : Segment) (j : Job) :
    l.readLimit g j = readingLimit l g j q := by
  rw [Lane.readLimit, Lane.walking_oneRole h, readingLimit]

variable (hj : u.laneJob n = some j) (hg : u.jobSegment j = some g) (hr : (u.lane n).reads = oneRole r q)
  (hq : q.reached = false)
include hj hg hr hq

/-- Reading on in a job of one role, by what the reading of that role comes to. -/
theorem State.laneReadOn_oneRole {p : SourceRead × Bool}
    (hp : (u.lane n).readOn r (g.ranges.get r) (readingLimit (u.lane n) g j q)
      (171 * (u.lane n).received.length + 1) q = p) : u.laneReadOn n
    = if p.2 then u.laneFails n .sourceMalformed
      else if q.walking && !p.1.walking then u.startChunk n j (u.lane n).chunk (oneRole r p.1.unit)
      else u.setLane n { u.lane n with reads := oneRole r p.1 } := by
  have roles := Lane.readRoles_oneRole hr hq g j
  rw [Lane.readLimit_oneRole hr, hp] at roles
  rw [State.laneReadOn_eq hj hg, roles, oneRole_any (fun p : SourceRead × Bool => p.2), Lane.withReads_oneRole,
    Lane.walking_oneRole hr, Lane.walking_oneRole (l := { u.lane n with reads := oneRole r p.1 }) rfl,
    Lane.nextPositions, oneRole_map SourceRead.unit]

/-- A unit not yet returned is waited for. -/
theorem State.laneReadOn_waits
    (h : (u.lane n).readStep r (g.ranges.get r) (readingLimit (u.lane n) g j q) q = .waits) :
    (u.laneReadOn n).lane n = u.lane n := by
  rw [State.laneReadOn_oneRole hj hg hr hq (Lane.readOn_waits _ h), if_neg Bool.false_ne_true, Bool.and_not_self,
    if_neg Bool.false_ne_true, State.lane_setLane_same, ← hr]

/-- The walk's end starts the chunk at the unit found, with the sanity timer. -/
theorem State.laneReadOn_starts
    (h : (u.lane n).readStep r (g.ranges.get r) (readingLimit (u.lane n) g j q) q = .stops) (hw : q.walking = true) :
    ((u.laneReadOn n).lane n).positions = oneRole r q.unit
      ∧ ((u.laneReadOn n).lane n).timer = .running (u.chunkTicks j) ∧ ((u.laneReadOn n).lane n).walking = false
      ∧ ((u.laneReadOn n).lane n).chunk = (u.lane n).chunk := by
  have walked : (q.walking && !q.stop.walking) = true := by rw [hw]; rfl
  rw [State.laneReadOn_oneRole hj hg hr hq (Lane.readOn_stops _ h), if_neg Bool.false_ne_true, if_pos walked,
    State.startChunk, State.lane_setLane_same]
  exact ⟨rfl, rfl, Lane.walking_chunkReads _ u j (oneRole r q.unit) rfl, rfl⟩

/-- In the chunk the reading reaches the chunk's end. -/
theorem State.laneReadOn_reaches
    (h : (u.lane n).readStep r (g.ranges.get r) (readingLimit (u.lane n) g j q) q = .stops) (hw : q.walking = false) :
    (u.laneReadOn n).lane n = { u.lane n with reads := oneRole r { q with reached := true } } := by
  have inChunk : ¬ (q.walking && !q.stop.walking) = true := by rw [hw]; exact Bool.false_ne_true
  have stop : q.stop = { q with reached := true } := by rw [SourceRead.stop, hw]; rfl
  rw [State.laneReadOn_oneRole hj hg hr hq (Lane.readOn_stops _ h), if_neg Bool.false_ne_true, if_neg inChunk,
    State.lane_setLane_same, stop]

/-- Bytes that are no unit end the job as a malformed source does. -/
theorem State.laneReadOn_fails
    (h : (u.lane n).readStep r (g.ranges.get r) (readingLimit (u.lane n) g j q) q = .unfit) :
    u.laneReadOn n = u.laneFails n .sourceMalformed := by
  rw [State.laneReadOn_oneRole hj hg hr hq (Lane.readOn_unfit _ h), if_pos rfl]

end

/-! ## A read of source bytes (R92, R127) -/

section
variable {s : State} {n : Nat} {r : Role} {offset length : Nat} {j : Job} {x : Run} {q : SourceRead}

/-- A lane that has asked for its next source bytes. -/
def State.laneAsked (s : State) (n : Nat) (r : Role) (offset length : Nat) (q : SourceRead) : State :=
  s.setLane n { s.lane n with
    reads := (s.lane n).reads.set r (some { q with asked := ((offset + length - 1) / 4096 + 1) * 4096 }) }

theorem exec_laneReadRequest (hw : (s.lane n).works = true) (hj : s.laneJob n = some j)
    (hx : s.run? j.slot r = some x) (hq : (s.lane n).reads.get r = some q)
    (fits : (s.lane n).readFits r q offset length = true) : exec (.laneReadRequest n r offset length) s
      = .next ((s.laneAsked n r offset length q).laneReads n r x offset length) := by
  show Host.Outcome.next (s.laneWantsSource n r offset length) = _
  unfold State.laneWantsSource
  simp only [hw, hj, hx, hq, fits, if_true]
  rfl

/-- The pages of a read within one page. -/
theorem onePage (h : pageAt (offset + length - 1) = pageAt offset) :
    List.range' (pageAt offset) (pageAt (offset + length - 1) + 1 - pageAt offset) = [pageAt offset] := by
  rw [h, Nat.add_sub_cancel_left]
  rfl

/-- The page's buffer serves the read, and the lane reads on. -/
theorem State.laneReads_buffered {u : State} (h : pageAt (offset + length - 1) = pageAt offset) {bs : List Byte}
    (hb : u.bufferedPage (runBlockAt x offset) (pageAt offset) = some bs) : u.laneReads n r x offset length
      = (u.laneReceives n [⟨r, offset / 262144 * 262144 + pageAt offset * 4096, bs⟩]).laneReadOn n := by
  unfold State.laneReads
  rw [onePage h]
  simp [hb, Config.blockBytes, Config.pageBytes]

/-- Else it starts on the bank, if the page is not lost. -/
theorem State.laneReads_bank {u : State} (h : pageAt (offset + length - 1) = pageAt offset)
    (hb : u.bufferedPage (runBlockAt x offset) (pageAt offset) = none)
    (hl : u.pageLost (runBlockAt x offset) (pageAt offset) = false) : u.laneReads n r x offset length
      = ((u.laneReceives n []).joinLaneRead ⟨.lane n r (offset / 262144 * 262144), runBlockAt x offset,
        [pageAt offset], offset % 262144, offset % 262144 + length⟩).laneReadOn n := by
  unfold State.laneReads
  rw [onePage h]
  simp [hb, hl, Config.blockBytes]

/-- A READ that joins a bank with nothing to do starts at once (R130). -/
theorem State.joinLaneRead_starts {u : State} {q : ReadReq} (grant : (u.bank (bankOf q.block)).canGrant = true)
    (erase : (u.bank (bankOf q.block)).erase = none) (intake : (u.bank (bankOf q.block)).intakeProgram = [])
    (delivery : (u.bank (bankOf q.block)).deliveryRead = []) (lane : (u.bank (bankOf q.block)).laneRead = []) :
    ((u.joinLaneRead q).bank (bankOf q.block)).op = some (.read q true) := by
  obtain ⟨b, hb⟩ : ∃ b, b = { u.bank (bankOf q.block) with laneRead := [q] } := ⟨_, rfl⟩
  have joins : u.joinLaneRead q = (u.setBank (bankOf q.block) b).arbitrate (bankOf q.block) := by
    unfold State.joinLaneRead State.afterJoin
    simp only [State.bank_setBank_same, erase, lane, hb, List.nil_append]
  have grant' : b.canGrant = true := by rw [hb]; exact grant
  have intake' : b.intakeProgram = [] := by rw [hb]; exact intake
  have delivery' : b.deliveryRead = [] := by rw [hb]; exact delivery
  have lane' : b.laneRead = [q] := by rw [hb]
  rw [joins]
  unfold State.arbitrate
  simp only [State.bank_setBank_same, grant', intake', delivery', lane', Bool.not_true, Bool.false_eq_true, if_false]

end

end Sys2Proof.Machine
end

section
/-! PROOF. What a lane in its chunk asks the store for: a page buffer, a block, and the block bound (R72, R93, R94,
R124); and O49. -/

namespace Sys2Proof.Machine

/-! ## A read that starts on a bank (R92, R130) -/

section
variable {s : State} {n : Nat} {r : Role} {offset length : Nat} {q : SourceRead}

/-- What a lane has asked for does not say whether it walks. -/
theorem Lane.walking_asked {l : Lane} (hq : l.reads.get r = some q) (a : Nat) :
    ({ l with reads := l.reads.set r (some { q with asked := a }) } : Lane).walking = l.walking := by
  unfold Lane.walking
  congr 1
  funext k
  by_cases hk : k = r
  · rw [hk, PerRole.get_set_same, hq]
    rfl
  · rw [PerRole.get_set_ne _ _ hk]

/-- What a lane has asked for does not change what it waits for. -/
theorem State.awaitsSource_asked {t : State} (h : s.awaitsSource n) (hq : (s.lane n).reads.get r = some q)
    {a : Nat} (lane : t.lane n = { s.lane n with reads := (s.lane n).reads.set r (some { q with asked := a }) })
    (jdp : t.jdp = s.jdp) (sgc : t.sgc = s.sgc) : t.awaitsSource n := by
  intro j g k p hj hg hp walks unread
  have job : s.laneJob n = some j :=
    (State.laneJob_of (t := t) (s := s) (by rw [lane]) (by rw [jdp])).symm.trans hj
  have segment : s.jobSegment j = some g := by
    rw [← hg]
    simp only [State.jobSegment, State.lecture?, sgc]
  have walking : (t.lane n).walking = (s.lane n).walking := by rw [lane, Lane.walking_asked hq]
  have limit : (t.lane n).readLimit g j = (s.lane n).readLimit g j := by
    rw [Lane.readLimit, walking, lane, Lane.readLimit]
  rw [limit, lane]
  rw [walking] at walks
  rw [lane] at hp
  by_cases hk : k = r
  · subst hk
    obtain rfl := Option.some.inj ((PerRole.get_set_same ..).symm.trans hp)
    exact h j g k q job segment hq walks unread
  · exact h j g k p job segment ((PerRole.get_set_ne _ _ hk).symm.trans hp) walks unread

/-- With no buffer of its page a read starts on a bank with nothing to do, and the lane waits. -/
theorem State.laneReads_starts {x : Run} (h : pageAt (offset + length - 1) = pageAt offset)
    (hq : (s.lane n).reads.get r = some q)
    (hb : s.bufferedPage (runBlockAt x offset) (pageAt offset) = none)
    (hl : s.pageLost (runBlockAt x offset) (pageAt offset) = false) (waits : s.awaitsSource n)
    (grant : (s.bank (bankOf (runBlockAt x offset))).canGrant = true)
    (erase : (s.bank (bankOf (runBlockAt x offset))).erase = none)
    (intake : (s.bank (bankOf (runBlockAt x offset))).intakeProgram = [])
    (delivery : (s.bank (bankOf (runBlockAt x offset))).deliveryRead = [])
    (lane : (s.bank (bankOf (runBlockAt x offset))).laneRead = []) {t : State}
    (ht : t = (s.laneAsked n r offset length q).laneReads n r x offset length) :
    (t.bank (bankOf (runBlockAt x offset))).op = some (.read ⟨.lane n r (offset / 262144 * 262144),
        runBlockAt x offset, [pageAt offset], offset % 262144, offset % 262144 + length⟩ true)
      ∧ t.lane n = (s.laneAsked n r offset length q).lane n := by
  rw [State.laneReads_bank (u := s.laneAsked n r offset length q) h hb hl] at ht
  have starts := State.joinLaneRead_starts (u := (s.laneAsked n r offset length q).laneReceives n [])
    (q := ⟨.lane n r (offset / 262144 * 262144), runBlockAt x offset, [pageAt offset], offset % 262144,
      offset % 262144 + length⟩) grant erase intake delivery lane
  have asked : (s.laneAsked n r offset length q).lane n = { s.lane n with
      reads := (s.lane n).reads.set r (some { q with asked := ((offset + length - 1) / 4096 + 1) * 4096 }) } :=
    State.lane_setLane_same ..
  have received : ((s.laneAsked n r offset length q).laneReceives n []).lane n
      = (s.laneAsked n r offset length q).lane n := by
    rw [State.laneReceives, State.lane_setLane_same, List.append_nil]
  obtain ⟨v, hv⟩ : ∃ v, v = ((s.laneAsked n r offset length q).laneReceives n []).joinLaneRead
    ⟨.lane n r (offset / 262144 * 262144), runBlockAt x offset, [pageAt offset], offset % 262144,
      offset % 262144 + length⟩ := ⟨_, rfl⟩
  have laneV : v.lane n = (s.laneAsked n r offset length q).lane n := by
    rw [hv, State.lane_of_lanes (State.joinLaneRead_lanes ..), received]
  have jdp : v.jdp = s.jdp := by rw [hv, State.joinLaneRead_jdp]; rfl
  have sgc : v.sgc = s.sgc := by rw [hv, State.joinLaneRead_sgc]; rfl
  rw [← hv] at ht starts
  obtain ⟨rests, stc⟩ := State.laneReadOn_rests (State.awaitsSource_asked waits hq (laneV.trans asked) jdp sgc)
  rw [ht]
  exact ⟨(congrArg Bank.op (State.bank_of_stc stc _)).trans starts, rests.trans laneV⟩

end

/-! ## Output that no page has been given for (R93) -/

section
variable {s : State} {n e : Nat} {x : Extent} {output : List Byte}

/-- A lane with its chunk's last output bytes, none of them written. -/
def State.laneHolds (s : State) (n : Nat) (output : List Byte) : State :=
  s.setLane n { s.lane n with output := (s.lane n).output ++ output }

theorem State.laneHolds_lane (s : State) (n : Nat) (output : List Byte) :
    (s.laneHolds n output).lane n = { s.lane n with output := (s.lane n).output ++ output } :=
  State.lane_setLane_same ..

theorem State.laneHolds_job (s : State) (n : Nat) (output : List Byte) (m : Nat) :
    ((s.laneHolds n output).lane m).job = (s.lane m).job := by
  by_cases h : m = n
  · rw [h, State.laneHolds_lane]
  · rw [State.laneHolds, State.lane_setLane_ne _ _ h]

theorem State.laneHolds_laneJob (s : State) (n : Nat) (output : List Byte) :
    (s.laneHolds n output).laneJob n = s.laneJob n := State.laneJob_of (s.laneHolds_job n output n) rfl

theorem State.laneHolds_laneExtent (s : State) (n : Nat) (output : List Byte) :
    (s.laneHolds n output).laneExtent n = s.laneExtent n := by
  unfold State.laneExtent
  rw [State.laneHolds_laneJob]
  rfl

/-- Without a page buffer no output is written. -/
theorem State.laneWrites_holds (hx : s.laneExtent n = some (e, x)) (hf : s.fillingOf (.extent e) = none) :
    s.laneWrites n output = s.laneHolds n output := by
  have extent := (s.laneHolds_laneExtent n output).trans hx
  have filling : (s.laneHolds n output).fillingOf (.extent e) = none := hf
  show (s.laneHolds n output).laneFill n = _
  unfold State.laneFill
  simp only [extent, filling]

/-! ## A page buffer (R93, R94, R124) -/

theorem State.laneFill_held (s : State) (n : Nat) : ((s.laneFill n).lane n).held = (s.lane n).held := by
  unfold State.laneFill
  dsimp only
  (repeat' split) <;> simp only [State.lane_setLane_same]

theorem State.setBuf_buf?_ne_none {i : Nat} (h : s.buf? i ≠ none) (k : Nat) (b : Buf) :
    (s.setBuf k b).buf? i ≠ none := by
  by_cases hk : i = k
  · rw [hk, State.buf?_setBuf_same]
    exact nofun
  · rwa [State.buf?_setBuf_ne _ _ hk]

theorem State.laneFill_buf? {i : Nat} (h : s.buf? i ≠ none) (n : Nat) : (s.laneFill n).buf? i ≠ none := by
  unfold State.laneFill
  dsimp only
  split
  · exact h
  split
  · exact h
  split
  · exact h
  · exact State.setBuf_buf?_ne_none h _ _

/-- While page buffers are free one is given. -/
theorem State.laneTakeBuffer_gives (h : 40 < s.freeBuffers) (n e : Nat) (x : Extent) :
    ((s.laneTakeBuffer n e x).lane n).held = (s.lane n).held
      ∧ ∃ i < 160, s.buf? i = none ∧ (s.laneTakeBuffer n e x).buf? i ≠ none := by
  have room : s.stc.buffers.length < 160 := by
    have free : s.freeBuffers = 160 - s.stc.buffers.length := rfl
    omega
  obtain ⟨i, free, below, unused⟩ := Table.freeFrom_of_room room
  unfold State.laneTakeBuffer
  dsimp only
  refine ⟨?_, i, below, unused, State.laneFill_buf? ?_ n⟩
  · rw [State.laneFill_held, State.lane_of_lanes (State.giveBuffer_lanes ..)]
  · simp only [State.giveBuffer, Config.buffers, free, State.buf?_setBuf_same]
    exact nofun

/-! ## HELD (R94) -/

theorem State.hold_lane (s : State) (n : Nat) (kind : ClaimKind) : (s.hold n kind).lane n = { s.lane n with
    held := match kind with
      | .block => .block
      | .buffer => .buffer
    timer := match kind, (s.lane n).timer with
      | .block, .running t => .paused t
      | _, o => o } := State.lane_setLane_same ..

theorem State.hold_claims (s : State) (n : Nat) (kind : ClaimKind) :
    (⟨.lane n, kind⟩ : Claim) ∈ (s.hold n kind).stc.claims :=
  List.mem_append_right _ (List.mem_singleton.2 rfl)

/-! ## What a lane asks for -/

/-- A lane in its chunk, not HELD, with output for which its extent has no page buffer. -/
structure State.wantsPage (s : State) (n e : Nat) (x : Extent) (output : List Byte) : Prop where
  inChunk : (s.lane n).inChunk = true
  held : (s.lane n).held = .none
  extent : s.laneExtent n = some (e, x)
  filling : s.fillingOf (.extent e) = none
  output : (s.lane n).output ++ output ≠ []

section
variable (h : s.wantsPage n e x output)
include h

theorem State.wantsPage.output_isEmpty : ((s.laneHolds n output).lane n).output.isEmpty = false := by
  rw [State.laneHolds_lane]
  exact List.isEmpty_eq_false_iff.2 h.output

/-- Within its blocks the lane asks for a page buffer. -/
theorem exec_laneBufferRequest (hp : s.extentEnd e x < x.blocks.length * 262144) :
    exec (.laneBufferRequest n output) s = .next
      (if 40 < s.freeBuffers then (s.laneHolds n output).laneTakeBuffer n e x
        else (s.laneHolds n output).hold n .buffer) := by
  have extent := (s.laneHolds_laneExtent n output).trans h.extent
  have filling : (s.laneHolds n output).fillingOf (.extent e) = none := h.filling
  have within : decide (x.blocks.length * Config.blockBytes ≤ (s.laneHolds n output).extentEnd e x) = false :=
    decide_eq_false (Nat.not_le.2 hp)
  show Host.Outcome.next (s.laneWantsBuffer n output) = _
  unfold State.laneWantsBuffer
  simp only [h.inChunk, h.held, State.laneWrites_holds h.extent h.filling, extent, filling, h.output_isEmpty, within,
    Option.isSome_none, Bool.or_self, Bool.false_eq_true, if_false]
  rfl

/-- At the end of its blocks it asks for a block, or has reached the bound. -/
theorem exec_laneBlockRequest {j : Job} (hj : s.laneJob n = some j)
    (hp : s.extentEnd e x = x.blocks.length * 262144) : exec (.laneBlockRequest n output) s = .next
      (if x.blocks.length = s.blockBound j then (s.laneHolds n output).laneFails n .outputLimit
        else match s.freeHead (extentStart x) with
          | none => (s.laneHolds n output).hold n .block
          | some g => (s.laneHolds n output).appendExtentBlock e x g) := by
  have extent := (s.laneHolds_laneExtent n output).trans h.extent
  have job := (s.laneHolds_laneJob n output).trans hj
  have full : ((s.laneHolds n output).extentEnd e x != x.blocks.length * Config.blockBytes) = false :=
    bne_eq_false_iff_eq.2 hp
  show Host.Outcome.next (s.laneWantsBlock n output) = _
  unfold State.laneWantsBlock
  simp only [h.inChunk, h.held, State.laneWrites_holds h.extent h.filling, extent, job, h.output_isEmpty, full,
    Bool.or_self, Bool.false_eq_true, if_false]
  rfl

end

end

end Sys2Proof.Machine
end

section
/-! PROOF. The block bound: the job ends FAILED with OUTPUT_LIMIT and its extent is given up (R72, R85, R97, R123); and
O49. -/

namespace Sys2Proof.Machine

/-! ## What is given up leaves no claim -/

section
variable {s : State}

theorem State.discardUncommitted_ledger (s : State) (e : Nat) : (s.discardUncommitted e).ledger = s.ledger := by
  unfold State.discardUncommitted
  refine foldl_keeps State.ledger _ (fun q b => ?_) _ _
  split <;> rfl

theorem State.discardUncommitted_waits (s : State) (e : Nat) : (s.discardUncommitted e).waits = s.waits := by
  unfold State.discardUncommitted
  refine foldl_keeps State.waits _ (fun q b => ?_) _ _
  split <;> rfl

theorem State.overtake_ledger (s : State) (n : Nat) : (s.overtake n).ledger = s.ledger := by
  unfold State.overtake
  dsimp only
  split
  case h_1 => rfl
  case h_2 e x _ =>
    have kept := s.discardUncommitted_ledger e
    generalize s.discardUncommitted e = q at kept
    exact kept

/-- With no claim waiting an overtaken chunk leaves none. -/
theorem State.overtake_claims (h : s.stc.claims = []) (n : Nat) : (s.overtake n).stc.claims = [] := by
  have withdrawn : ∀ q : State, q.stc.claims = [] → (q.withdrawClaim (.lane n)).stc.claims = [] := fun q hq =>
    (congrArg (List.filter _) hq).trans (List.filter_nil ..)
  unfold State.overtake
  dsimp only
  split
  · exact withdrawn s h
  · exact withdrawn _ ((State.claims_of_waits (State.discardUncommitted_waits ..)).trans h)

theorem State.discardBuf_waits (s : State) (i : Nat) : (s.discardBuf i).waits = s.waits := by
  unfold State.discardBuf
  split
  · rfl
  split <;> rfl

theorem State.discardWhere_waits (s : State) (p : Buf → Bool) : (s.discardWhere p).waits = s.waits :=
  foldl_keeps State.waits (fun q (b : Nat × Buf) => q.discardBuf b.1) (fun q b => q.discardBuf_waits b.1) _ _

theorem State.retireBlock_waits (s : State) (g : Nat) : (s.retireBlock g).waits = s.waits := by
  unfold State.retireBlock
  exact (State.arbitrate_waits ..).trans rfl

theorem State.badBlock_waits (s : State) (g : Nat) : (s.badBlock g).waits = s.waits := by
  unfold State.badBlock State.joinCopy
  exact (State.afterJoin_waits ..).trans rfl

/-- An abandoned relocation leaves no claim where none waited. -/
theorem State.abandonReloc_claims (h : s.stc.claims = []) (r : Relocation) : (s.abandonReloc r).stc.claims = [] := by
  have withdrawn : ((s.withdrawClaim (.relocation r.owner r.failed)).dropReloc r.failed).stc.claims = [] :=
    (congrArg (List.filter _) h).trans (List.filter_nil ..)
  unfold State.abandonReloc
  generalize (s.withdrawClaim (.relocation r.owner r.failed)).dropReloc r.failed = q at withdrawn
  have reads : (q.withdrawReads (· == .relocation r.owner)).stc.claims = [] := withdrawn
  rw [State.claims_of_waits (State.badBlock_waits ..)]
  (repeat' split) <;>
    simp only [State.claims_of_waits (State.retireBlock_waits ..), State.claims_of_waits (State.discardWhere_waits ..),
      withdrawn, reads]

theorem State.giveUpBlocks_claims (h : s.stc.claims = []) (o : Owner) (blocks : List Nat) :
    (s.giveUpBlocks o blocks).stc.claims = [] := by
  have abandoned : ∀ (l : List Relocation) (q : State), q.stc.claims = [] →
      (l.foldl State.abandonReloc q).stc.claims = [] := by
    intro l
    induction l with
    | nil => exact fun _ hq => hq
    | cons r l ih => exact fun q hq => ih _ (State.abandonReloc_claims hq r)
  unfold State.giveUpBlocks
  refine (State.claims_of_waits (foldl_keeps State.waits _ (fun q g => ?_) _ _)).trans ?_
  · split
    · rfl
    · exact State.retireBlock_waits ..
  · rw [State.claims_of_waits (State.discardWhere_waits ..)]
    exact abandoned _ _ h

/-- An extent that is not PUBLISHED is given up: its record is freed, and that it is goes to the JDP (R123). -/
theorem State.giveUpExtent_frees {e slot segment rendition : Nat} {x : Extent}
    (hx : s.extentFor e slot segment rendition = some x) (hp : x.state ≠ .published) (hc : s.stc.claims = []) :
    (s.giveUpExtent e slot segment rendition).extent? e = none
      ∧ .extentRecordFreed ∈ (s.giveUpExtent e slot segment rendition).sent
      ∧ (s.giveUpExtent e slot segment rendition).stc.claims = [] := by
  simp only [State.giveUpExtent, hx, if_neg hp]
  exact ⟨Table.at?_del_same .., List.mem_append_right _ (List.mem_singleton.2 rfl), State.giveUpBlocks_claims hc ..⟩

/-- A job with an extent that ends FAILED: the extent is given up and the outcome reported (R85). -/
theorem State.failJob_reports {k e : Nat} {j : Job} {x : Extent} (he : j.extent = some e)
    (hx : s.extentFor e j.slot j.segment j.rendition = some x) (hp : x.state ≠ .published) (hc : s.stc.claims = [])
    (reason : FailReason) :
    (s.failJob k j reason).extent? e = none
      ∧ .jobOutcome j.slot j.segment j.rendition (.failed reason) ∈ (s.failJob k j reason).sent
      ∧ .extentRecordFreed ∈ (s.failJob k j reason).sent ∧ (s.failJob k j reason).stc.claims = [] := by
  obtain ⟨gone, freed, claims⟩ := State.giveUpExtent_frees hx hp hc
  unfold State.failJob
  simp only [he]
  generalize s.giveUpExtent e j.slot j.segment j.rendition = u at gone freed claims
  obtain ⟨v, hv⟩ : ∃ v, v = (u.send (.jobOutcome j.slot j.segment j.rendition (.failed reason))).freeJob k := ⟨_, rfl⟩
  have record : v.extent? e = none := by rw [hv]; exact gone
  have outcome : .jobOutcome j.slot j.segment j.rendition (.failed reason) ∈ v.sent := by
    rw [hv]
    exact State.freeJob_keeps (List.mem_append_right _ (List.mem_singleton.2 rfl)) rfl
  have given : .extentRecordFreed ∈ v.sent := by
    rw [hv]
    exact State.freeJob_keeps (List.mem_append_left _ freed) rfl
  have none : v.stc.claims = [] := by rw [hv]; exact claims
  rw [← hv, State.extent?_of_ledger (State.raise_ledger ..), State.sent_of_ledger (State.raise_ledger ..),
    State.raise_stc]
  exact ⟨record, outcome, given, none⟩

end

/-! ## The bound -/

section
variable {s : State} {n k e : Nat} {j : Job} {x : Extent}

/-- A lane whose job ends FAILED: the extent is given up, and its record and the outcome are under way. -/
theorem State.failLaneJob_reports (hk : (s.lane n).job = some k) (hj : s.job? k = some j)
    (hx : s.laneExtent n = some (e, x)) (hp : x.state ≠ .published) (hl : s.jdp.live = []) (hb : s.jdp.backlog = [])
    (hc : s.stc.claims = []) (reason : FailReason) :
    (s.failLaneJob n reason).finish.extent? e = none
      ∧ .jobOutcome j.slot j.segment j.rendition (.failed reason) ∈ (s.failLaneJob n reason).finish.sent
      ∧ .extentRecordFreed ∈ (s.failLaneJob n reason).finish.sent := by
  obtain ⟨extent, inUse⟩ := State.laneExtent_some hx (State.laneJob_eq hk hj)
  have inUse' : (s.overtake n).extentFor e j.slot j.segment j.rendition = some x := by
    rw [← inUse, State.extentFor, State.extent?_of_ledger (s.overtake_ledger n)]
    rfl
  obtain ⟨gone, outcome, freed, claims⟩ := State.failJob_reports (s := s.overtake n) (k := k) extent inUse' hp
    (State.overtake_claims hc n) reason
  obtain ⟨live, backlog⟩ := State.failJob_overtake_empty (n := n) (k := k) (j := j) hl hb reason
  rw [State.failLaneJob_eq hk hj]
  have ledger := (State.finish_ledger
    (s := ((s.overtake n).failJob k j reason).laneWithout n (afterJob (s.lane n).state))
    (by rw [State.laneWithout_jdp, live]) (by rw [State.laneWithout_jdp, backlog])
    (by rw [State.claims_of_waits (State.laneWithout_waits ..), claims])).trans (State.laneWithout_ledger ..)
  rw [State.extent?_of_ledger ledger, State.sent_of_ledger ledger]
  exact ⟨gone, outcome, freed⟩

end

section
variable {s : State} {n e : Nat} {x : Extent} {output : List Byte} (h : s.wantsPage n e x output)
include h

/-- While more than 40 page buffers are free the lane is given one, else it is HELD for one (R93, R94, R124). -/
theorem exec_laneBufferRequest_cases (hp : s.extentEnd e x < x.blocks.length * 262144) :
    (40 < s.freeBuffers → ∃ t, exec (.laneBufferRequest n output) s = .next t ∧ (t.lane n).held = .none
      ∧ ∃ i < 160, s.buf? i = none ∧ t.buf? i ≠ none)
    ∧ (¬ 40 < s.freeBuffers → ∃ t, exec (.laneBufferRequest n output) s = .next t ∧ (t.lane n).held = .buffer
      ∧ (⟨.lane n, .buffer⟩ : Claim) ∈ t.stc.claims) := by
  have step := exec_laneBufferRequest h hp
  refine ⟨fun free => ?_, fun few => ?_⟩
  · rw [if_pos free] at step
    obtain ⟨held, given⟩ := State.laneTakeBuffer_gives (s := s.laneHolds n output) free n e x
    refine ⟨_, step, ?_, given⟩
    rw [held, State.laneHolds_lane]
    exact h.held
  · rw [if_neg few] at step
    refine ⟨_, step, ?_, State.hold_claims ..⟩
    rw [State.hold_lane]

/-- Below the bound the lane is given a block while one is free, else it is HELD with its timer paused (R93, R94). -/
theorem exec_laneBlockRequest_cases {j : Job} (hj : s.laneJob n = some j)
    (hp : s.extentEnd e x = x.blocks.length * 262144) (bound : x.blocks.length ≠ s.blockBound j) :
    (∀ g, s.freeHead (extentStart x) = some g →
      ∃ t, exec (.laneBlockRequest n output) s = .next t ∧ t.extent? e = some { x with blocks := x.blocks ++ [g] })
    ∧ (s.freeHead (extentStart x) = none →
      ∃ t, exec (.laneBlockRequest n output) s = .next t ∧ (t.lane n).held = .block
        ∧ (⟨.lane n, .block⟩ : Claim) ∈ t.stc.claims
        ∧ (∀ left, (s.lane n).timer = .running left → (t.lane n).timer = .paused left)) := by
  have step := exec_laneBlockRequest h hj hp
  rw [if_neg bound] at step
  refine ⟨fun g free => ?_, fun none => ?_⟩
  · simp only [free] at step
    exact ⟨_, step, Table.at?_put_same ..⟩
  · simp only [none] at step
    refine ⟨_, step, ?_, State.hold_claims .., fun left running => ?_⟩
    · rw [State.hold_lane]
    · rw [State.hold_lane, State.laneHolds_lane]
      simp only [running]

/-- At the bound the job ends FAILED with OUTPUT_LIMIT (R72, R85, R97). -/
theorem exec_laneBlockRequest_bound {j : Job} {k : Nat} (hk : (s.lane n).job = some k) (hj : s.job? k = some j)
    (hp : s.extentEnd e x = x.blocks.length * 262144) (bound : x.blocks.length = s.blockBound j)
    (hl : s.jdp.live = []) (hb : s.jdp.backlog = []) (hc : s.stc.claims = []) (hx : x.state ≠ .published) :
    ∃ t, exec (.laneBlockRequest n output) s = .next t ∧ (t.lane n).state = afterJob (s.lane n).state
      ∧ (t.lane n).job = none ∧ t.job? k = none ∧ t.extent? e = none ∧ t.condition .jobFailed = true
      ∧ .jobOutcome j.slot j.segment j.rendition (.failed .outputLimit) ∈ t.sent ∧ .extentRecordFreed ∈ t.sent := by
  have step := exec_laneBlockRequest h (State.laneJob_eq hk hj) hp
  have lane := s.laneHolds_lane n output
  have works : ((s.laneHolds n output).lane n).works = true := by
    rw [lane]
    exact (Bool.and_eq_true_iff.1 h.inChunk).1
  have job : ((s.laneHolds n output).lane n).job = some k := by
    rw [lane]
    exact hk
  have before : ((s.laneHolds n output).lane n).state = (s.lane n).state := by rw [lane]
  rw [if_pos bound, State.laneFails_works works] at step
  obtain ⟨state, noJob, -, gone, failed⟩ := State.failLaneJob_finish (s := s.laneHolds n output) job hj hl hb
    .outputLimit
  obtain ⟨extent, outcome, freed⟩ := State.failLaneJob_reports (s := s.laneHolds n output) job hj
    ((s.laneHolds_laneExtent n output).trans h.extent) hx hl hb hc .outputLimit
  rw [before] at state
  exact ⟨_, step, state, noJob, gone, extent, failed, outcome, freed⟩

end

/-! ## The statement -/

/-- Settles O49: a read of source bytes, the steps of a reading, reading on in a job of one role, and what a lane in its
chunk is given, waits for or ends at. -/
theorem laneRequests : Obligations.LaneRequests := by
  refine ⟨fun s n r offset length j x q hw hj hx hq fits page => ?_, fun l r x limit q last hx => ?_,
    fun u n r j g q hj hg hr hq => ?_, fun s n e x output hi hh hx hf ho => ?_⟩
  · have step := exec_laneReadRequest hw hj hx hq fits
    refine ⟨fun bs hb => ?_, fun hb hl waits grant erase intake delivery lane => ?_⟩
    · rw [step, State.laneReads_buffered (u := s.laneAsked n r offset length q) page hb]
      rfl
    · exact ⟨_, step, State.laneReads_starts page hq hb hl waits grant erase intake delivery lane rfl⟩
  · exact ⟨Lane.readStep_end hx, Lane.readStep_waits hx, Lane.readStep_unfit hx,
      fun room header marker => ⟨fun stamp hl beyond => Lane.readStep_limit hx room header marker hl beyond,
        fun before fits whole => Lane.readStep_passes hx room header marker before fits whole⟩⟩
  · exact ⟨State.laneReadOn_waits hj hg hr hq, State.laneReadOn_starts hj hg hr hq,
      State.laneReadOn_reaches hj hg hr hq, fun unfit => (congrArg Host.Outcome.next (State.laneReadOn_fails hj hg hr hq unfit)).symm⟩
  · have wants : s.wantsPage n e x output := ⟨hi, hh, hx, hf, ho⟩
    exact ⟨exec_laneBufferRequest_cases wants, fun j hj hp bound => exec_laneBlockRequest_cases wants hj hp bound,
      fun j k hk hj hp bound _ hl hb hc published =>
        exec_laneBlockRequest_bound wants hk hj hp bound hl hb hc published⟩

end Sys2Proof.Machine
end

section
/-! PROOF. The banks' contents keep their canonical form (O57): only the ends of a PROGRAM, an APPEND and an ERASE and
the resets write them (R116, R125, R137), and what those write is canonical. -/

namespace Sys2Proof.Machine

theorem State.ite_mem {p : Prop} [Decidable p] {s t u : State} (ht : t.mem = s.mem) (hu : u.mem = s.mem) :
    (if p then t else u).mem = s.mem := by
  split
  · exact ht
  · exact hu

/-! ## The capture trunk and the return frame leave the banks' contents -/

section
variable (s : State)

theorem State.level_mem (k : Condition) (b : Bool) : (s.level k b).mem = s.mem := by
  unfold State.level
  split
  · exact State.raise_mem ..
  · rfl

theorem State.enterSync_mem (t : Trr) : (s.enterSync t).mem = s.mem := rfl

theorem State.leaveSync_mem (cause : LossCause) : (s.leaveSync cause).mem = s.mem := by
  unfold State.leaveSync
  rw [State.mem_of_still (State.serveClaims_still _), State.mem_of_still (State.trunkEvent_still _), State.raise_mem,
    State.lower_mem, State.mem_of_still (State.intakeLoss_still _)]

theorem State.searchBit_mem (bit : Bool) : (s.searchBit bit).mem = s.mem := by
  unfold State.searchBit
  dsimp only
  split
  · rfl
  · exact State.ite_mem rfl rfl

theorem State.farEnd_mem (flag : Bool) : (s.farEnd flag).mem = s.mem := by
  unfold State.farEnd
  dsimp only
  split
  · rfl
  · split
    · rfl
    · rw [State.mem_of_still (State.trunkEvent_still _), State.level_mem]

theorem State.deliver_mem (f : ForwardFrame) (count : Nat) (right : Bool) : (s.deliver f count right).mem = s.mem := by
  unfold State.deliver
  dsimp only
  split
  · exact State.farEnd_mem ..
  · rfl

theorem State.searchSuperframe_mem (f : ForwardFrame) : (s.searchSuperframe f).mem = s.mem := by
  unfold State.searchSuperframe
  dsimp only
  (repeat' split) <;> rfl

theorem State.searchCheck_mem (f : ForwardFrame) : (s.searchCheck f).mem = s.mem := by
  unfold State.searchCheck
  dsimp only
  split
  · rfl
  · split
    · exact (State.deliver_mem ..).trans (State.enterSync_mem ..)
    · split <;> rfl

theorem State.inSync_mem (f : ForwardFrame) : (s.inSync f).mem = s.mem := by
  unfold State.inSync
  dsimp only
  split
  · exact State.leaveSync_mem ..
  · exact State.deliver_mem ..

theorem State.giveReport_mem : s.giveReport.1.mem = s.mem := by
  unfold State.giveReport
  split
  · rfl
  · split <;> rfl

theorem State.returnCell_mem (e : ReturnEntry) : (s.returnCell e).1.mem = s.mem := by
  cases e with
  | free => rfl
  | channel c => exact State.mem_of_still (State.fillCell_still s c)

theorem State.returnCells_mem (m : Table ReturnEntry) (l : List Nat) : (State.returnCells m l s).1.mem = s.mem := by
  induction l generalizing s with
  | nil => rfl
  | cons p l ih => exact (ih _).trans (State.returnCell_mem ..)

theorem State.buildReturn_mem : s.buildReturn.mem = s.mem :=
  (State.returnCells_mem _ _ _).trans (State.giveReport_mem _)

theorem State.setCheck_mem (on : Bool) : (s.setCheck on).mem = s.mem := by
  unfold State.setCheck
  dsimp only
  split
  · rfl
  · split
    · split <;> rfl
    · rfl
    · rfl

theorem State.setAuto_mem (on : Bool) : (s.setAuto on).mem = s.mem := by
  unfold State.setAuto
  dsimp only
  split
  · split
    · exact State.leaveSync_mem ..
    · rfl
  · rfl

/-! ## So do the groups and a tick -/

theorem State.takeFault_mem (g : Nat) : (s.takeFault g).mem = s.mem := by
  rw [State.takeFault_eq, State.finish_mem, State.raise_mem, State.startFalling_mem]
  exact State.mem_of_still (State.lanesFault_still s g)

theorem State.risingEnd_mem (g : Nat) : (s.risingEnd g).mem = s.mem := by
  unfold State.risingEnd
  dsimp only
  split
  · rfl
  split
  · have starts := s.memoryStarts_mem g
    exact State.ite_mem ((State.takeFault_mem (s.memoryStarts g) g).trans starts) starts
  · rfl
  · exact s.groupRisen_mem g

theorem State.fallingEnd_mem (g : Nat) : (s.fallingEnd g).mem = s.mem := by
  unfold State.fallingEnd
  dsimp only
  split
  · rfl
  split
  · exact (State.mem_of_still (State.setScratch_still ..)).trans rfl
  · rfl
  · rfl

theorem State.tickGroup_mem (g : Nat) : (s.tickGroup g).mem = s.mem := by
  unfold State.tickGroup
  dsimp only
  split
  · rfl
  split
  · exact State.risingEnd_mem ..
  · exact State.fallingEnd_mem ..
  · rfl

theorem State.tick_mem : s.tick.mem = s.mem := by
  have gaps := foldl_still _ State.tickGaps_still (List.range 32) s.countDown
  have skews := foldl_still _ State.tickSkew_still (List.range 32) ((List.range 32).foldl State.tickGaps s.countDown)
  have lanes := foldl_still _ State.tickLane_still laneNumbers
    ((List.range 32).foldl State.tickSkew ((List.range 32).foldl State.tickGaps s.countDown))
  unfold State.tick
  dsimp only
  rw [State.buildReturn_mem, foldl_keeps State.mem State.tickGroup State.tickGroup_mem, State.mem_of_still lanes,
    State.mem_of_still skews, State.mem_of_still gaps]
  rfl

end

/-! ## Directives -/

/-- A directive's owner leaves the banks' contents. -/
def keepsBanks (act : State → Answered) : Prop := ∀ s, (act s).1.mem = s.mem

theorem State.directive_mem {act : State → Answered} (h : keepsBanks act) (s : State) (c : Instr) (code : Nat)
    (tag : Word16) (ok : Bool) : (s.directive c code tag ok act).mem = s.mem := by
  unfold State.directive
  dsimp only
  split
  · exact h _
  split
  · rfl
  split
  · exact h _
  · rfl

theorem actTrunkSet_mem (a b c : Byte) : keepsBanks (actTrunkSet a b c) := by
  intro s
  unfold actTrunkSet
  split
  · exact (State.setAuto_mem ..).trans (State.setCheck_mem ..)
  · rfl

theorem actTrunkQuery_mem (a b : Byte) : keepsBanks (actTrunkQuery a b) := by
  intro s
  unfold actTrunkQuery
  split
  · exact State.ite_mem rfl rfl
  · rfl

theorem actTrunkResync_mem : keepsBanks actTrunkResync := by
  intro s
  unfold actTrunkResync
  split
  · exact State.leaveSync_mem ..
  · rfl
  · rfl

theorem actCellmapSet_mem (a b : Byte) (es : List RawMapEntry) : keepsBanks (actCellmapSet a b es) := by
  intro s
  unfold actCellmapSet actForwardMap actReturnMap
  (repeat' split) <;> rfl

theorem actProfileSet_mem (p o k r b : Byte) (l x : Word16) : keepsBanks (actProfileSet p o k r b l x) := by
  intro s
  unfold actProfileSet
  (repeat' split) <;> rfl

theorem actProfileClear_mem (p : Byte) : keepsBanks (actProfileClear p) := by
  intro s
  unfold actProfileClear
  (repeat' split) <;> rfl

theorem profileSetWrite_mem (p o k r b : Byte) (l x : Word16) :
    keepsBanks (if o = 0 then actProfileClear p else actProfileSet p o k r b l x) := by
  split
  · exact actProfileClear_mem p
  · exact actProfileSet_mem p o k r b l x

theorem actProfileQuery_mem (p : Byte) : keepsBanks (actProfileQuery p) := by
  intro s
  unfold actProfileQuery
  split <;> rfl

theorem actLectureLoad_mem (b : LoadBody) : keepsBanks (actLectureLoad b) := by
  intro s
  unfold actLectureLoad
  split; rfl
  split; rfl
  split; rfl
  split
  · rfl
  split; rfl
  split; rfl
  exact State.mem_of_still (State.load_still ..)

theorem actLectureQuery_mem (b : Byte) : keepsBanks (actLectureQuery b) := by
  intro s
  unfold actLectureQuery
  (repeat' split) <;> rfl

theorem State.serveClaims_mem (s : State) : s.serveClaims.mem = s.mem := State.mem_of_still (State.serveClaims_still s)

theorem actLectureClose_mem (b : Byte) : keepsBanks (actLectureClose b) := by
  intro s
  unfold actLectureClose
  split; rfl
  split
  · rfl
  split
  · exact (State.serveClaims_mem _).trans (State.mem_of_still (State.closeLecture_still ..))
  · exact (State.serveClaims_mem _).trans (State.mem_of_still (State.endLecture_still ..))
  · exact (State.serveClaims_mem _).trans (State.mem_of_still (State.enterEnding_still ..))
  · rfl
  · rfl

theorem actLectureAbort_mem (b : Byte) : keepsBanks (actLectureAbort b) := by
  intro s
  unfold actLectureAbort
  split; rfl
  split
  · rfl
  split
  · rfl
  · exact (State.serveClaims_mem _).trans (State.mem_of_still (State.abort_still ..))

theorem actLectureRelease_mem (b : Byte) (n : Word16) : keepsBanks (actLectureRelease b n) := by
  intro s
  unfold actLectureRelease
  split; rfl
  split; rfl
  split; rfl
  refine (State.serveClaims_mem _).trans (State.mem_of_still ?_)
  rw [State.entriesFreed_still, State.modLecture_still, State.removeEntries_still]

theorem actLectureArchive_mem (b : Byte) : keepsBanks (actLectureArchive b) := by
  intro s
  unfold actLectureArchive
  split; rfl
  split
  · rfl
  split; rfl
  split; rfl
  refine (State.serveClaims_mem _).trans (State.mem_of_still ?_)
  rw [State.entriesFreed_still, State.lectureEvent_still, State.archive_still]

theorem actSegmentQuery_mem (b : Byte) (n : Word16) : keepsBanks (actSegmentQuery b n) := by
  intro s
  unfold actSegmentQuery
  (repeat' split) <;> rfl

theorem actDispatchSet_mem (a b : Byte) : keepsBanks (actDispatchSet a b) := by
  intro s
  unfold actDispatchSet
  split; rfl
  split
  · exact State.finish_mem _
  split
  · exact State.finish_mem _
  · rfl

theorem actQueueQuery_mem (a b : Byte) : keepsBanks (actQueueQuery a b) := by
  intro s
  unfold actQueueQuery
  (repeat' split) <;> rfl

theorem actLaneRemove_mem (b : Byte) : keepsBanks (actLaneRemove b) := by
  have out : ∀ (s : State) n, (s.laneWithout n .out).finish.mem = s.mem := fun s n =>
    (State.finish_mem _).trans (State.mem_of_still (State.laneWithout_still ..))
  intro s
  unfold actLaneRemove
  dsimp only
  split; rfl
  split
  · exact out s b.toNat
  · show (s.drain b.toNat).finish.mem = s.mem
    rw [State.finish_mem]
    exact State.mem_of_still (State.drain_still ..)
  · rfl
  · exact out s b.toNat
  · exact out s b.toNat
  · rfl
  · rfl

theorem actLaneRemoveForce_mem (b : Byte) : keepsBanks (actLaneRemoveForce b) := by
  have out : ∀ (s : State) n, (s.returnLaneJob n .out).finish.mem = s.mem := fun s n =>
    (State.finish_mem _).trans (State.mem_of_still (State.returnLaneJob_still ..))
  intro s
  unfold actLaneRemoveForce
  dsimp only
  split; rfl
  split
  · exact out s b.toNat
  · exact out s b.toNat
  · exact actLaneRemove_mem b s

theorem actLaneRestore_mem (b : Byte) : keepsBanks (actLaneRestore b) := by
  have test : ∀ (s : State) n, (s.startTest n).finish.mem = s.mem := fun s n =>
    (State.finish_mem _).trans (State.mem_of_still (State.startTest_still ..))
  intro s
  unfold actLaneRestore
  dsimp only
  split; rfl
  split
  · exact test s b.toNat
  · exact test s b.toNat
  · rfl

theorem actLaneQuery_mem (b : Byte) : keepsBanks (actLaneQuery b) := by
  intro s
  unfold actLaneQuery
  split <;> rfl

theorem actGroupOn_mem (b : Byte) : keepsBanks (actGroupOn b) := by
  intro s
  unfold actGroupOn
  dsimp only
  split
  · rfl
  · split <;> rfl

theorem State.startFalling_finish_mem (s : State) (g : Nat) : ((s.startFalling g false).finish).mem = s.mem :=
  (State.finish_mem _).trans (State.startFalling_mem ..)

theorem actGroupOff_mem (b : Byte) : keepsBanks (actGroupOff b) := by
  intro s
  unfold actGroupOff
  dsimp only
  split; rfl
  split
  · split
    · show (s.startFalling b.toNat false).finish.mem = s.mem
      exact State.startFalling_finish_mem ..
    · rfl
  · rfl
  · rfl
  · rfl

theorem actGroupOffForce_mem (b : Byte) : keepsBanks (actGroupOffForce b) := by
  intro s
  unfold actGroupOffForce
  dsimp only
  split; rfl
  split
  · show ((s.lanesReturned b.toNat).startFalling b.toNat false).finish.mem = s.mem
    rw [State.startFalling_finish_mem]
    exact State.mem_of_still (State.lanesReturned_still ..)
  · rfl
  · rfl
  · rfl

theorem actStoreSet_mem (w : Word16) : keepsBanks (actStoreSet w) := by
  intro s
  unfold actStoreSet
  split
  · show (State.evalLevels { s with stc := { s.stc with lowMark := w.toNat } }).mem = s.mem
    rw [State.mem_of_still (State.evalLevels_still _)]
  · rfl

theorem actStoreQuery_mem (b : Byte) : keepsBanks (actStoreQuery b) := by
  intro s
  unfold actStoreQuery
  split <;> rfl

theorem actFetch_mem (c sl r : Byte) (f : Word16) (m : Byte) (l : Word16) : keepsBanks (actFetch c sl r f m l) := by
  intro s
  unfold actFetch
  dsimp only
  split
  · rfl
  split; rfl
  split; rfl
  split; rfl
  split
  · rfl
  split; rfl
  exact State.mem_of_still (State.fetch_still ..)

theorem actStop_mem (c : Byte) : keepsBanks (actStop c) := by
  intro s
  unfold actStop
  dsimp only
  split; rfl
  split; rfl
  split; rfl
  exact State.mem_of_still (State.stopChannel_still ..)

theorem actChannelQuery_mem (c : Byte) : keepsBanks (actChannelQuery c) := by
  intro s
  unfold actChannelQuery
  split <;> rfl

/-! ## Commands that write a bank keep the canonical form -/

theorem State.readyAtReset_mem (s : State) : s.readyAtReset.mem = s.mem := by
  unfold State.readyAtReset
  split
  · exact State.mem_of_still ((State.storeEvent_still _).trans (State.evalLevels_still _))
  · rfl

theorem wf_fireReset {s : State} (h : Memory.wf s.mem = true) : Memory.wf s.fireReset.mem = true := by
  unfold State.fireReset
  rw [State.readyAtReset_mem]
  exact wf_abandonAppend s h

theorem State.handOverDirective_mem (s : State) (c : Instr) : (s.handOverDirective c).mem = s.mem := by
  unfold State.handOverDirective
  split <;> rfl

theorem State.cellDirective_mem (s : State) (cell : List Byte) : (s.cellDirective cell).mem = s.mem := by
  unfold State.cellDirective
  dsimp only
  split; rfl
  split; rfl
  split
  · rfl
  · exact State.handOverDirective_mem ..

theorem wf_takeControlCell {s : State} (h : Memory.wf s.mem = true) (cell : List Byte) :
    Memory.wf (s.takeControlCell cell).mem = true := by
  unfold State.takeControlCell
  split; exact h
  split; exact h
  split
  · exact wf_fireReset h
  · rw [State.cellDirective_mem]
    exact h

/-! ### The ends of bank operations: what each writes (R116, R125, R137; log 13, log 14) -/

theorem State.programDone_mem (s : State) (p : ProgramReq) (buf : Buf) :
    (s.programDone p buf).mem = memPut s.mem (pageAddress p.block p.page) buf.data := by
  unfold State.programDone
  dsimp only
  split
  · exact State.mem_of_still (State.freeBuf_still ..)
  split
  · split
    · exact State.mem_of_still ((State.pageCopied_still ..).trans (State.freeBuf_still ..))
    · exact State.mem_of_still (State.switchReloc_still ..)
  · exact State.mem_of_still ((State.protectTest_still ..).trans (State.freeBuf_still ..))

theorem State.endProgram_failed_mem (s : State) (b : Nat) (p : ProgramReq) : (s.endProgram b p false).mem = s.mem := by
  unfold State.endProgram
  dsimp only
  split
  · exact State.mem_of_still (State.arbitrate_still ..)
  · exact State.mem_of_still ((State.arbitrate_still ..).trans (State.programFailed_still ..))

theorem State.endProgram_bound {s : State} {b : Nat} {p : ProgramReq} {buf : Buf} (h : s.buf? p.buffer = some buf)
    (success : Bool) : s.endProgram b p success
      = (if success then (s.setBank b { s.bank b with op := none }).programDone p buf
        else (s.setBank b { s.bank b with op := none }).programFailed p buf).arbitrate b := by
  show (match s.buf? p.buffer with
    | none => _
    | some buf => _) = _
  rw [h]

theorem State.endProgram_unbound {s : State} {b : Nat} {p : ProgramReq} (h : s.buf? p.buffer = none) (success : Bool) :
    s.endProgram b p success = (s.setBank b { s.bank b with op := none }).arbitrate b := by
  show (match s.buf? p.buffer with
    | none => _
    | some buf => _) = _
  rw [h]

theorem State.endProgram_done_mem {s : State} {b : Nat} {p : ProgramReq} {buf : Buf} (h : s.buf? p.buffer = some buf) :
    (s.endProgram b p true).mem = memPut s.mem (pageAddress p.block p.page) buf.data := by
  rw [State.endProgram_bound h, State.mem_of_still (State.arbitrate_still ..)]
  exact State.programDone_mem ..

theorem State.endProgram_unbound_mem {s : State} {b : Nat} {p : ProgramReq} (h : s.buf? p.buffer = none) (success : Bool) :
    (s.endProgram b p success).mem = s.mem := by
  rw [State.endProgram_unbound h]
  exact State.mem_of_still (State.arbitrate_still ..)

theorem wf_endProgram {s : State} (h : Memory.wf s.mem = true) (b : Nat) (p : ProgramReq) (success : Bool) :
    Memory.wf (s.endProgram b p success).mem = true := by
  cases hb : s.buf? p.buffer with
  | none => rwa [State.endProgram_unbound_mem hb]
  | some buf =>
    cases success with
    | false => rwa [State.endProgram_failed_mem]
    | true =>
      rw [State.endProgram_done_mem hb]
      exact wf_memPut _ _ _ h

/-- What an APPEND that ends leaves from its place on. -/
def appendLeaves (g : Nat) (success : Bool) (left : List Byte) : List Byte :=
  (if success then placeEntry g else left).take Config.placeBytes

theorem State.endAppend_mem (s : State) (b g k : Nat) (success : Bool) (left : List Byte) :
    (s.endAppend b g k success left).mem = memPut s.mem (placeAddress k) (appendLeaves g success left) := by
  cases success <;> exact State.mem_of_still (State.arbitrate_still ..)

theorem State.scrubCount_mem (s : State) (scrub : Bool) : (s.scrubCount scrub).mem = s.mem := by
  unfold State.scrubCount
  split
  · dsimp only
    split
    · exact (State.mem_of_still ((State.storeEvent_still _).trans (State.evalLevels_still _))).trans rfl
    · rfl
  · rfl

theorem State.endErase_mem (s : State) (b : Nat) (e : Erase) (success : Bool) : (s.endErase b e success).mem
    = if success then memErase s.mem (e.block * Config.blockBytes) Config.blockBytes else s.mem := by
  unfold State.endErase
  dsimp only
  rw [State.mem_of_still (State.arbitrate_still ..), State.scrubCount_mem,
    State.mem_of_still (State.evalLevels_still _)]
  cases success with
  | true => rfl
  | false => exact State.mem_of_still (State.badBlock_still ..)

theorem wf_endErase {s : State} (h : Memory.wf s.mem = true) (b : Nat) (e : Erase) (success : Bool) :
    Memory.wf (s.endErase b e success).mem = true := by
  rw [State.endErase_mem]
  split
  · exact wf_memErase _ _ _ h
  · exact h

theorem wf_opLimit {s : State} (h : Memory.wf s.mem = true) (b : Nat) (left : Unfinished) :
    Memory.wf (s.opLimit b left).mem = true := by
  unfold State.opLimit
  split
  · rwa [State.mem_of_still (State.endRead_still ..)]
  · rw [State.serveClaims_mem]
    exact wf_endProgram h ..
  · rw [State.serveClaims_mem, State.endAppend_mem]
    exact wf_memPut _ _ _ h
  · split
    · split
      · exact h
      · rw [State.serveClaims_mem]
        exact wf_endErase h ..
    · exact h

/-! ## A command -/

/-- The commands that may write a bank: the ends of a PROGRAM, an APPEND and an ERASE, and what resets the part. -/
def writesBanks : Instr → Bool
  | .powerOnReset _ | .controlCell _ | .reset _ _ | .storeOpLimit _ _ | .programEnd _ _ | .eraseEnd _ _
  | .appendEnd _ _ => true
  | _ => false

/-- A command has an outcome, and leaves the banks' contents. -/
def leavesBanks (i : Instr) (s : State) : Prop := ∃ t, exec i s = .next t ∧ t.mem = s.mem

theorem State.served_mem {s t : State} (h : t.mem = s.mem) : t.serveClaims.mem = s.mem :=
  (State.serveClaims_mem t).trans h

theorem supplyFault_mem (g : Nat) (s : State) : leavesBanks (Instr.supplyFault g) s :=
  ⟨_, rfl, State.ite_mem rfl (State.ite_mem (State.takeFault_mem ..) rfl)⟩

theorem suspendLimit_mem (b : Nat) (s : State) : leavesBanks (Instr.suspendLimit b) s := by
  refine ⟨_, rfl, ?_⟩
  split
  · exact State.ite_mem rfl rfl
  · rfl

theorem eraseSuspendEffect_mem (b : Nat) (s : State) : leavesBanks (Instr.eraseSuspendEffect b) s := by
  refine ⟨_, rfl, ?_⟩
  split
  · exact State.ite_mem (State.mem_of_still (State.arbitrate_still ..)) rfl
  · rfl

theorem readEnd_mem (b : Nat) (errors : List Nat) (s : State) : leavesBanks (Instr.readEnd b errors) s := by
  refine ⟨_, rfl, ?_⟩
  split
  · exact State.mem_of_still (State.endRead_still ..)
  · rfl

theorem sourceLowMark_mem (slot : Nat) (r : Role) (mark : Nat) (s : State) :
    leavesBanks (Instr.sourceLowMark slot r mark) s := by
  refine ⟨_, rfl, ?_⟩
  dsimp only
  split
  · rfl
  · exact State.served_mem ((State.mem_of_still (State.retireTest_still ..)).trans rfl)

theorem leavesBanks_of_not_writesBanks {i : Instr} (h : writesBanks i = false) (s : State) : leavesBanks i s := by
  cases i with
  | powerOnReset | controlCell | reset | storeOpLimit | programEnd | eraseEnd | appendEnd => cases h
  | status => exact ⟨_, rfl, State.directive_mem (fun _ => rfl) ..⟩
  | alarmRetire => exact ⟨_, rfl, State.directive_mem (fun _ => rfl) ..⟩
  | resetArm => exact ⟨_, rfl, State.directive_mem (fun _ => rfl) ..⟩
  | trunkSet => exact ⟨_, rfl, State.directive_mem (actTrunkSet_mem _ _ _) ..⟩
  | trunkQuery => exact ⟨_, rfl, State.directive_mem (actTrunkQuery_mem _ _) ..⟩
  | trunkResync => exact ⟨_, rfl, State.directive_mem actTrunkResync_mem ..⟩
  | cellmapSet => exact ⟨_, rfl, State.directive_mem (actCellmapSet_mem _ _ _) ..⟩
  | profileSetWrite => exact ⟨_, rfl, State.directive_mem (profileSetWrite_mem _ _ _ _ _ _ _) ..⟩
  | profileSetClear => exact ⟨_, rfl, State.directive_mem (actProfileClear_mem _) ..⟩
  | profileQuery => exact ⟨_, rfl, State.directive_mem (actProfileQuery_mem _) ..⟩
  | lectureLoad => exact ⟨_, rfl, State.directive_mem (actLectureLoad_mem _) ..⟩
  | lectureQuery => exact ⟨_, rfl, State.directive_mem (actLectureQuery_mem _) ..⟩
  | lectureClose => exact ⟨_, rfl, State.directive_mem (actLectureClose_mem _) ..⟩
  | lectureAbort => exact ⟨_, rfl, State.directive_mem (actLectureAbort_mem _) ..⟩
  | lectureRelease => exact ⟨_, rfl, State.directive_mem (actLectureRelease_mem _ _) ..⟩
  | lectureArchive => exact ⟨_, rfl, State.directive_mem (actLectureArchive_mem _) ..⟩
  | segmentQuery => exact ⟨_, rfl, State.directive_mem (actSegmentQuery_mem _ _) ..⟩
  | dispatchSet => exact ⟨_, rfl, State.directive_mem (actDispatchSet_mem _ _) ..⟩
  | queueQuery => exact ⟨_, rfl, State.directive_mem (actQueueQuery_mem _ _) ..⟩
  | laneRemove => exact ⟨_, rfl, State.directive_mem (actLaneRemove_mem _) ..⟩
  | laneRemoveForce => exact ⟨_, rfl, State.directive_mem (actLaneRemoveForce_mem _) ..⟩
  | laneRestore => exact ⟨_, rfl, State.directive_mem (actLaneRestore_mem _) ..⟩
  | laneQuery => exact ⟨_, rfl, State.directive_mem (actLaneQuery_mem _) ..⟩
  | groupOn => exact ⟨_, rfl, State.directive_mem (actGroupOn_mem _) ..⟩
  | groupOff => exact ⟨_, rfl, State.directive_mem (actGroupOff_mem _) ..⟩
  | groupOffForce => exact ⟨_, rfl, State.directive_mem (actGroupOffForce_mem _) ..⟩
  | storeSet => exact ⟨_, rfl, State.directive_mem (actStoreSet_mem _) ..⟩
  | storeQuery => exact ⟨_, rfl, State.directive_mem (actStoreQuery_mem _) ..⟩
  | fetch => exact ⟨_, rfl, State.directive_mem (actFetch_mem _ _ _ _ _ _) ..⟩
  | stop => exact ⟨_, rfl, State.directive_mem (actStop_mem _) ..⟩
  | channelQuery => exact ⟨_, rfl, State.directive_mem (actChannelQuery_mem _) ..⟩
  | frameSearch bits => exact ⟨_, rfl, foldl_keeps State.mem State.searchBit State.searchBit_mem bits s⟩
  | superframeSearchFrame => exact ⟨_, rfl, State.ite_mem (State.searchSuperframe_mem ..) rfl⟩
  | checkSearchFrame => exact ⟨_, rfl, State.ite_mem (State.searchCheck_mem ..) rfl⟩
  | inSyncFrame => exact ⟨_, rfl, State.ite_mem (State.inSync_mem ..) rfl⟩
  | payloadCell => exact ⟨_, rfl, State.served_mem ((State.mem_of_still (State.takeCell_still ..)).trans rfl)⟩
  | returnFrame => exact ⟨_, rfl, State.buildReturn_mem s⟩
  | gapTimerExpiry => exact ⟨_, rfl, State.served_mem ((State.mem_of_still (State.gapExpire_still ..)).trans rfl)⟩
  | skewTimerExpiry => exact ⟨_, rfl, State.served_mem ((State.mem_of_still (State.skewExpire_still ..)).trans rfl)⟩
  | sanityTimerExpiry => exact ⟨_, rfl, State.mem_of_still (State.sanityExpire_still ..)⟩
  | testChunkExpiry => exact ⟨_, rfl, State.mem_of_still (State.testChunkExpire_still ..)⟩
  | risingPhaseEnd => exact ⟨_, rfl, State.risingEnd_mem ..⟩
  | fallingPhaseEnd => exact ⟨_, rfl, State.fallingEnd_mem ..⟩
  | supplyFault => exact supplyFault_mem ..
  | supplyMonitorNormal => exact ⟨_, rfl, State.ite_mem rfl rfl⟩
  | suspendLimit => exact suspendLimit_mem ..
  | eraseSuspendEffect => exact eraseSuspendEffect_mem ..
  | readEnd => exact readEnd_mem ..
  | chunkEnd => exact ⟨_, rfl, State.mem_of_still (State.chunkDone_still ..)⟩
  | testChunkEnd => exact ⟨_, rfl, State.mem_of_still (State.testChunkDone_still ..)⟩
  | sourceMalformed => exact ⟨_, rfl, State.mem_of_still (State.laneFails_still ..)⟩
  | laneReadRequest => exact ⟨_, rfl, State.mem_of_still (State.laneWantsSource_still ..)⟩
  | laneBufferRequest => exact ⟨_, rfl, State.mem_of_still (State.laneWantsBuffer_still ..)⟩
  | laneBlockRequest => exact ⟨_, rfl, State.mem_of_still (State.laneWantsBlock_still ..)⟩
  | unitNotice => exact ⟨_, rfl, State.served_mem ((State.mem_of_still (State.takeNotice_still ..)).trans rfl)⟩
  | roleEndNotice => exact ⟨_, rfl, State.served_mem ((State.mem_of_still (State.roleEnd_still ..)).trans rfl)⟩
  | lateDropReport => exact ⟨_, rfl, (State.mem_of_still (State.lateDrop_still ..)).trans rfl⟩
  | overrunReport => exact ⟨_, rfl, (State.mem_of_still (State.overrunDamage_still ..)).trans rfl⟩
  | jobOutcome => exact ⟨_, rfl, State.served_mem ((State.mem_of_still (State.takeOutcome_still ..)).trans rfl)⟩
  | jobRecordFreed => exact ⟨_, rfl, State.served_mem ((State.mem_of_still (State.tryAdmission_still ..)).trans rfl)⟩
  | extentRecordFreed => exact ⟨_, rfl, (State.finish_mem _).trans rfl⟩
  | channelWake => exact ⟨_, rfl, (State.mem_of_still (State.wakeChannels_still ..)).trans rfl⟩
  | sourceLowMark => exact sourceLowMark_mem ..
  | discardRequest => exact ⟨_, rfl, (State.mem_of_still (State.discardJob_still ..)).trans rfl⟩

/-- A command has an outcome, which keeps the canonical form. -/
def keepsForm (i : Instr) (s : State) : Prop :=
  Memory.wf s.mem = true → ∃ t, exec i s = .next t ∧ Memory.wf t.mem = true

theorem powerOnReset_keepsForm (unreadable : List Nat) (s : State) : keepsForm (Instr.powerOnReset unreadable) s := by
  refine fun h => ⟨_, rfl, ?_⟩
  rw [State.readyAtReset_mem]
  exact wf_abandonAppend s h

theorem reset_keepsForm (tag : Word16) (bodyLength : Byte) (s : State) : keepsForm (Instr.reset tag bodyLength) s := by
  intro h
  by_cases fires : s.ccu.armed ∧ bodyLength = 0
  · exact ⟨_, if_pos fires, wf_fireReset h⟩
  · refine ⟨_, if_neg fires, ?_⟩
    rwa [State.directive_mem (fun _ => rfl)]

theorem programEnd_keepsForm (b : Nat) (success : Bool) (s : State) : keepsForm (Instr.programEnd b success) s := by
  refine fun h => ⟨_, rfl, ?_⟩
  split
  · rw [State.serveClaims_mem]
    exact wf_endProgram h ..
  · exact h

theorem eraseEnd_keepsForm (b : Nat) (success : Bool) (s : State) : keepsForm (Instr.eraseEnd b success) s := by
  refine fun h => ⟨_, rfl, ?_⟩
  split
  · split
    · exact h
    · rw [State.serveClaims_mem]
      exact wf_endErase h ..
  · exact h

theorem appendEnd_keepsForm (success : Bool) (left : List Byte) (s : State) :
    keepsForm (Instr.appendEnd success left) s := by
  refine fun h => ⟨_, rfl, ?_⟩
  split
  · rw [State.serveClaims_mem, State.endAppend_mem]
    exact wf_memPut _ _ _ h
  · exact h

theorem keepsForm_of_writesBanks {i : Instr} (h : writesBanks i = true) (s : State) : keepsForm i s := by
  cases i with
  | powerOnReset => exact powerOnReset_keepsForm _ _
  | controlCell cell => exact fun h => ⟨_, rfl, wf_takeControlCell (s := s.received (.controlCell cell)) h cell⟩
  | reset => exact reset_keepsForm _ _ _
  | storeOpLimit => exact fun h => ⟨_, rfl, wf_opLimit h ..⟩
  | programEnd => exact programEnd_keepsForm _ _ _
  | eraseEnd => exact eraseEnd_keepsForm _ _ _
  | appendEnd => exact appendEnd_keepsForm _ _ _
  | _ => cases h

theorem exec_keepsForm (i : Instr) (s : State) : keepsForm i s := by
  cases h : writesBanks i with
  | true => exact keepsForm_of_writesBanks h s
  | false =>
    intro form
    obtain ⟨t, run, mem⟩ := leavesBanks_of_not_writesBanks h s
    exact ⟨t, run, by rwa [mem]⟩

/-- Settles O57: the command or message that a step takes keeps the form, and a tick writes no bank. -/
theorem stepKeepsMemoryForm : Obligations.StepKeepsMemoryForm := by
  have keeps (i : Instr) (s t : State) (form : Memory.wf s.mem = true) (run : exec i s = .next t) :
      Memory.wf t.mem = true := by
    obtain ⟨u, run', formU⟩ := exec_keepsForm i s form
    cases run.symm.trans run'
    exact formU
  intro s t form run
  unfold step at run
  split at run
  next c rest _ => exact keeps c { s with pending := rest } t form run
  · split at run
    · exact keeps _ s t form run
    · rwa [← Host.Outcome.next.inj run, State.tick_mem]

end Sys2Proof.Machine
end

section
/-! PROOF. The store's levels (R118, R140), and STORE_SET, which sets the low mark and evaluates them (O50). -/

namespace Sys2Proof.Machine

/-! ## Evaluating the levels -/

section
variable (s : State)

/-- The two store conditions take what they say of the part's state, its free blocks and the mark (R140). -/
def State.conditionsEvaluated : State :=
  (s.level .storeExhausted (s.stc.ready && s.freeBlocks == 0)).level .storeLow
    (s.stc.ready && decide (s.freeBlocks < s.stc.lowMark))

/-- The store level that the part's state, its free blocks and the mark give (R140). -/
def State.storeLevel : StoreLevel := storeLevelOf s.stc.ready s.freeBlocks s.stc.lowMark

theorem State.evalLevels_same (h : s.storeLevel = s.stc.level) : s.evalLevels = s.conditionsEvaluated :=
  if_pos h

theorem State.evalLevels_changed (h : s.storeLevel ≠ s.stc.level) : s.evalLevels
    = State.storeEvent { s.conditionsEvaluated with
        stc := { s.conditionsEvaluated.stc with level := s.storeLevel } } :=
  if_neg h

theorem State.conditionsEvaluated_stc : s.conditionsEvaluated.stc = s.stc := by
  rw [State.conditionsEvaluated, State.level_stc, State.level_stc]

theorem State.evalLevels_stc : s.evalLevels.stc = { s.stc with level := s.storeLevel } := by
  by_cases h : s.storeLevel = s.stc.level
  · rw [State.evalLevels_same s h, State.conditionsEvaluated_stc, h]
  · rw [State.evalLevels_changed s h]
    show ({ s.conditionsEvaluated.stc with level := s.storeLevel } : Stc) = _
    rw [State.conditionsEvaluated_stc]

theorem State.evalLevels_condition (k : Condition) : s.evalLevels.condition k = s.conditionsEvaluated.condition k := by
  by_cases h : s.storeLevel = s.stc.level
  · rw [State.evalLevels_same s h]
  · rw [State.evalLevels_changed s h]
    rfl

theorem State.evalLevels_storeLow :
    s.evalLevels.condition .storeLow = (s.stc.ready && decide (s.freeBlocks < s.stc.lowMark)) := by
  rw [State.evalLevels_condition]
  exact State.level_condition_same ..

theorem State.evalLevels_storeExhausted :
    s.evalLevels.condition .storeExhausted = (s.stc.ready && s.freeBlocks == 0) := by
  rw [State.evalLevels_condition, State.conditionsEvaluated, State.level_condition_ne _ _ (by decide)]
  exact State.level_condition_same ..

theorem State.storeEvent_pending : ∃ e ∈ s.storeEvent.ccu.events, e.object = .store ∧ e.kind = .store :=
  putEvent_mem ..

/-- A change of level leaves a STORE event pending (R140). -/
theorem State.evalLevels_event (h : s.evalLevels.stc.level ≠ s.stc.level) :
    ∃ e ∈ s.evalLevels.ccu.events, e.object = .store ∧ e.kind = .store := by
  have changed : s.storeLevel ≠ s.stc.level := by rwa [State.evalLevels_stc] at h
  rw [State.evalLevels_changed s changed]
  exact State.storeEvent_pending _

theorem State.evalLevels_freeBlocks : s.evalLevels.freeBlocks = s.freeBlocks := by
  exact State.freeBlocks_of_free fun c => congrArg Bank.free (s.evalLevels_bank c)

end

theorem storeLevelOf_eq (ready : Bool) (free mark : Nat) : storeLevelOf ready free mark
    = if ready = false then .normal else if free = 0 then .exhausted else if free < mark then .low else .normal := by
  cases ready <;> rfl

/-! ## STORE_SET (R141) -/

/-- The low mark takes a value, and the levels are evaluated. -/
def State.marked (s : State) (mark : Nat) : State :=
  State.evalLevels { s with stc := { s.stc with lowMark := mark } }

theorem actStoreSet_marks {mark : Word16} (low : 32 ≤ mark.toNat) (high : mark.toNat ≤ 4096) (s : State) :
    actStoreSet mark s = (s.marked mark.toNat, .done, []) :=
  if_pos ⟨low, high⟩

theorem actStoreSet_range {mark : Word16} (h : mark.toNat < 32 ∨ 4096 < mark.toNat) (s : State) :
    actStoreSet mark s = s.refuse .range :=
  if_neg (by omega)

theorem exec_storeSet {s : State} {tag mark : Word16} (h : s.accepts (.storeSet tag mark)) {a : Answered}
    (ha : actStoreSet mark (s.taken 0x60 tag) = a) : exec (.storeSet tag mark) s = .next (State.answer 0x60 tag a) :=
  congrArg Host.Outcome.next (State.directive_acts h 0x60 tag _ ha)

/-- The mark and the reply are all that a taken STORE_SET changes of `State.still`. -/
theorem State.answer_marked_still (s : State) (tag : Word16) (mark : Nat) :
    (State.answer 0x60 tag ((s.taken 0x60 tag).marked mark, .done, [])).still
      = { (s.answered 0x60 tag .done []).still with lowMark := mark } := by
  rw [State.answer_still_eq, State.marked, State.evalLevels_still]
  rfl

/-- Settles O50: the evaluated levels of the state with the new mark, and the refusals. -/
theorem storeSet : Obligations.StoreSet := by
  intro s tag mark h
  refine ⟨fun low high => ?_, fun bad => exec_storeSet h (actStoreSet_range bad _)⟩
  let m : State := { s.taken 0x60 tag with stc := { s.stc with lowMark := mark.toNat } }
  have level : m.evalLevels.stc.level = storeLevelOf s.stc.ready s.freeBlocks mark.toNat :=
    congrArg Stc.level m.evalLevels_stc
  exact ⟨_, exec_storeSet h (actStoreSet_marks low high _), s.answer_marked_still tag mark.toNat,
    level.trans (storeLevelOf_eq ..), m.evalLevels_storeExhausted, m.evalLevels_storeLow, m.evalLevels_event,
    m.evalLevels_freeBlocks⟩

end Sys2Proof.Machine
end

section
/-! PROOF. What the ends of a PROGRAM and of an APPEND write, and the record of the bad-list places (O51). -/

namespace Sys2Proof.Machine

/-! ## The end of a PROGRAM (R125; log 14) -/

section
variable {s : State} {b : Nat} {p : ProgramReq}

theorem exec_programEnd (op : (s.bank b).op = some (.program p)) (success : Bool) :
    exec (.programEnd b success) s = .next (s.endProgram b p success).serveClaims := by
  show Host.Outcome.next (match (s.bank b).op with
    | some (.program p) => (s.endProgram b p success).serveClaims
    | _ => s) = _
  rw [op]

theorem exec_programEnd_writes {buf : Buf} (op : (s.bank b).op = some (.program p))
    (held : s.buf? p.buffer = some buf) :
    ∃ t, exec (.programEnd b true) s = .next t
      ∧ ∀ a, memRead t.mem a
        = if pageAddress p.block p.page ≤ a ∧ a < pageAddress p.block p.page + buf.data.length
          then buf.data.getD (a - pageAddress p.block p.page) 0 else memRead s.mem a := by
  refine ⟨_, exec_programEnd op true, fun a => ?_⟩
  rw [State.serveClaims_mem, State.endProgram_done_mem held]
  exact memRead_memPut ..

theorem exec_programEnd_failed (op : (s.bank b).op = some (.program p)) :
    ∃ t, exec (.programEnd b false) s = .next t ∧ t.mem = s.mem :=
  ⟨_, exec_programEnd op false, (State.serveClaims_mem _).trans (State.endProgram_failed_mem ..)⟩

end

/-! ## The end of an APPEND (R137; log 13, log 31) -/

theorem placeEntry_length (g : Nat) : (placeEntry g).length = 512 := by
  simp only [placeEntry, withCheck16, be2, List.length_append, List.length_replicate, List.length_map, List.length_cons,
    List.length_nil]

/-- How many more places are spoiled when an APPEND has ended. -/
def newlySpoiled (success : Bool) : Nat := if success then 0 else 1

section
variable {s : State} {g k : Nat}

theorem State.endAppend_still (s : State) (b g k : Nat) (success : Bool) (left : List Byte) :
    (s.endAppend b g k success left).still = { s.still with
      mem := memPut s.mem (placeAddress k) (appendLeaves g success left)
      emptyPlaces := s.stc.emptyPlaces.filter (· != k), spoiled := s.stc.spoiled + newlySpoiled success } := by
  cases success <;> exact State.arbitrate_still ..

theorem exec_appendEnd (op : (s.bank 0).op = some (.append g k)) (success : Bool) (left : List Byte) :
    exec (.appendEnd success left) s = .next (s.endAppend 0 g k success left).serveClaims := by
  show Host.Outcome.next (match (s.bank 0).op with
    | some (.append g k) => (s.endAppend 0 g k success left).serveClaims
    | _ => s) = _
  rw [op]

/-- Either way the place is no longer empty, and only its bytes change. -/
theorem exec_appendEnd_writes (op : (s.bank 0).op = some (.append g k)) (success : Bool) (left : List Byte) :
    ∃ t, exec (.appendEnd success left) s = .next t
      ∧ t.mem = memPut s.mem (placeAddress k) (appendLeaves g success left)
      ∧ t.stc.emptyPlaces = s.stc.emptyPlaces.filter (· != k)
      ∧ t.stc.spoiled = s.stc.spoiled + newlySpoiled success := by
  have still := (State.serveClaims_still _).trans (s.endAppend_still 0 g k success left)
  exact ⟨_, exec_appendEnd op success left, congrArg Still.mem still, congrArg Still.emptyPlaces still,
    congrArg Still.spoiled still⟩

end

theorem appendLeaves_entry (g : Nat) (left : List Byte) : appendLeaves g true left = placeEntry g :=
  List.take_of_length_le (placeEntry_length g).le

theorem appendLeaves_left {left : List Byte} (h : left.length ≤ 512) (g : Nat) : appendLeaves g false left = left :=
  List.take_of_length_le h

/-- Settles O51: the bytes of the page or of the place, read back from what was put there. -/
theorem programAndAppendEndsWrite : Obligations.ProgramAndAppendEndsWrite := by
  refine ⟨fun s b p buf op held => ⟨exec_programEnd_writes op held, exec_programEnd_failed op⟩,
    fun s g k left op fits => ⟨?_, ?_⟩⟩
  · obtain ⟨t, run, mem, places, spoiled⟩ := exec_appendEnd_writes op true left
    refine ⟨t, run, fun a => ?_, places, spoiled⟩
    rw [mem, appendLeaves_entry, memRead_memPut, placeEntry_length]
  · obtain ⟨t, run, mem, places, spoiled⟩ := exec_appendEnd_writes op false left
    refine ⟨t, run, fun a => ?_, places, spoiled⟩
    rw [mem, appendLeaves_left fits]
    exact memRead_memPut ..

end Sys2Proof.Machine
end

section
/-! PROOF. What a request that joins a bank's queue, and the arbiter's grant, leave of the store (R130, R131): the free
lists, the lost pages, the blocks in no erase queue, and the requests of the relocation copy class. -/

namespace Sys2Proof.Machine

/-! ## A bank and its grant -/

/-- `y` is bank `x` after a grant, or without one: what it performs it had queued or performed, what it had queued in
the copy class is still queued or performed, but for APPENDs, and an erase that it holds it keeps. -/
structure Bank.granted (x y : Bank) : Prop where
  free : y.free = x.free
  eraseQueue : y.eraseQueue ⊆ x.eraseQueue
  deliveryRead : y.deliveryRead ⊆ x.deliveryRead
  laneRead : y.laneRead ⊆ x.laneRead
  copy : y.copy ⊆ x.copy
  copiesIn : ∀ p, x.copiesIn p → y.copiesIn p
  copiesOut : ∀ r, x.copiesOut r → y.copiesOut r
  reads : ∀ r wanted, y.op = some (.read r wanted) →
    x.op = some (.read r wanted) ∨ r ∈ x.deliveryRead ∨ r ∈ x.laneRead ∨ .read r ∈ x.copy
  erase : ∀ e, x.erase = some e → ∃ d, y.erase = some d ∧ d.block = e.block ∧ d.suspends = e.suspends

theorem Bank.granted_refl (x : Bank) : x.granted x :=
  ⟨rfl, fun _ => id, fun _ => id, fun _ => id, fun _ => id, fun _ => id, fun _ => id, fun _ _ => .inl,
    fun e h => ⟨e, h, rfl, rfl⟩⟩

theorem Bank.granted.trans {x y z : Bank} (h : x.granted y) (h' : y.granted z) : x.granted z where
  free := h'.free.trans h.free
  eraseQueue := fun _ hg => h.eraseQueue (h'.eraseQueue hg)
  deliveryRead := fun _ hr => h.deliveryRead (h'.deliveryRead hr)
  laneRead := fun _ hr => h.laneRead (h'.laneRead hr)
  copy := fun _ hc => h.copy (h'.copy hc)
  copiesIn := fun p hp => h'.copiesIn p (h.copiesIn p hp)
  copiesOut := fun r hr => h'.copiesOut r (h.copiesOut r hr)
  reads := fun r wanted hr => by
    rcases h'.reads r wanted hr with hr | hr | hr | hr
    · exact h.reads r wanted hr
    · exact .inr (.inl (h.deliveryRead hr))
    · exact .inr (.inr (.inl (h.laneRead hr)))
    · exact .inr (.inr (.inr (h.copy hr)))
  erase := fun e he => by
    obtain ⟨d, hd, block, suspends⟩ := h.erase e he
    obtain ⟨f, hf, block', suspends'⟩ := h'.erase d hd
    exact ⟨f, hf, block'.trans block, suspends'.trans suspends⟩

/-- A bank with no operation, of which the other requests than those of the copy class change. -/
theorem Bank.granted_of_free_copy {x y : Bank} (idle : x.op = none) (hf : y.free = x.free)
    (hq : y.eraseQueue ⊆ x.eraseQueue) (hd : y.deliveryRead ⊆ x.deliveryRead) (hl : y.laneRead ⊆ x.laneRead)
    (hc : y.copy = x.copy) (he : y.erase = x.erase)
    (hr : ∀ r wanted, y.op = some (.read r wanted) → r ∈ x.deliveryRead ∨ r ∈ x.laneRead ∨ .read r ∈ x.copy) :
    x.granted y where
  free := hf
  eraseQueue := hq
  deliveryRead := hd
  laneRead := hl
  copy := fun _ h => hc ▸ h
  copiesIn p h := h.elim (fun h => .inl (hc ▸ h)) fun h => by rw [idle] at h; cases h
  copiesOut r h := h.elim (fun h => .inl (hc ▸ h)) fun h => by rw [idle] at h; cases h
  reads r wanted h := .inr (hr r wanted h)
  erase e h := ⟨e, he.trans h, rfl, rfl⟩

/-- A bank of which only the erase and its queue change. -/
theorem Bank.granted_of_erase {x y : Bank} (h : y = { x with
    eraseQueue := y.eraseQueue, scrub := y.scrub, erase := y.erase }) (hq : y.eraseQueue ⊆ x.eraseQueue)
    (he : ∀ e, x.erase = some e → ∃ d, y.erase = some d ∧ d.block = e.block ∧ d.suspends = e.suspends) :
    x.granted y := by
  rw [h]
  exact ⟨rfl, hq, fun _ => id, fun _ => id, fun _ => id, fun _ => id, fun _ => id, fun _ _ => .inl, he⟩

/-- The tail of the copy queue, its head granted. -/
theorem Bank.granted_of_head {x y : Bank} {a : CopyReq} {l : List CopyReq} (idle : x.op = none)
    (sub : (a :: l) ⊆ x.copy) (all : ∀ c ∈ x.copy, c.isAppend = false → c ∈ a :: l)
    (h : y = { x with copy := l, op := y.op }) (hp : ∀ p, a = .program p → y.op = some (.program p))
    (hr : ∀ r, a = .read r → y.op = some (.read r true))
    (reads : ∀ r wanted, y.op = some (.read r wanted) → a = .read r) : x.granted y where
  free := by rw [h]
  eraseQueue := by rw [h]; exact fun _ => id
  deliveryRead := by rw [h]; exact fun _ => id
  laneRead := by rw [h]; exact fun _ => id
  copy := by rw [h]; exact fun _ hc => sub (List.mem_cons_of_mem _ hc)
  copiesIn p hin := by
    rcases hin with hin | hin
    · rcases List.mem_cons.1 (all _ hin rfl) with e | e
      · exact .inr (hp p e.symm)
      · exact .inl (by rw [h]; exact e)
    · rw [idle] at hin
      cases hin
  copiesOut r hout := by
    rcases hout with hout | hout
    · rcases List.mem_cons.1 (all _ hout rfl) with e | e
      · exact .inr (hr r e.symm)
      · exact .inl (by rw [h]; exact e)
    · rw [idle] at hout
      cases hout
  reads r wanted ho := .inr (.inr (.inr (sub (reads r wanted ho ▸ List.mem_cons_self))))
  erase e he := ⟨e, by rw [h]; exact he, rfl, rfl⟩

/-! ## The arbiter (R130) -/

section
variable {s : State} {b : Nat}

theorem State.startProgram_blocks (s : State) (b : Nat) (x : Bank) (p : ProgramReq) :
    (s.startProgram b x p).stc.blocks = s.stc.blocks := by
  unfold State.startProgram
  dsimp only
  split <;> rfl

theorem State.grantCopy_blocks (x : Bank) (l : List CopyReq) (s : State) :
    (s.grantCopy b x l).1.stc.blocks = s.stc.blocks := by
  induction l generalizing s with
  | nil => rfl
  | cons a l ih =>
    cases a with
    | read r => rfl
    | program p => exact State.startProgram_blocks ..
    | append g =>
      unfold State.grantCopy
      split
      · rw [ih, State.badlistFull_stc]
      · rfl

theorem State.grantCopy_granted {x : Bank} (idle : x.op = none) (l : List CopyReq) (s : State) (sub : l ⊆ x.copy)
    (all : ∀ c ∈ x.copy, c.isAppend = false → c ∈ l) : x.granted ((s.grantCopy b x l).1.bank b) := by
  induction l generalizing s with
  | nil =>
    have none : ∀ c ∈ x.copy, c.isAppend = false → False := fun c hc ha => List.not_mem_nil (all c hc ha)
    rw [show (s.grantCopy b x []).1.bank b = { x with copy := [] } from State.bank_setBank_same ..]
    refine ⟨rfl, fun _ => id, fun _ => id, fun _ => id, List.nil_subset _, fun p hp => ?_, fun r hr => ?_,
      fun _ _ => .inl, fun e h => ⟨e, h, rfl, rfl⟩⟩
    · exact hp.elim (fun h => (none _ h rfl).elim) .inr
    · exact hr.elim (fun h => (none _ h rfl).elim) .inr
  | cons a l ih =>
    cases a with
    | read r =>
      rw [show (s.grantCopy b x (.read r :: l)).1.bank b = { x with copy := l, op := some (.read r true) } from
        State.bank_setBank_same ..]
      refine Bank.granted_of_head idle sub all rfl nofun (fun q hq => ?_) (fun q wanted hq => ?_)
      · cases hq
        rfl
      · cases hq
        rfl
    | program p =>
      rw [show (s.grantCopy b x (.program p :: l)).1.bank b = { x with copy := l, op := some (.program p) } from
        State.startProgram_bank ..]
      refine Bank.granted_of_head idle sub all rfl (fun q hq => ?_) nofun nofun
      cases hq
      rfl
    | append g =>
      unfold State.grantCopy
      split
      · refine ih _ (fun c hc => sub (List.mem_cons_of_mem _ hc)) fun c hc ha => ?_
        exact (List.mem_cons.1 (all c hc ha)).resolve_left fun e => by rw [e] at ha; cases ha
      next k _ _ =>
        rw [State.bank_setBank_same]
        exact Bank.granted_of_head idle sub all rfl nofun nofun nofun

theorem State.grantErase_granted (s : State) (b : Nat) : (s.bank b).granted ((s.grantErase b).bank b) := by
  unfold State.grantErase
  dsimp only
  split
  next d hd =>
    rw [State.bank_setBank_same]
    refine Bank.granted_of_erase rfl (fun _ => id) fun e he => ⟨_, rfl, ?_⟩
    obtain rfl := Option.some.inj (hd.symm.trans he)
    exact ⟨rfl, rfl⟩
  next none =>
    split
    · exact Bank.granted_refl _
    next g rest hq =>
      rw [show ∀ x, ((s.setBank b x).setBlockState g .erasing).bank b = x from fun x => State.bank_setBank_same ..]
      exact Bank.granted_of_erase rfl (fun _ h => hq ▸ List.mem_cons_of_mem _ h) fun e he =>
        absurd (none.symm.trans he) nofun

theorem State.arbitrate_granted (s : State) (b : Nat) : (s.bank b).granted ((s.arbitrate b).bank b) := by
  unfold State.arbitrate
  dsimp only
  split
  · exact Bank.granted_refl _
  next can =>
    have idle : (s.bank b).op = none := by
      simp only [Bank.canGrant, Bool.not_eq_true', Bool.not_eq_false, Bool.and_eq_true] at can
      exact Option.isNone_iff_eq_none.1 can.1
    split
    · rw [State.startProgram_bank]
      exact Bank.granted_of_free_copy idle rfl (fun _ => id) (fun _ => id) (fun _ => id) rfl rfl nofun
    split
    next r rest hr =>
      have head : r ∈ (s.bank b).deliveryRead := hr ▸ List.mem_cons_self
      rw [State.bank_setBank_same]
      refine Bank.granted_of_free_copy idle rfl (fun _ => id) (fun _ h => hr ▸ List.mem_cons_of_mem _ h) (fun _ => id)
        rfl rfl fun q wanted hq => ?_
      cases hq
      exact .inl head
    split
    next r rest hr =>
      have head : r ∈ (s.bank b).laneRead := hr ▸ List.mem_cons_self
      rw [State.bank_setBank_same]
      refine Bank.granted_of_free_copy idle rfl (fun _ => id) (fun _ => id) (fun _ h => hr ▸ List.mem_cons_of_mem _ h)
        rfl rfl fun q wanted hq => ?_
      cases hq
      exact .inr (.inl head)
    split
    · rw [State.startProgram_bank]
      exact Bank.granted_of_free_copy idle rfl (fun _ => id) (fun _ => id) (fun _ => id) rfl rfl nofun
    have copies := State.grantCopy_granted (b := b) idle (s.bank b).copy s (fun _ => id) fun _ h _ => h
    split
    · exact copies
    · exact copies.trans (State.grantErase_granted ..)

theorem State.block_of_blocks {s t : State} (h : t.stc.blocks = s.stc.blocks) (g : Nat) : t.block g = s.block g := by
  rw [State.block, State.block, h]

theorem State.setBlockState_lost (s : State) (g k : Nat) (x : BlockState) :
    ((s.setBlockState g x).block k).lost = (s.block k).lost := by
  by_cases hk : k = g
  · rw [hk]
    unfold State.setBlockState State.setBlock State.block
    rw [Table.atD_put_same]
  · rw [State.block_setBlockState_ne _ _ hk]

/-- A step of the arbiter leaves each block but one in the bank's erase queue, and each block's lost pages. -/
structure State.leavesBlocks (s t : State) (b : Nat) : Prop where
  block : ∀ g, g ∉ (s.bank b).eraseQueue → t.block g = s.block g
  lost : ∀ g, (t.block g).lost = (s.block g).lost

theorem State.leavesBlocks_of_blocks {s t : State} (h : t.stc.blocks = s.stc.blocks) (b : Nat) : s.leavesBlocks t b :=
  ⟨fun g _ => State.block_of_blocks h g, fun g => congrArg BlockRec.lost (State.block_of_blocks h g)⟩

theorem State.setBank_leavesBlocks (s : State) (b : Nat) (x : Bank) : s.leavesBlocks (s.setBank b x) b :=
  State.leavesBlocks_of_blocks (s := s) (t := s.setBank b x) rfl b

theorem State.leavesBlocks.trans {s t u : State} (h : s.leavesBlocks t b) (hq : (t.bank b).eraseQueue ⊆ (s.bank b).eraseQueue)
    (h' : t.leavesBlocks u b) : s.leavesBlocks u b where
  block g hg := (h'.block g fun hm => hg (hq hm)).trans (h.block g hg)
  lost g := (h'.lost g).trans (h.lost g)

theorem State.grantErase_leavesBlocks (s : State) (b : Nat) : s.leavesBlocks (s.grantErase b) b := by
  unfold State.grantErase
  dsimp only
  split
  · exact State.setBank_leavesBlocks ..
  · split
    · exact State.leavesBlocks_of_blocks rfl b
    next g rest hq =>
      refine ⟨fun k hk => ?_, fun k => State.setBlockState_lost _ g k _⟩
      exact State.block_setBlockState_ne _ _ fun e => hk (by rw [hq, e]; exact List.mem_cons_self)

theorem State.arbitrate_leavesBlocks (s : State) (b : Nat) : s.leavesBlocks (s.arbitrate b) b := by
  unfold State.arbitrate
  dsimp only
  split
  · exact State.leavesBlocks_of_blocks rfl b
  next can =>
    have idle : (s.bank b).op = none := by
      simp only [Bank.canGrant, Bool.not_eq_true', Bool.not_eq_false, Bool.and_eq_true] at can
      exact Option.isNone_iff_eq_none.1 can.1
    split
    · exact State.leavesBlocks_of_blocks (State.startProgram_blocks ..) b
    split
    · exact State.setBank_leavesBlocks ..
    split
    · exact State.setBank_leavesBlocks ..
    split
    · exact State.leavesBlocks_of_blocks (State.startProgram_blocks ..) b
    have copies := State.leavesBlocks_of_blocks (State.grantCopy_blocks (b := b) (s.bank b) (s.bank b).copy s) b
    have granted := State.grantCopy_granted (b := b) idle (s.bank b).copy s (fun _ => id) fun _ h _ => h
    split
    · exact copies
    · exact copies.trans granted.eraseQueue (State.grantErase_leavesBlocks ..)

end

/-! ## From one state to another by grants -/

/-- From `s` to `t` a request may have joined the queue of bank `b`, and its arbiter granted what waits there. -/
structure State.serves (s t : State) (b : Nat) : Prop extends State.leavesBlocks s t b where
  drops : s.drops t
  starts : s.startsPrograms t
  others : ∀ c, c ≠ b → t.bank c = s.bank c
  free : (t.bank b).free = (s.bank b).free
  eraseQueue : (t.bank b).eraseQueue ⊆ (s.bank b).eraseQueue
  copiesIn : ∀ p, (s.bank b).copiesIn p → (t.bank b).copiesIn p
  copiesOut : ∀ r, (s.bank b).copiesOut r → (t.bank b).copiesOut r
  still : t.still = s.still

theorem State.arbitrate_serves (s : State) (b : Nat) : s.serves (s.arbitrate b) b :=
  have granted := s.arbitrate_granted b
  { s.arbitrate_leavesBlocks b with
    drops := s.arbitrate_drops b
    starts := s.arbitrate_startsPrograms b
    others := fun _ h => State.arbitrate_bank_ne s h
    free := granted.free
    eraseQueue := granted.eraseQueue
    copiesIn := granted.copiesIn
    copiesOut := granted.copiesOut
    still := State.arbitrate_still .. }

theorem State.serves.trans {s t u : State} {b : Nat} (h : s.serves t b) (h' : t.serves u b) : s.serves u b :=
  { h.toleavesBlocks.trans h.eraseQueue h'.toleavesBlocks with
    drops := h.drops.trans h'.drops
    starts := h.starts.trans h'.starts
    others := fun c hc => (h'.others c hc).trans (h.others c hc)
    free := h'.free.trans h.free
    eraseQueue := fun _ hg => h.eraseQueue (h'.eraseQueue hg)
    copiesIn := fun p hp => h'.copiesIn p (h.copiesIn p hp)
    copiesOut := fun r hr => h'.copiesOut r (h.copiesOut r hr)
    still := h'.still.trans h.still }

/-- A suspension is commanded. -/
theorem State.commanded_serves {s : State} {b : Nat} {e f : Erase} (he : (s.bank b).erase = some e)
    (hf : f.block = e.block) : s.serves (s.setBank b { s.bank b with erase := some f }) b := by
  exact
    { State.setBank_leavesBlocks .. with
      drops := State.resumeErase_drops he hf
      starts := State.startsPrograms_of_buffers rfl
      others := fun _ h => State.bank_setBank_ne _ _ h
      free := by rw [State.bank_setBank_same]
      eraseQueue := by rw [State.bank_setBank_same]; exact fun _ => id
      copiesIn := by rw [State.bank_setBank_same]; exact fun _ => id
      copiesOut := by rw [State.bank_setBank_same]; exact fun _ => id
      still := rfl }

theorem State.afterJoin_serves (s : State) (b : Nat) : s.serves (s.afterJoin b) b := by
  unfold State.afterJoin
  dsimp only
  split
  next e he =>
    split
    · exact State.commanded_serves he rfl
    · exact s.arbitrate_serves b
  · exact s.arbitrate_serves b

/-- A request joins a queue of a bank. -/
theorem State.setBank_serves {s : State} {b : Nat} {x : Bank} (he : x.erase = (s.bank b).erase)
    (hq : x.eraseQueue = (s.bank b).eraseQueue) (hf : x.free = (s.bank b).free)
    (hi : ∀ p, (s.bank b).copiesIn p → x.copiesIn p) (ho : ∀ r, (s.bank b).copiesOut r → x.copiesOut r) :
    s.serves (s.setBank b x) b :=
  { State.setBank_leavesBlocks .. with
    drops := State.setBank_drops he hq
    starts := State.startsPrograms_of_buffers rfl
    others := fun _ h => State.bank_setBank_ne _ _ h
    free := by rw [State.bank_setBank_same, hf]
    eraseQueue := by rw [State.bank_setBank_same, hq]; exact fun _ => id
    copiesIn := by rw [State.bank_setBank_same]; exact hi
    copiesOut := by rw [State.bank_setBank_same]; exact ho
    still := rfl }

/-- A request waits in the copy queue of a bank. -/
def State.queueCopy (s : State) (b : Nat) (c : CopyReq) : State :=
  s.setBank b { s.bank b with copy := (s.bank b).copy ++ [c] }

theorem State.queueCopy_serves (s : State) (b : Nat) (c : CopyReq) : s.serves (s.queueCopy b c) b :=
  State.setBank_serves rfl rfl rfl (fun _ h => h.imp_left fun h => List.mem_append_left _ h)
    (fun _ h => h.imp_left fun h => List.mem_append_left _ h)

theorem State.joinCopy_serves (s : State) (b : Nat) (c : CopyReq) : s.serves (s.joinCopy b c) b :=
  (s.queueCopy_serves b c).trans (State.afterJoin_serves ..)

theorem State.joinDeliveryRead_serves (s : State) (r : ReadReq) : s.serves (s.joinDeliveryRead r) (bankOf r.block) :=
  have joins := State.setBank_serves (s := s) (x := { s.bank (bankOf r.block) with
    deliveryRead := (s.bank (bankOf r.block)).deliveryRead ++ [r] }) rfl rfl rfl (fun _ => id) (fun _ => id)
  joins.trans (State.afterJoin_serves ..)

theorem State.joinLaneRead_serves (s : State) (r : ReadReq) : s.serves (s.joinLaneRead r) (bankOf r.block) :=
  have joins := State.setBank_serves (s := s) (x := { s.bank (bankOf r.block) with
    laneRead := (s.bank (bankOf r.block)).laneRead ++ [r] }) rfl rfl rfl (fun _ => id) (fun _ => id)
  joins.trans (State.afterJoin_serves ..)

/-- A PROGRAM that joins the copy class waits there, or is performed (R130, R134). -/
theorem State.joinCopy_copiesIn (s : State) (b : Nat) (p : ProgramReq) :
    ((s.joinCopy b (.program p)).bank b).copiesIn p := by
  refine (State.afterJoin_serves (s.queueCopy b (.program p)) b).copiesIn p (.inl ?_)
  rw [State.queueCopy, State.bank_setBank_same]
  exact List.mem_append_right _ (List.mem_singleton.2 rfl)

theorem State.joinCopy_copiesOut (s : State) (b : Nat) (r : ReadReq) :
    ((s.joinCopy b (.read r)).bank b).copiesOut r := by
  refine (State.afterJoin_serves (s.queueCopy b (.read r)) b).copiesOut r (.inl ?_)
  rw [State.queueCopy, State.bank_setBank_same]
  exact List.mem_append_right _ (List.mem_singleton.2 rfl)

end Sys2Proof.Machine
end

section
/-! PROOF. The end of an ERASE: its block's bytes and its place in the free list, or the bad block, and the count of
the scrub (O52). -/

namespace Sys2Proof.Machine

/-! ## The count of the scrub (R139) -/

section
variable (s : State)

/-- An erase that the scrub placed is counted. -/
def State.counted : State := { s with stc := { s.stc with scrubRemaining := s.stc.scrubRemaining - 1 } }

/-- The part is READY, and its levels are evaluated. -/
def State.madeReady : State := State.evalLevels { s with stc := { s.stc with ready := true } }

theorem State.scrubCount_true : s.scrubCount true
    = if s.stc.scrubRemaining - 1 = 0 ∧ s.stc.ready = false then s.counted.madeReady.storeEvent else s.counted := rfl

theorem State.scrubCount_ready (h : s.stc.scrubRemaining ≤ 1) (hr : s.stc.ready = false) :
    s.scrubCount true = s.counted.madeReady.storeEvent := by
  rw [State.scrubCount_true, if_pos ⟨by omega, hr⟩]

theorem State.scrubCount_goesOn (h : 1 < s.stc.scrubRemaining ∨ s.stc.ready = true) : s.scrubCount true = s.counted := by
  rw [State.scrubCount_true, if_neg]
  rintro ⟨last, notReady⟩
  rcases h with h | h
  · omega
  · exact absurd (h.symm.trans notReady) nofun

theorem State.madeReady_stc :
    s.madeReady.stc = { s.stc with ready := true, level := State.storeLevel { s with stc := { s.stc with ready := true } } } :=
  State.evalLevels_stc _

/-- What the count does to the registers of the store. -/
theorem State.scrubCount_stc (scrub : Bool) : ∃ level, (s.scrubCount scrub).stc = { s.stc with
    scrubRemaining := if scrub then s.stc.scrubRemaining - 1 else s.stc.scrubRemaining
    ready := s.stc.ready || (scrub && decide (s.stc.scrubRemaining ≤ 1)), level := level } := by
  cases scrub with
  | false =>
    refine ⟨s.stc.level, ?_⟩
    rw [Bool.false_and, Bool.or_false]
    rfl
  | true =>
    by_cases goesOn : 1 < s.stc.scrubRemaining ∨ s.stc.ready = true
    · refine ⟨s.stc.level, ?_⟩
      have ready : (s.stc.ready || (true && decide (s.stc.scrubRemaining ≤ 1))) = s.stc.ready := by
        rcases goesOn with h | h
        · simp [Nat.not_le.2 h]
        · simp [h]
      rw [State.scrubCount_goesOn s goesOn, ready]
      rfl
    · obtain ⟨few, notReady⟩ := not_or.1 goesOn
      have few := Nat.not_lt.1 few
      have notReady := Bool.eq_false_iff.2 notReady
      refine ⟨State.storeLevel { s.counted with stc := { s.counted.stc with ready := true } }, ?_⟩
      rw [State.scrubCount_ready s few notReady, State.storeEvent_stc, State.madeReady_stc, decide_eq_true few,
        Bool.and_self, Bool.or_true]
      rfl

theorem State.scrubCount_remaining (scrub : Bool) : (s.scrubCount scrub).stc.scrubRemaining
    = if scrub then s.stc.scrubRemaining - 1 else s.stc.scrubRemaining := by
  obtain ⟨level, h⟩ := s.scrubCount_stc scrub
  rw [h]

theorem State.scrubCount_readyAs (scrub : Bool) :
    (s.scrubCount scrub).stc.ready = (s.stc.ready || (scrub && decide (s.stc.scrubRemaining ≤ 1))) := by
  obtain ⟨level, h⟩ := s.scrubCount_stc scrub
  rw [h]

theorem State.scrubCount_blocks (scrub : Bool) : (s.scrubCount scrub).stc.blocks = s.stc.blocks := by
  obtain ⟨level, h⟩ := s.scrubCount_stc scrub
  rw [h]

theorem State.evalLevels_blocks : s.evalLevels.stc.blocks = s.stc.blocks := by rw [State.evalLevels_stc]

theorem State.scrubCount_waits (scrub : Bool) : (s.scrubCount scrub).waits = s.waits := by
  obtain ⟨level, h⟩ := s.scrubCount_stc scrub
  rw [State.waits, h]
  rfl

end

/-! ## The end of an ERASE (R118, R136; log 14) -/

section
variable {s : State} {b : Nat} {e : Erase}

/-- The erase has ended well: the block's bytes are 0xFF, and it is at the tail of the free list. -/
def State.blockErased (s : State) (b : Nat) (e : Erase) : State :=
  let s1 := s.setBank b { s.bank b with erase := none }
  ((s1.eraseBytes e.block).setBlock e.block ⟨.free, []⟩).setBank b
    { s1.bank b with free := (s1.bank b).free ++ [e.block] }

/-- The erase has failed: the block is BAD. -/
def State.blockSpoiled (s : State) (b : Nat) (e : Erase) : State :=
  (s.setBank b { s.bank b with erase := none }).badBlock e.block

/-- The erase has ended, either way. -/
def State.blockDone (s : State) (b : Nat) (e : Erase) (success : Bool) : State :=
  if success then s.blockErased b e else s.blockSpoiled b e

/-- Once the block is dealt with, the levels are evaluated and the erase is counted. -/
def State.blockCounted (s : State) (b : Nat) (e : Erase) (success : Bool) : State :=
  (s.blockDone b e success).evalLevels.scrubCount e.scrub

theorem State.endErase_eq (s : State) (b : Nat) (e : Erase) (success : Bool) :
    s.endErase b e success = (s.blockCounted b e success).arbitrate b := rfl

theorem State.blockErased_bank (s : State) (b : Nat) (e : Erase) :
    (s.blockErased b e).bank b = { s.bank b with erase := none, free := (s.bank b).free ++ [e.block] } := by
  unfold State.blockErased
  rw [State.bank_setBank_same, State.bank_setBank_same]

theorem State.blockErased_block (s : State) (b : Nat) (e : Erase) : (s.blockErased b e).block e.block = ⟨.free, []⟩ :=
  Table.atD_put_same ..

theorem State.blockDone_waits (s : State) (b : Nat) (e : Erase) (success : Bool) :
    (s.blockDone b e success).waits = s.waits := by
  cases success with
  | true => rfl
  | false => exact State.badBlock_waits ..

theorem State.blockDone_scrub (s : State) (b : Nat) (e : Erase) (success : Bool) :
    (s.blockDone b e success).stc.scrubRemaining = s.stc.scrubRemaining
      ∧ (s.blockDone b e success).stc.ready = s.stc.ready := by
  cases success with
  | true => exact ⟨rfl, rfl⟩
  | false =>
    have still := (State.badBlock_still (s.setBank b { s.bank b with erase := none }) e.block)
    exact ⟨State.scrubRemaining_of_still still, congrArg Still.ready still⟩

theorem State.blockCounted_bank (s : State) (b c : Nat) (e : Erase) (success : Bool) :
    (s.blockCounted b e success).bank c = (s.blockDone b e success).bank c :=
  (State.scrubCount_bank ..).trans (State.evalLevels_bank ..)

theorem State.blockCounted_block (s : State) (b g : Nat) (e : Erase) (success : Bool) :
    (s.blockCounted b e success).block g = (s.blockDone b e success).block g :=
  State.block_of_blocks ((State.scrubCount_blocks ..).trans (State.evalLevels_blocks ..)) g

theorem State.blockCounted_remaining (s : State) (b : Nat) (e : Erase) (success : Bool) :
    (s.blockCounted b e success).stc.scrubRemaining
      = if e.scrub then s.stc.scrubRemaining - 1 else s.stc.scrubRemaining := by
  rw [State.blockCounted, State.scrubCount_remaining, State.evalLevels_stc]
  dsimp only
  rw [(s.blockDone_scrub b e success).1]

theorem State.blockCounted_ready (s : State) (b : Nat) (e : Erase) (success : Bool) :
    (s.blockCounted b e success).stc.ready = (s.stc.ready || (e.scrub && decide (s.stc.scrubRemaining ≤ 1))) := by
  obtain ⟨remaining, ready⟩ := s.blockDone_scrub b e success
  rw [State.blockCounted, State.scrubCount_readyAs, State.evalLevels_stc]
  dsimp only
  rw [remaining, ready]

theorem State.blockCounted_event (scrub : e.scrub = true) (last : s.stc.scrubRemaining ≤ 1)
    (notReady : s.stc.ready = false) (success : Bool) :
    ∃ v ∈ (s.blockCounted b e success).ccu.events, v.object = .store ∧ v.kind = .store := by
  obtain ⟨remaining, ready⟩ := s.blockDone_scrub b e success
  rw [State.blockCounted, scrub, State.scrubCount_ready]
  · exact State.storeEvent_pending _
  · rw [State.evalLevels_stc]
    exact remaining.trans_le last
  · rw [State.evalLevels_stc]
    exact ready.trans notReady

theorem State.endErase_waits (s : State) (b : Nat) (e : Erase) (success : Bool) :
    (s.endErase b e success).waits = s.waits := by
  rw [State.endErase_eq, State.arbitrate_waits, State.blockCounted, State.scrubCount_waits, State.evalLevels_waits,
    State.blockDone_waits]

theorem State.endErase_served (rest : s.atRest) (b : Nat) (e : Erase) (success : Bool) :
    (s.endErase b e success).serveClaims = s.endErase b e success :=
  State.serveClaims_nil (State.atRest_of_waits (s.endErase_waits b e success) rest)

theorem State.endErase_serves (s : State) (b : Nat) (e : Erase) (success : Bool) :
    (s.blockCounted b e success).serves (s.endErase b e success) b :=
  State.arbitrate_serves ..

theorem exec_eraseEnd (he : (s.bank b).erase = some e) (runs : e.state ≠ .suspended) (success : Bool) :
    exec (.eraseEnd b success) s = .next (s.endErase b e success).serveClaims := by
  show Host.Outcome.next (match (s.bank b).erase with
    | some e => if e.state = EraseState.suspended ∧ success = true then s else (s.endErase b e success).serveClaims
    | none => s) = _
  rw [he]
  exact congrArg Host.Outcome.next (if_neg fun h => runs h.1)

theorem State.endErase_free (s : State) (b : Nat) (e : Erase) :
    ((s.endErase b e true).bank b).free = (s.bank b).free ++ [e.block] := by
  rw [(s.endErase_serves b e true).free, State.blockCounted_bank]
  show ((s.blockErased b e).bank b).free = _
  rw [State.blockErased_bank]

theorem State.endErase_freeBlock (notQueued : e.block ∉ (s.bank b).eraseQueue) :
    (s.endErase b e true).block e.block = ⟨.free, []⟩ := by
  have bank : (s.blockCounted b e true).bank b = { s.bank b with erase := none, free := (s.bank b).free ++ [e.block] } :=
    (State.blockCounted_bank ..).trans (s.blockErased_bank b e)
  rw [(s.endErase_serves b e true).block e.block (by rw [bank]; exact notQueued), State.blockCounted_block]
  exact s.blockErased_block b e

theorem State.badBlock_state (s : State) (g : Nat) (h : g ∉ (s.bank 0).eraseQueue) :
    (s.badBlock g).block g = { s.block g with state := .bad } :=
  ((State.joinCopy_serves (s.setBlockState g .bad) 0 (.append g)).block g h).trans (Table.atD_put_same ..)

theorem State.badBlock_queue (s : State) (g c : Nat) :
    ((s.badBlock g).bank c).eraseQueue ⊆ (s.bank c).eraseQueue := by
  have joins := State.joinCopy_serves (s.setBlockState g .bad) 0 (.append g)
  by_cases hc : c = 0
  · rw [hc]
    exact joins.eraseQueue
  · exact fun k hk => by
      rw [State.badBlock, joins.others c hc] at hk
      exact hk

theorem State.endErase_badBlock (own : e.block ∉ (s.bank b).eraseQueue) (first : e.block ∉ (s.bank 0).eraseQueue) :
    ((s.endErase b e false).block e.block).state = .bad := by
  have queues : ∀ c, ((s.setBank b { s.bank b with erase := none }).bank c).eraseQueue = (s.bank c).eraseQueue :=
    State.bank_setBank_field Bank.eraseQueue s rfl
  have stays : e.block ∉ ((s.blockCounted b e false).bank b).eraseQueue := by
    rw [State.blockCounted_bank]
    exact fun h => own (queues b ▸ State.badBlock_queue _ _ _ h)
  rw [(s.endErase_serves b e false).block e.block stays, State.blockCounted_block]
  exact congrArg BlockRec.state (State.badBlock_state _ _ (by rw [queues]; exact first))

/-- The bytes of the block, and its place. -/
theorem exec_eraseEnd_well (he : (s.bank b).erase = some e) (runs : e.state ≠ .suspended) :
    ∃ t, exec (.eraseEnd b true) s = .next t
      ∧ (∀ a, memRead t.mem a
          = if e.block * 262144 ≤ a ∧ a < e.block * 262144 + 262144 then 0xFF else memRead s.mem a)
      ∧ (s.atRest → (t.bank b).free = (s.bank b).free ++ [e.block])
      ∧ (s.atRest → e.block ∉ (s.bank b).eraseQueue → t.block e.block = ⟨.free, []⟩)
      ∧ t.stc.scrubRemaining = (if e.scrub then s.stc.scrubRemaining - 1 else s.stc.scrubRemaining) := by
  refine ⟨_, exec_eraseEnd he runs true, fun a => ?_, fun rest => ?_, fun rest notQueued => ?_, ?_⟩
  · rw [State.serveClaims_mem, State.endErase_mem]
    exact memRead_memErase ..
  · rw [State.endErase_served rest]
    exact s.endErase_free b e
  · rw [State.endErase_served rest]
    exact State.endErase_freeBlock notQueued
  · rw [State.scrubRemaining_of_still (State.serveClaims_still _),
      State.scrubRemaining_of_still (s.endErase_serves b e true).still]
    exact s.blockCounted_remaining b e true

/-- The count of the scrub, whether the erase ends well or not. -/
theorem exec_eraseEnd_counts (he : (s.bank b).erase = some e) (runs : e.state ≠ .suspended) (success : Bool) :
    ∃ t, exec (.eraseEnd b success) s = .next t
      ∧ t.stc.scrubRemaining = (if e.scrub then s.stc.scrubRemaining - 1 else s.stc.scrubRemaining)
      ∧ (e.scrub = true → s.stc.scrubRemaining ≤ 1 → s.stc.ready = false →
          t.stc.ready = true ∧ (s.atRest → ∃ v ∈ t.ccu.events, v.object = .store ∧ v.kind = .store))
      ∧ (e.scrub = false ∨ 1 < s.stc.scrubRemaining → t.stc.ready = s.stc.ready) := by
  have still := (State.serveClaims_still _).trans (s.endErase_serves b e success).still
  have ready : (s.endErase b e success).serveClaims.stc.ready
      = (s.stc.ready || (e.scrub && decide (s.stc.scrubRemaining ≤ 1))) :=
    (congrArg Still.ready still).trans (s.blockCounted_ready b e success)
  refine ⟨_, exec_eraseEnd he runs success, (State.scrubRemaining_of_still still).trans
    (s.blockCounted_remaining b e success), fun scrub last notReady => ⟨?_, fun rest => ?_⟩, fun other => ?_⟩
  · rw [ready, scrub, decide_eq_true last, Bool.and_self, Bool.or_true]
  · rw [State.endErase_served rest, State.endErase_eq]
    exact State.arbitrate_kept kept_store b (State.blockCounted_event scrub last notReady success)
  · have notLast : (e.scrub && decide (s.stc.scrubRemaining ≤ 1)) = false := by
      rcases other with h | h
      · rw [h, Bool.false_and]
      · rw [decide_eq_false (Nat.not_le.2 h), Bool.and_false]
    rw [ready, notLast, Bool.or_false]

end

/-- Settles O52: the block as it joins the free list or becomes BAD, and the count of the scrub. -/
theorem eraseEndFreesBlock : Obligations.EraseEndFreesBlock := by
  intro s b e he runs
  refine ⟨exec_eraseEnd_well he runs, exec_eraseEnd_counts he runs, _, exec_eraseEnd he runs false, ?_,
    fun rest own first => ?_⟩
  · rw [State.serveClaims_mem, State.endErase_mem]
    rfl
  · rw [State.endErase_served rest]
    exact State.endErase_badBlock own first

end Sys2Proof.Machine
end

section
/-! PROOF. The ends of bank operations and their limits: the lane that a READ returns to, an operation past its limit,
the suspension of an erase, and the grant that follows (O53). -/

namespace Sys2Proof.Machine

/-! ## The end of a lane's READ (R92, R97, R127) -/

/-- Bank `b` performs nothing any more. -/
def State.opEnded (s : State) (b : Nat) : State := s.setBank b { s.bank b with op := none }

section
variable {s : State} {b n k : Nat} {r : Role} {base block low high : Nat} {pages errors : List Nat} {j : Job}

theorem exec_readEnd {q : ReadReq} {wanted : Bool} (op : (s.bank b).op = some (.read q wanted)) (errors : List Nat) :
    exec (.readEnd b errors) s = .next (s.endRead b q wanted errors) := by
  show Host.Outcome.next (match (s.bank b).op with
    | some (.read r wanted) => s.endRead b r wanted errors
    | _ => s) = _
  rw [op]

/-- Once its pages have been returned a READ leaves the lanes as they are, but for what a claim gives them. -/
theorem State.arbitrate_served_core (s : State) (b m : Nat) :
    ((s.arbitrate b).serveClaims.lane m).core = (s.lane m).core := by
  rw [State.serveClaims_core, State.lane_of_lanes (State.arbitrate_lanes ..)]

/-- The pages that a READ returns to a lane. -/
def State.pagesFor (s : State) (r : Role) (base block : Nat) (pages : List Nat) : List SourcePage :=
  pages.map (fun p => ⟨r, base + p * 4096, s.bankPage block p⟩)

theorem State.laneRead_good (h : ∀ p ∈ pages, p ∉ errors) : s.laneRead n r base ⟨.lane n r base, block, pages, low, high⟩
    errors = (s.laneReceives n (s.pagesFor r base block pages)).laneReadOn n := by
  refine if_neg ?_
  simpa using h

theorem State.laneRead_bad (h : ∃ p ∈ pages, p ∈ errors) : s.laneRead n r base ⟨.lane n r base, block, pages, low, high⟩
    errors = s.laneFails n .sourceUnreadable := by
  refine if_pos ?_
  simpa using h

theorem exec_readEnd_gives (op : (s.bank b).op = some (.read ⟨.lane n r base, block, pages, low, high⟩ true))
    (good : ∀ p ∈ pages, p ∉ errors ∧ p ∉ (s.block block).lost)
    (waits : (s.laneReceives n (s.pagesFor r base block pages)).awaitsSource n) :
    ∃ t, exec (.readEnd b errors) s = .next t
      ∧ (t.lane n).received = (s.lane n).received ++ s.pagesFor r base block pages ∧ t.mem = s.mem := by
  refine ⟨_, exec_readEnd op errors, ?_, State.mem_of_still (State.endRead_still ..)⟩
  have returned : (s.opEnded b).returnRead ⟨.lane n r base, block, pages, low, high⟩ true errors
      = ((s.opEnded b).laneReceives n (s.pagesFor r base block pages)).laneReadOn n :=
    State.laneRead_good (s := s.opEnded b) fun p hp hm => (List.mem_append.1 hm).elim (good p hp).1 (good p hp).2
  have rests := (State.laneReadOn_rests
    (s := (s.opEnded b).laneReceives n (s.pagesFor r base block pages)) waits).1
  have core := State.arbitrate_served_core (((s.opEnded b).laneReceives n (s.pagesFor r base block pages)).laneReadOn n) b n
  rw [rests, State.laneReceives, State.lane_setLane_same] at core
  unfold State.endRead
  rw [show s.setBank b { s.bank b with op := none } = s.opEnded b from rfl, returned]
  exact congrArg Lane.received core

theorem exec_readEnd_fails (op : (s.bank b).op = some (.read ⟨.lane n r base, block, pages, low, high⟩ true))
    (bad : ∃ p ∈ pages, p ∈ errors ∨ p ∈ (s.block block).lost) (works : (s.lane n).works = true)
    (hk : (s.lane n).job = some k) (hj : s.job? k = some j) (hl : s.jdp.live = []) (hb : s.jdp.backlog = []) :
    ∃ t, exec (.readEnd b errors) s = .next t ∧ (t.lane n).state = afterJob (s.lane n).state
      ∧ (t.lane n).job = none ∧ t.job? k = none ∧ t.condition .jobFailed = true := by
  obtain ⟨p, hp, bad⟩ := bad
  have returned : (s.opEnded b).returnRead ⟨.lane n r base, block, pages, low, high⟩ true errors
      = ((s.opEnded b).failLaneJob n .sourceUnreadable).finish :=
    (State.laneRead_bad (s := s.opEnded b) ⟨p, hp, List.mem_append.2 bad⟩).trans
      (State.laneFails_works (s := s.opEnded b) works _)
  obtain ⟨state, job, -, gone, failed⟩ := State.failLaneJob_finish (s := s.opEnded b) hk hj hl hb .sourceUnreadable
  have core := State.arbitrate_served_core ((s.opEnded b).failLaneJob n .sourceUnreadable).finish b n
  refine ⟨_, exec_readEnd op errors, ?_⟩
  unfold State.endRead
  rw [show s.setBank b { s.bank b with op := none } = s.opEnded b from rfl, returned]
  refine ⟨(Lane.state_of_core core).trans state, (Lane.job_of_core core).trans job, ?_, ?_⟩
  · rw [State.job?_of_jdp (State.serveClaims_jdp _), State.job?_of_jdp (State.arbitrate_jdp ..)]
    exact gone
  · refine (State.serveClaims_jobFailed _).trans ((State.arbitrate_jobFailed ..).trans failed)

end

/-! ## An operation past its limit (R116; log 13) -/

section
variable {s : State} {b : Nat} (left : Unfinished)

theorem exec_storeOpLimit_read {r : ReadReq} {wanted : Bool} (op : (s.bank b).op = some (.read r wanted)) :
    ∃ t, exec (.storeOpLimit b left) s = .next t
      ∧ exec (.readEnd b (r.pages.filter (fun p => !left.returned.contains p))) s = .next t := by
  refine ⟨_, rfl, ?_⟩
  rw [exec_readEnd op, State.opLimit, op]

theorem exec_storeOpLimit_program {p : ProgramReq} (op : (s.bank b).op = some (.program p)) :
    ∃ t, exec (.storeOpLimit b left) s = .next t ∧ exec (.programEnd b false) s = .next t := by
  refine ⟨_, rfl, ?_⟩
  rw [exec_programEnd op, State.opLimit, op]

theorem exec_storeOpLimit_append {g k : Nat} (first : b = 0) (op : (s.bank b).op = some (.append g k)) :
    ∃ t, exec (.storeOpLimit b left) s = .next t ∧ exec (.appendEnd false left.place) s = .next t := by
  subst first
  refine ⟨_, rfl, ?_⟩
  rw [exec_appendEnd op, State.opLimit, op]

theorem exec_storeOpLimit_erase {e : Erase} (op : (s.bank b).op = none) (he : (s.bank b).erase = some e)
    (runs : e.state ≠ .suspended) :
    ∃ t, exec (.storeOpLimit b left) s = .next t ∧ exec (.eraseEnd b false) s = .next t := by
  refine ⟨_, rfl, ?_⟩
  rw [exec_eraseEnd he runs, State.opLimit, op]
  dsimp only
  rw [he]
  exact congrArg Host.Outcome.next (if_neg runs).symm

end

/-! ## A suspension (R131) -/

section
variable {s : State} {b : Nat} {e : Erase} (he : (s.bank b).erase = some e) (hc : e.state = .commanded)
include he hc

theorem exec_eraseSuspendEffect_counts : ∃ t d, exec (.eraseSuspendEffect b) s = .next t ∧ (t.bank b).erase = some d
    ∧ d.block = e.block ∧ d.suspends = e.suspends + 1 := by
  let x : Bank := { s.bank b with erase := some { e with state := .suspended, suspends := e.suspends + 1 } }
  have bank : (s.setBank b x).bank b = x := State.bank_setBank_same ..
  obtain ⟨d, hd, block, suspends⟩ := (State.arbitrate_granted (s.setBank b x) b).erase _ (congrArg Bank.erase bank)
  refine ⟨(s.setBank b x).arbitrate b, d, ?_, hd, block, suspends⟩
  show Host.Outcome.next (match (s.bank b).erase with
    | some e => if e.state = EraseState.commanded then _ else s
    | none => s) = _
  rw [he]
  exact congrArg Host.Outcome.next (if_pos hc)

theorem exec_suspendLimit_runs : exec (.suspendLimit b) s = .next (s.setBank b { s.bank b with
    erase := some { e with state := .running, suspends := 16 } }) := by
  show Host.Outcome.next (match (s.bank b).erase with
    | some e => if e.state = EraseState.commanded then _ else s
    | none => s) = _
  rw [he]
  exact congrArg Host.Outcome.next (if_pos hc)

end

/-! ## The grant that follows (R130) -/

section
variable {s t : State} {b : Nat}

/-- With no claim and no relocation left the arbiter of a bank that is free grants the head, and nothing is served. -/
theorem State.arbitrate_served_grantsHead {x : Bank} (waits : t.waits = ([], [])) (bank : t.bank b = x)
    (idle : x.op = none) (suspended : ∀ e, x.erase = some e → e.state = .suspended) :
    (t.arbitrate b).serveClaims.grantsHead b x := by
  have waits : (t.arbitrate b).waits = ([], []) := (State.arbitrate_waits ..).trans waits
  have noCopy : (t.arbitrate b).stc.relocations = [] := congrArg Prod.snd waits
  rw [State.serveClaims_nil ⟨congrArg Prod.fst waits, fun r hr => by rw [noCopy] at hr; cases hr⟩]
  exact State.arbitrate_grantsHead bank idle suspended

theorem State.programDone_bank (h : s.stc.relocations = []) (p : ProgramReq) (c : Buf) :
    (s.programDone p c).bank b = s.bank b ∧ (s.programDone p c).waits = s.waits := by
  have noReloc : (s.programPage p.block p.page c.data).relocOf p c = none := State.relocOf_none h p c
  unfold State.programDone
  dsimp only
  split
  · exact ⟨rfl, rfl⟩
  · rw [noReloc]
    dsimp only
    unfold State.protectTest
    split <;> exact ⟨rfl, rfl⟩

variable (hc : s.stc.claims = []) (hr : s.stc.relocations = [])
include hc hr

theorem State.waits_none : s.waits = ([], []) := by rw [State.waits, hc, hr]

section
variable (suspended : ∀ e, (s.bank b).erase = some e → e.state = .suspended)
include suspended

theorem State.opEnded_grantsHead (h : t.bank b = (s.opEnded b).bank b) (hw : t.waits = s.waits) :
    (t.arbitrate b).serveClaims.grantsHead b { s.bank b with op := none } :=
  State.arbitrate_served_grantsHead (hw.trans (State.waits_none hc hr)) (h.trans (State.bank_setBank_same ..)) rfl
    suspended

theorem exec_readEnd_grants {r : ReadReq} (op : (s.bank b).op = some (.read r false)) (errors : List Nat) :
    ∃ t, exec (.readEnd b errors) s = .next t ∧ t.grantsHead b { s.bank b with op := none } :=
  ⟨_, exec_readEnd op errors, State.opEnded_grantsHead (t := s.opEnded b) hc hr suspended rfl rfl⟩

theorem exec_programEnd_grants {p : ProgramReq} (op : (s.bank b).op = some (.program p)) :
    ∃ t, exec (.programEnd b true) s = .next t ∧ t.grantsHead b { s.bank b with op := none } := by
  refine ⟨_, exec_programEnd op true, ?_⟩
  cases hb : s.buf? p.buffer with
  | none =>
    rw [State.endProgram_unbound hb]
    exact State.opEnded_grantsHead (t := s.opEnded b) hc hr suspended rfl rfl
  | some c =>
    obtain ⟨bank, waits⟩ := State.programDone_bank (s := s.opEnded b) (b := b) hr p c
    rw [State.endProgram_bound hb]
    exact State.opEnded_grantsHead (t := (s.opEnded b).programDone p c) hc hr suspended bank waits

theorem exec_appendEnd_grants {g k : Nat} (first : b = 0) (op : (s.bank b).op = some (.append g k)) (left : List Byte) :
    ∃ t, exec (.appendEnd true left) s = .next t ∧ t.grantsHead b { s.bank b with op := none } := by
  subst first
  refine ⟨_, exec_appendEnd op true left, ?_⟩
  exact State.opEnded_grantsHead (t := State.setBank
    (State.writePlace { s with stc := { s.stc with emptyPlaces := s.stc.emptyPlaces.filter (· != k) } } k (placeEntry g))
    0 { s.bank 0 with op := none }) hc hr suspended rfl rfl

end

theorem exec_eraseEnd_grants {e : Erase} (op : (s.bank b).op = none) (he : (s.bank b).erase = some e)
    (runs : e.state ≠ .suspended) :
    ∃ t, exec (.eraseEnd b true) s = .next t
      ∧ t.grantsHead b { s.bank b with erase := none, free := (s.bank b).free ++ [e.block] } := by
  have waits : (s.blockCounted b e true).waits = s.waits := by
    rw [State.blockCounted, State.scrubCount_waits, State.evalLevels_waits, State.blockDone_waits]
  refine ⟨_, exec_eraseEnd he runs true, ?_⟩
  rw [State.endErase_eq]
  exact State.arbitrate_served_grantsHead (waits.trans (State.waits_none hc hr))
    ((State.blockCounted_bank ..).trans (s.blockErased_bank b e)) op nofun

end

/-- Settles O53: the ends, the limits, the suspensions and the grants, one by one. -/
theorem bankLimits : Obligations.BankLimits := by
  intro s b
  refine ⟨fun n r base block pages low high errors op => ⟨fun good waits => exec_readEnd_gives op good waits,
      fun k j bad _ works hk hj hl hb => exec_readEnd_fails op bad works hk hj hl hb⟩,
    fun left r wanted op => exec_storeOpLimit_read left op, fun left p op => exec_storeOpLimit_program left op,
    fun left g k first op => exec_storeOpLimit_append left first op,
    fun left e op he runs => exec_storeOpLimit_erase left op he runs,
    fun e he hc => ⟨exec_eraseSuspendEffect_counts he hc, exec_suspendLimit_runs he hc⟩, fun hc hr => ⟨fun suspended => ?_,
      fun e op he runs => exec_eraseEnd_grants hc hr op he runs⟩⟩
  exact ⟨fun r errors op => exec_readEnd_grants hc hr suspended op errors,
    fun p op => exec_programEnd_grants hc hr suspended op,
    fun g k left first op => exec_appendEnd_grants hc hr suspended first op left⟩

end Sys2Proof.Machine
end

section
/-! PROOF. A source low mark with nothing being relocated: the head blocks of a run that it retires (R120), one by one
(O54). -/

namespace Sys2Proof.Machine

section
variable {s t : State} {slot : Nat} {r : Role} {x : Run}

/-- With no relocation none waits to start. -/
theorem State.nextReloc_none (h : s.stc.relocations = []) (o : Owner) : s.nextReloc o = s := by
  unfold State.nextReloc State.activeReloc
  rw [h]
  rfl

/-- A block of a run is given up: its buffers are discarded, and it is retired if it is not BAD. -/
def State.headRetired (s : State) (g : Nat) : State := (s.discardWhere (fun b => b.block == g)).retireSound g

theorem State.headRetired_drops (s : State) (g : Nat) : s.drops (s.headRetired g) :=
  (State.discardBufs_drops _ s).trans (State.retireSound_drops ..)

theorem State.headRetired_gaveUp {g : Nat} (sound : (s.block g).state ≠ .bad) (clean : s.clean g) :
    (s.headRetired g).gaveUp g := by
  have discards : s.drops (s.discardWhere (fun b => b.block == g)) := State.discardBufs_drops _ s
  rw [State.headRetired, State.retireSound, if_neg (discards.sound g sound)]
  exact State.retireBlock_gaveUp (discards.clean g clean)

/-- A run without its head block. -/
def Run.retired (x : Run) (rest : List Nat) : Run := { x with blocks := rest, headOffset := x.headOffset + 262144 }

theorem State.retireHead_eq (h : s.stc.relocations = []) (slot : Nat) (r : Role) (x : Run) (g : Nat) (rest : List Nat) :
    s.retireHead slot r x g rest = (s.headRetired g).setRun slot r (x.retired rest) := by
  have none : (s.discardWhere (fun b => b.block == g)).stc.relocations = [] :=
    (State.discardBufs_drops _ s).tofrees.relocations.trans h
  have none' : ((s.headRetired g).setRun slot r (x.retired rest)).stc.relocations = [] :=
    (s.headRetired_drops g).tofrees.relocations.trans h
  unfold State.retireHead
  simp only [none, List.filter_nil, List.foldl_nil]
  exact State.nextReloc_none none' _

theorem State.setRun_frees (s : State) (slot : Nat) (r : Role) (x : Run) : s.frees (s.setRun slot r x) :=
  State.frees_of_kept rfl rfl rfl rfl

/-- How many head blocks of a run end at or below its mark. -/
def Run.below (x : Run) : Nat := min x.blocks.length ((x.lowMark - x.headOffset) / 262144)

/-- A run without the head blocks that end at or below its mark. -/
def Run.lowered (x : Run) : Run :=
  { x with blocks := x.blocks.drop x.below, headOffset := x.headOffset + x.below * 262144 }

theorem Run.below_cons {g : Nat} {rest : List Nat} (hb : x.blocks = g :: rest)
    (low : x.headOffset + 262144 ≤ x.lowMark) : x.below = (x.retired rest).below + 1 := by
  have length : x.blocks.length = rest.length + 1 := by rw [hb]; rfl
  simp only [Run.below, Run.retired, length]
  omega

theorem Run.lowered_cons {g : Nat} {rest : List Nat} (hb : x.blocks = g :: rest)
    (low : x.headOffset + 262144 ≤ x.lowMark) : x.lowered = (x.retired rest).lowered := by
  unfold Run.lowered
  rw [Run.below_cons hb low, hb]
  generalize (x.retired rest).below = k
  simp only [Run.retired, List.drop_succ_cons, Run.mk.injEq, true_and, and_true]
  omega

theorem Run.below_zero (high : x.blocks = [] ∨ x.lowMark < x.headOffset + 262144) : x.below = 0 := by
  unfold Run.below
  rcases high with h | h
  · rw [h]
    exact Nat.zero_min _
  · omega

theorem Run.lowered_of_zero (h : x.below = 0) : x.lowered = x := by
  unfold Run.lowered
  rw [h, List.drop_zero, Nat.zero_mul, Nat.add_zero]

theorem State.retireHeads_done (hx : s.run? slot r = some x)
    (high : x.blocks = [] ∨ x.lowMark < x.headOffset + 262144) (fuel : Nat) : s.retireHeads slot r fuel = s := by
  cases fuel with
  | zero => rfl
  | succ fuel =>
    rw [State.retireHeads, hx]
    dsimp only
    split
    · rfl
    next g rest hb =>
      rw [hb] at high
      exact if_neg (Nat.not_le.2 (high.resolve_left nofun))

theorem State.retireHeads_step (hx : s.run? slot r = some x) {g : Nat} {rest : List Nat} (hb : x.blocks = g :: rest)
    (low : x.headOffset + 262144 ≤ x.lowMark) (fuel : Nat) :
    s.retireHeads slot r (fuel + 1) = (s.retireHead slot r x g rest).retireHeads slot r fuel := by
  rw [State.retireHeads, hx]
  dsimp only
  rw [hb]
  exact if_pos low

/-- The head blocks at or below the mark leave the run, and each sound one of them is given up. -/
theorem State.retireHeads_retires (fuel : Nat) (hx : s.run? slot r = some x) (hr : s.stc.relocations = [])
    (enough : x.blocks.length < fuel) :
    s.frees (s.retireHeads slot r fuel) ∧ (s.retireHeads slot r fuel).run? slot r = some x.lowered
      ∧ s.allGaveUp (s.retireHeads slot r fuel) (x.blocks.take x.below) := by
  induction fuel generalizing s x with
  | zero => exact absurd enough (Nat.not_lt_zero _)
  | succ fuel ih =>
    by_cases high : x.blocks = [] ∨ x.lowMark < x.headOffset + 262144
    · have zero := Run.below_zero high
      rw [State.retireHeads_done hx high, zero, Run.lowered_of_zero zero]
      exact ⟨s.frees_refl, hx, fun g hg => absurd hg List.not_mem_nil⟩
    · obtain ⟨g, rest, hb⟩ := List.exists_cons_of_ne_nil fun e => high (.inl e)
      have low : x.headOffset + 262144 ≤ x.lowMark := Nat.not_lt.1 fun h => high (.inr h)
      have head := (s.headRetired_drops g).tofrees
      have step := head.trans (State.setRun_frees (s.headRetired g) slot r (x.retired rest))
      obtain ⟨frees, run, gone⟩ := ih (s := (s.headRetired g).setRun slot r (x.retired rest)) (x := x.retired rest)
        (State.run?_setRun_same ..) (step.relocations.trans hr) (by rw [hb] at enough; exact Nat.lt_of_succ_lt_succ enough)
      rw [State.retireHeads_step hx hb low, State.retireHead_eq hr, Run.lowered_cons hb low, Run.below_cons hb low, hb]
      refine ⟨step.trans frees, run, fun k hk sound clean => ?_⟩
      rcases List.mem_cons.1 hk with rfl | hk
      · exact ((State.setRun_frees ..).trans frees).gaveUp k (head.clean k clean) (State.headRetired_gaveUp sound clean)
      · exact gone k hk (step.sound k sound) (step.clean k clean)

/-- The run takes a source low mark. -/
def State.markRun (s : State) (slot : Nat) (r : Role) (mark : Nat) (x : Run) : State :=
  (s.received (.sourceLowMark slot r mark)).setRun slot r { x with lowMark := max x.lowMark mark }

theorem exec_sourceLowMark (hx : s.run? slot r = some x) (mark : Nat) : exec (.sourceLowMark slot r mark) s
    = .next ((s.markRun slot r mark x).retireHeads slot r (x.blocks.length + 1)).serveClaims := by
  have run : (s.received (.sourceLowMark slot r mark)).run? slot r = some x := hx
  show Host.Outcome.next (match (s.received (.sourceLowMark slot r mark)).run? slot r with
    | none => s.received (.sourceLowMark slot r mark)
    | some x => (((s.received (.sourceLowMark slot r mark)).setRun slot r
        { x with lowMark := max x.lowMark mark }).retireTest slot r).serveClaims) = _
  rw [run]
  dsimp only
  rw [State.retireTest, State.run?_setRun_same]
  rfl

theorem State.markRun_frees (s : State) (slot : Nat) (r : Role) (mark : Nat) (x : Run) :
    s.frees (s.markRun slot r mark x) := State.frees_of_kept rfl rfl rfl rfl

/-- The run's head blocks below the mark, with no claim waiting and nothing being relocated. -/
theorem exec_sourceLowMark_retires (hx : s.run? slot r = some x) (hc : s.stc.claims = []) (hr : s.stc.relocations = [])
    (mark : Nat) :
    let y : Run := { x with lowMark := max x.lowMark mark }
    ∃ t, exec (.sourceLowMark slot r mark) s = .next t ∧ t.run? slot r = some y.lowered
      ∧ (y.below = 0 → t.stc.banks = s.stc.banks) ∧ s.allGaveUp t (x.blocks.take y.below) := by
  intro y
  have marks := s.markRun_frees slot r mark x
  have run : (s.markRun slot r mark x).run? slot r = some y := State.run?_setRun_same ..
  obtain ⟨frees, lowered, gone⟩ := State.retireHeads_retires (x.blocks.length + 1) run (marks.relocations.trans hr)
    (Nat.lt_succ_self _)
  have served : ((s.markRun slot r mark x).retireHeads slot r (x.blocks.length + 1)).serveClaims
      = (s.markRun slot r mark x).retireHeads slot r (x.blocks.length + 1) :=
    State.serveClaims_nil ⟨(marks.trans frees).claims.trans hc,
      fun q hq => by rw [(marks.trans frees).relocations, hr] at hq; cases hq⟩
  refine ⟨_, exec_sourceLowMark hx mark, ?_⟩
  rw [served]
  refine ⟨lowered, fun zero => ?_, marks.allGaveUp gone⟩
  have high : y.blocks = [] ∨ y.lowMark < y.headOffset + 262144 := by
    unfold Run.below at zero
    by_cases empty : y.blocks = []
    · exact .inl empty
    · have := List.length_pos_of_ne_nil empty
      exact .inr (by omega)
  rw [State.retireHeads_done run high]
  rfl

end

end Sys2Proof.Machine
end

section
/-! PROOF. A block that an ERASE frees goes to the lane that waits for one, before the run that waited first (R128,
R129; O54). -/

namespace Sys2Proof.Machine

/-! ## The claims of a lane and a run -/

section
variable {s : State} {n slot : Nat} {r : Role}

/-- The lane's claim comes first (R129). -/
theorem claimOrder_lane (hn : n < 12) (slot : Nat) (r : Role) :
    claimOrder [⟨.run slot r, .block⟩, ⟨.lane n, .block⟩] = [⟨.lane n, .block⟩, ⟨.run slot r, .block⟩] := by
  interval_cases n <;> rfl

/-- The lane is granted its block, and none is left for the run. -/
theorem State.serveClaims_lane (hn : n < 12) (hc : s.stc.claims = [⟨.run slot r, .block⟩, ⟨.lane n, .block⟩])
    (free : 0 < s.freeBlocks) {t : State} (ht : s.grant ⟨.lane n, .block⟩ = t)
    (left : t.stc.claims = [⟨.run slot r, .block⟩]) (used : t.freeBlocks = 0) (reloc : t.stc.relocations = []) :
    s.serveClaims = t := by
  have first : s.grantable ⟨.lane n, .block⟩ = true := by
    refine Bool.or_eq_true_iff.2 (.inl (decide_eq_true free))
  have waits : t.grantable ⟨.run slot r, .block⟩ = false := by
    refine decide_eq_false ?_
    rw [used]
    exact Nat.not_lt_zero _
  have loop : State.serveLoop (s.stc.claims.length + Config.buffers) s = t := by
    rw [hc, show [(⟨.run slot r, .block⟩ : Claim), ⟨.lane n, .block⟩].length + Config.buffers = 160 + 1 + 1 from rfl,
      State.serveLoop, hc, claimOrder_lane hn]
    simp only [List.find?_cons_of_pos first, ht]
    rw [State.serveLoop, left, claimOrder_run]
    simp only [List.find?_cons, waits, List.find?_nil]
  have ends : t.endOverruns s.stc.claims = t := by
    have filtered : s.stc.claims.filter (fun c => !t.stc.claims.contains c) = [⟨.lane n, .block⟩] := by
      rw [hc, left]
      simp
    rw [State.endOverruns, filtered]
    rfl
  rw [State.serveClaims, loop, ends]
  exact State.resumeCopies_none fun q hq => by rw [reloc] at hq; cases hq

end

/-! ## The lane takes the block (R93, R94, R128) -/

/-- A block is taken from the head of its bank's free list. -/
def State.blockTaken (s : State) (g : Nat) : State :=
  (s.setBank (bankOf g) { s.bank (bankOf g) with free := (s.bank (bankOf g)).free.tail }).setBlockState g .opened

section
variable {s : State} {g : Nat}

theorem State.takeBlock_eq (s : State) (g : Nat) : s.takeBlock g = (s.blockTaken g).evalLevels := rfl

theorem State.takeBlock_stc (s : State) (g : Nat) :
    (s.takeBlock g).stc = { (s.blockTaken g).stc with level := (s.blockTaken g).storeLevel } :=
  State.evalLevels_stc _

theorem State.takeBlock_free (s : State) (g c : Nat) : ((s.takeBlock g).bank c).free
    = if c = bankOf g then (s.bank c).free.tail else (s.bank c).free := by
  rw [State.takeBlock_eq, State.evalLevels_bank]
  by_cases hc : c = bankOf g
  · rw [if_pos hc, hc]
    exact congrArg Bank.free (State.bank_setBank_same ..)
  · rw [if_neg hc]
    exact congrArg Bank.free (State.bank_setBank_ne _ _ hc)

theorem State.takeBlock_block_same (s : State) (g : Nat) : ((s.takeBlock g).block g).state = .opened := by
  rw [State.takeBlock_eq, State.block_of_blocks (State.evalLevels_blocks (s.blockTaken g))]
  exact State.block_setBlockState_same ..

theorem State.takeBlock_block_ne (s : State) {g k : Nat} (h : k ≠ g) : (s.takeBlock g).block k = s.block k := by
  rw [State.takeBlock_eq, State.block_of_blocks (State.evalLevels_blocks (s.blockTaken g))]
  exact State.block_setBlockState_ne _ _ h

theorem State.appendExtentBlock_eq (s : State) (n : Nat) (x : Extent) (g : Nat) : s.appendExtentBlock n x g
    = (match x.blocks.getLast? with
      | none => s.takeBlock g
      | some p => (s.takeBlock g).setBlockState p .sealed).setExtent n { x with blocks := x.blocks ++ [g] } := rfl

/-- The block is OPEN, the last of the extent, and gone from the free list. -/
theorem State.appendExtentBlock_takes (s : State) {e : Nat} {x : Extent} (fresh : g ∉ x.blocks) :
    (s.appendExtentBlock e x g).extent? e = some { x with blocks := x.blocks ++ [g] }
      ∧ ((s.appendExtentBlock e x g).block g).state = .opened
      ∧ (∀ c, ((s.appendExtentBlock e x g).bank c).free = ((s.takeBlock g).bank c).free)
      ∧ (s.appendExtentBlock e x g).waits = s.waits := by
  have taken : (s.takeBlock g).waits = s.waits := State.evalLevels_waits _
  rw [State.appendExtentBlock_eq]
  refine ⟨Table.at?_put_same .., ?_⟩
  split
  · exact ⟨s.takeBlock_block_same g, fun _ => rfl, taken⟩
  next p hp =>
    have other : g ≠ p := fun e => fresh (e ▸ List.mem_of_getLast? hp)
    refine ⟨?_, fun _ => rfl, taken⟩
    exact (congrArg BlockRec.state (State.block_setBlockState_ne (s.takeBlock g) .sealed other)).trans
      (s.takeBlock_block_same g)

theorem State.unhold_held (s : State) (n : Nat) : ((s.unhold n).lane n).held = .none := by
  unfold State.unhold
  rw [State.lane_setLane_same]

theorem State.laneExtent_eq_of {s t : State} (hl : t.lanes = s.lanes) (hj : t.jdp = s.jdp)
    (he : t.stc.extents = s.stc.extents) (n : Nat) : t.laneExtent n = s.laneExtent n := by
  have job : t.laneJob n = s.laneJob n := by
    unfold State.laneJob State.job?
    rw [State.lane_of_lanes hl, hj]
  unfold State.laneExtent State.extentFor State.extent?
  rw [job, he]

/-- The lane's claim for a block is granted where one bank has a block free. -/
theorem State.grant_laneBlock {n e : Nat} {x : Extent} (hx : s.laneExtent n = some (e, x))
    (free : ∀ start, s.freeHead start = some g) (fresh : g ∉ x.blocks) :
    let t := s.grant ⟨.lane n, .block⟩
    t.extent? e = some { x with blocks := x.blocks ++ [g] } ∧ (t.block g).state = .opened
      ∧ (∀ c, (t.bank c).free = if c = bankOf g then (s.bank c).free.tail else (s.bank c).free)
      ∧ t.waits = (s.withdrawClaim (.lane n)).waits ∧ (t.lane n).held = .none := by
  intro t
  have gives : t = ((s.withdrawClaim (.lane n)).unhold n).appendExtentBlock e x g := by
    show (s.withdrawClaim (.lane n)).giveLane n .block = _
    have extent : (s.withdrawClaim (.lane n)).laneExtent n = some (e, x) := hx
    have head : (s.withdrawClaim (.lane n)).freeHead (extentStart x) = some g := free _
    unfold State.giveLane
    rw [extent]
    dsimp only
    rw [head]
  obtain ⟨extent, opened, banks, waits⟩ :=
    State.appendExtentBlock_takes ((s.withdrawClaim (.lane n)).unhold n) (e := e) fresh
  rw [gives]
  refine ⟨extent, opened, fun c => (banks c).trans (State.takeBlock_free ..), waits, ?_⟩
  rw [State.lane_of_lanes (State.appendExtentBlock_lanes ..)]
  exact State.unhold_held ..

end

/-! ## The end of the ERASE -/

section
variable {s : State} {b : Nat} {d : Erase}

theorem State.endErase_extents (s : State) (b : Nat) (e : Erase) :
    (s.endErase b e true).stc.extents = s.stc.extents := by
  obtain ⟨level, counted⟩ := State.scrubCount_stc (s.blockErased b e).evalLevels e.scrub
  have extents : (s.blockCounted b e true).stc.extents = (s.blockErased b e).stc.extents := by
    show ((s.blockErased b e).evalLevels.scrubCount e.scrub).stc.extents = _
    rw [counted, State.evalLevels_stc]
  rw [(s.endErase_serves b e true).drops.extents, extents]
  rfl

theorem State.endErase_free_ne (s : State) (e : Erase) {c : Nat} (h : c ≠ b) :
    ((s.endErase b e true).bank c).free = (s.bank c).free := by
  rw [(s.endErase_serves b e true).others c h, State.blockCounted_bank]
  exact congrArg Bank.free ((State.bank_setBank_ne _ _ h).trans (State.bank_setBank_ne s _ h))

theorem State.freeHead_only {g : Nat} (own : b < 4) (free : (s.bank b).free = [g])
    (none : ∀ c < 4, c ≠ b → (s.bank c).free = []) (start : Nat) : s.freeHead start = some g := by
  have count : 0 < s.freeBlocks := by
    unfold State.freeBlocks
    have : (s.bank b).free.length = 1 := by rw [free]; rfl
    interval_cases b <;> omega
  obtain ⟨k, hk⟩ := State.freeHead_some count start
  rw [hk]
  obtain ⟨c, hc, head⟩ := List.exists_of_findSome?_eq_some hk
  obtain ⟨i, -, rfl⟩ := List.mem_map.1 hc
  by_cases h : (start + i) % 4 = b
  · rw [h, free] at head
    exact head.symm
  · rw [none _ (Nat.mod_lt _ (by decide)) h] at head
    cases head

/-- The lane has the block, and the run waits on. -/
theorem exec_eraseEnd_servesLane {n slot e : Nat} {r : Role} {x : Extent} (hb : b < 4) (hn : n < 12)
    (he : (s.bank b).erase = some d) (runs : d.state ≠ .suspended) (own : bankOf d.block = b) (fresh : d.block ∉ x.blocks)
    (none : ∀ c < 4, (s.bank c).free = []) (hr : s.stc.relocations = [])
    (hc : s.stc.claims = [⟨.run slot r, .block⟩, ⟨.lane n, .block⟩]) (hx : s.laneExtent n = some (e, x)) :
    ∃ t, exec (.eraseEnd b true) s = .next t ∧ t.stc.claims = [⟨.run slot r, .block⟩]
      ∧ t.extent? e = some { x with blocks := x.blocks ++ [d.block] } ∧ (t.block d.block).state = .opened
      ∧ (t.lane n).held = .none ∧ ∀ c < 4, (t.bank c).free = [] := by
  have waits := s.endErase_waits b d true
  have claims : (s.endErase b d true).stc.claims = [⟨.run slot r, .block⟩, ⟨.lane n, .block⟩] :=
    (congrArg Prod.fst waits).trans hc
  have free : ((s.endErase b d true).bank b).free = [d.block] := by
    rw [State.endErase_free, none b hb]
    rfl
  have others : ∀ c < 4, c ≠ b → ((s.endErase b d true).bank c).free = [] := fun c hc h => by
    rw [State.endErase_free_ne s d h, none c hc]
  have extent : (s.endErase b d true).laneExtent n = some (e, x) :=
    (State.laneExtent_eq_of (State.endErase_lanes ..) (State.endErase_jdp ..) (s.endErase_extents b d) n).trans hx
  obtain ⟨has, opened, frees, left, held⟩ := State.grant_laneBlock extent (State.freeHead_only hb free others) fresh
  have emptied : ∀ c < 4, (((s.endErase b d true).grant ⟨.lane n, .block⟩).bank c).free = [] := fun c hc => by
    rw [frees, own]
    split
    next h => rw [h, free]; rfl
    next h => exact others c hc h
  have unclaimed : ((s.endErase b d true).grant ⟨.lane n, .block⟩).stc.claims = [⟨.run slot r, .block⟩] := by
    refine (congrArg Prod.fst left).trans ?_
    show (s.endErase b d true).stc.claims.filter (fun c => c.who != .lane n) = _
    rw [claims]
    simp
  have count : 0 < (s.endErase b d true).freeBlocks := by
    have : ((s.endErase b d true).bank b).free.length = 1 := by rw [free]; rfl
    unfold State.freeBlocks
    interval_cases b <;> omega
  have used : ((s.endErase b d true).grant ⟨.lane n, .block⟩).freeBlocks = 0 := by
    unfold State.freeBlocks
    rw [emptied 0 (by decide), emptied 1 (by decide), emptied 2 (by decide), emptied 3 (by decide)]
    rfl
  have noReloc : ((s.endErase b d true).grant ⟨.lane n, .block⟩).stc.relocations = [] :=
    (congrArg Prod.snd left).trans ((congrArg Prod.snd waits).trans hr)
  have served := State.serveClaims_lane hn claims count rfl unclaimed used noReloc
  refine ⟨_, exec_eraseEnd he runs true, ?_⟩
  rw [served]
  exact ⟨unclaimed, has, opened, held, emptied⟩

end

end Sys2Proof.Machine
end

section
/-! PROOF. A mark that retires the head block of a run while it is being relocated abandons the relocation (R120, R126,
R127, R135; O54). -/

namespace Sys2Proof.Machine

/-! ## Reads that have been withdrawn (R127) -/

/-- A bank has no read of a reader in its queues, and performs none that is still wanted. -/
structure Bank.withdrew (x : Bank) (who : Reader) : Prop where
  deliveryRead : ∀ r ∈ x.deliveryRead, r.reader ≠ who
  laneRead : ∀ r ∈ x.laneRead, r.reader ≠ who
  copy : ∀ r, CopyReq.read r ∈ x.copy → r.reader ≠ who
  op : ∀ r wanted, x.op = some (.read r wanted) → r.reader = who → wanted = false

theorem Bank.granted.withdrew {x y : Bank} (h : x.granted y) {who : Reader} (hx : x.withdrew who) : y.withdrew who where
  deliveryRead r hr := hx.deliveryRead r (h.deliveryRead hr)
  laneRead r hr := hx.laneRead r (h.laneRead hr)
  copy r hr := hx.copy r (h.copy hr)
  op r wanted ho reads := by
    rcases h.reads r wanted ho with e | e | e | e
    · exact hx.op r wanted e reads
    · exact absurd reads (hx.deliveryRead r e)
    · exact absurd reads (hx.laneRead r e)
    · exact absurd reads (hx.copy r e)

theorem Bank.withdrawReads_withdrew (x : Bank) (who : Reader) :
    (x.withdrawReads (fun r => r.reader == who)).withdrew who where
  deliveryRead r hr := by simpa using (List.mem_filter.1 hr).2
  laneRead r hr := by simpa using (List.mem_filter.1 hr).2
  copy r hr := by simpa using (List.mem_filter.1 hr).2
  op r wanted ho reads := by
    unfold Bank.withdrawReads at ho
    dsimp only at ho
    split at ho
    · cases ho
      simp [reads]
    next o other =>
      exact (other r wanted ho).elim

/-! ## What an abandoned relocation leaves as it was -/

/-- From `s` to `t` page buffers have come free, been discarded or begun their program; no read has been asked for, and
block `g` has joined no erase queue. -/
structure State.unwinds (g : Nat) (s t : State) : Prop where
  runs : t.stc.runs = s.stc.runs
  buffers : ∀ i b, t.buf? i = some b → ∃ c, s.buf? i = some c ∧ b.owner = c.owner ∧ b.block = c.block
    ∧ (c.state = .programming → b.state = .programming) ∧ (c.discarded = true → b.discarded = true)
  unqueued : ∀ c, g ∉ (s.bank c).eraseQueue → g ∉ (t.bank c).eraseQueue
  clean : ∀ k, s.clean k → t.clean k
  withdrew : ∀ c who, (s.bank c).withdrew who → (t.bank c).withdrew who

section
variable {s t u : State} {g : Nat}

theorem State.unwinds.trans (h : State.unwinds g s t) (h' : State.unwinds g t u) : State.unwinds g s u where
  runs := h'.runs.trans h.runs
  buffers i b hb := by
    obtain ⟨c, hc, owner, block, programming, discarded⟩ := h'.buffers i b hb
    obtain ⟨d, hd, owner', block', programming', discarded'⟩ := h.buffers i c hc
    exact ⟨d, hd, owner.trans owner', block.trans block', fun e => programming (programming' e),
      fun e => discarded (discarded' e)⟩
  unqueued c hc := h'.unqueued c (h.unqueued c hc)
  clean k hk := h'.clean k (h.clean k hk)
  withdrew c who hc := h'.withdrew c who (h.withdrew c who hc)

theorem State.buffers_kept (h : t.stc.buffers = s.stc.buffers) (i : Nat) (b : Buf) (hb : t.buf? i = some b) :
    ∃ c, s.buf? i = some c ∧ b.owner = c.owner ∧ b.block = c.block
      ∧ (c.state = .programming → b.state = .programming) ∧ (c.discarded = true → b.discarded = true) :=
  ⟨b, (congrArg (fun x : Table Buf => x.at? i) h).symm.trans hb, rfl, rfl, id, id⟩

theorem State.startsPrograms.kept (h : s.startsPrograms t) (i : Nat) (b : Buf) (hb : t.buf? i = some b) :
    ∃ c, s.buf? i = some c ∧ b.owner = c.owner ∧ b.block = c.block
      ∧ (c.state = .programming → b.state = .programming) ∧ (c.discarded = true → b.discarded = true) := by
  rcases h.buffers i with e | ⟨d, hd, e⟩
  · exact ⟨b, e.symm.trans hb, rfl, rfl, id, id⟩
  · obtain rfl := Option.some.inj (e.symm.trans hb)
    exact ⟨d, hd, rfl, rfl, fun _ => rfl, id⟩

/-- A step that leaves the runs, the page buffers and the banks. -/
theorem State.unwinds_of_kept (hr : t.stc.runs = s.stc.runs) (hb : t.stc.buffers = s.stc.buffers)
    (hk : t.stc.banks = s.stc.banks) : State.unwinds g s t := by
  have bank : ∀ c, t.bank c = s.bank c := fun c => congrArg (fun x : Table Bank => x.atD c Bank.empty) hk
  exact ⟨hr, State.buffers_kept hb, fun c hc => by rwa [bank], fun k hk c hc => by rw [bank]; exact hk c hc,
    fun c who hc => by rwa [bank]⟩

theorem State.unwinds_refl (g : Nat) (s : State) : State.unwinds g s s := State.unwinds_of_kept rfl rfl rfl

/-! ### The arbiter and what joins a queue -/

theorem State.serves.unwinds {b : Nat} (h : s.serves t b)
    (hw : ∀ who, (s.bank b).withdrew who → (t.bank b).withdrew who) : State.unwinds g s t where
  runs := h.drops.runs
  buffers := h.starts.kept
  unqueued c hc := by
    by_cases e : c = b
    · subst e
      exact fun hm => hc (h.eraseQueue hm)
    · rwa [h.others c e]
  clean k hk := h.drops.clean k hk
  withdrew c who hc := by
    by_cases e : c = b
    · subst e
      exact hw who hc
    · rwa [h.others c e]

theorem State.arbitrate_unwinds (s : State) (b : Nat) : State.unwinds g s (s.arbitrate b) :=
  (s.arbitrate_serves b).unwinds fun _ => (s.arbitrate_granted b).withdrew

theorem State.afterJoin_granted (s : State) (b : Nat) : (s.bank b).granted ((s.afterJoin b).bank b) := by
  unfold State.afterJoin
  dsimp only
  split
  next d hd =>
    split
    · rw [State.bank_setBank_same]
      refine Bank.granted_of_erase rfl (fun _ => id) fun e he => ⟨_, rfl, ?_⟩
      obtain rfl := Option.some.inj (hd.symm.trans he)
      exact ⟨rfl, rfl⟩
    · exact s.arbitrate_granted b
  · exact s.arbitrate_granted b

/-- An APPEND that joins the copy class is no read. -/
theorem State.badBlock_unwinds (s : State) (k : Nat) : State.unwinds g s (s.badBlock k) := by
  have marks : State.unwinds g s (s.setBlockState k .bad) := State.unwinds_of_kept rfl rfl rfl
  refine marks.trans (State.serves.unwinds (State.joinCopy_serves (s.setBlockState k .bad) 0 (.append k)) fun who hw => ?_)
  refine (State.afterJoin_granted ((s.setBlockState k .bad).queueCopy 0 (.append k)) 0).withdrew ?_
  rw [State.queueCopy, State.bank_setBank_same]
  obtain ⟨delivery, lane, copy, op⟩ := hw
  exact ⟨delivery, lane, fun r hr => copy r ((List.mem_append.1 hr).resolve_right (by simp)), op⟩

theorem State.retiring_unwinds (s : State) {k : Nat} (h : g ≠ k) : State.unwinds g s (s.retiring k) where
  runs := rfl
  buffers := State.buffers_kept rfl
  unqueued c hc := by
    rw [State.retiring_queue]
    split
    · exact fun hm => (List.mem_append.1 hm).elim hc fun e => h (List.mem_singleton.1 e)
    · exact hc
  clean j hj := (s.retiring_drops k).clean j hj
  withdrew c who hc := by
    by_cases e : c = bankOf k
    · subst e
      rw [State.retiring, State.bank_setBank_same]
      obtain ⟨delivery, lane, copy, op⟩ := hc
      exact ⟨delivery, lane, copy, op⟩
    · rw [State.retiring, State.bank_setBank_ne _ _ e]
      exact hc

theorem State.retireBlock_unwinds (s : State) {k : Nat} (h : g ≠ k) : State.unwinds g s (s.retireBlock k) :=
  (s.retiring_unwinds h).trans (State.arbitrate_unwinds ..)

/-! ### Discards -/

theorem State.mapBanks_bank (s : State) {f : Bank → Bank} (h : f Bank.empty = Bank.empty) (c : Nat) :
    (s.mapBanks f).bank c = f (s.bank c) :=
  Table.atD_map s.stc.banks f Bank.empty c h

/-- A change of every bank that keeps the erase queues, and asks for no read. -/
theorem State.mapBanks_unwinds (s : State) {f : Bank → Bank} (h : f Bank.empty = Bank.empty)
    (hq : ∀ x, (f x).eraseQueue = x.eraseQueue) (hw : ∀ x who, x.withdrew who → (f x).withdrew who) :
    State.unwinds g s (s.mapBanks f) where
  runs := rfl
  buffers := State.buffers_kept rfl
  unqueued c hc := by rwa [State.mapBanks_bank s h, hq]
  clean k hk c hc := by
    rw [State.mapBanks_bank s h, hq]
    exact hk c hc
  withdrew c who hc := by
    rw [State.mapBanks_bank s h]
    exact hw _ _ hc

theorem State.withdrawReads_unwinds (s : State) (who : Reader) :
    State.unwinds g s (s.withdrawReads (· == who)) := by
  refine s.mapBanks_unwinds rfl (fun _ => rfl) fun x other h => ?_
  obtain ⟨delivery, lane, copy, op⟩ := h
  refine ⟨fun r hr => delivery r (List.mem_filter.1 hr).1, fun r hr => lane r (List.mem_filter.1 hr).1,
    fun r hr => copy r (List.mem_filter.1 hr).1, fun r wanted ho reads => ?_⟩
  unfold Bank.withdrawReads at ho
  dsimp only at ho
  split at ho
  next q was hq =>
    cases ho
    rw [op _ _ hq reads, Bool.false_and]
  · exact op r wanted ho reads

theorem State.freeBuf_unwinds (s : State) (i : Nat) : State.unwinds g s (s.freeBuf i) := by
  refine ⟨rfl, fun j d hj => ?_, fun _ => id, fun _ => id, fun _ _ => id⟩
  by_cases hji : j = i
  · subst hji
    exact absurd ((Table.at?_del_same ..).symm.trans hj) nofun
  · exact ⟨d, (Table.at?_del_ne _ hji).symm.trans hj, rfl, rfl, id, id⟩

theorem State.dropPrograms_unwinds (s : State) (p : ProgramReq → Bool) :
    State.unwinds g s (s.mapBanks (·.dropPrograms p)) := by
  refine s.mapBanks_unwinds rfl (fun _ => rfl) fun x who h => ?_
  obtain ⟨delivery, lane, copy, op⟩ := h
  exact ⟨delivery, lane, fun r hr => copy r (List.mem_filter.1 hr).1, op⟩

theorem State.discardBuf_unwinds (s : State) (i : Nat) : State.unwinds g s (s.discardBuf i) := by
  unfold State.discardBuf
  split
  · exact State.unwinds_refl g s
  next b hb =>
    split
    · refine ⟨rfl, fun j d hj => ?_, fun _ => id, fun _ => id, fun _ _ => id⟩
      by_cases hji : j = i
      · subst hji
        obtain rfl := Option.some.inj ((State.buf?_setBuf_same ..).symm.trans hj)
        exact ⟨b, hb, rfl, rfl, id, fun _ => rfl⟩
      · rw [State.buf?_setBuf_ne _ _ hji] at hj
        exact ⟨d, hj, rfl, rfl, id, id⟩
    · exact (s.dropPrograms_unwinds _).trans (State.freeBuf_unwinds ..)

theorem State.discardBufs_unwinds (l : List (Nat × Buf)) (s : State) :
    State.unwinds g s (l.foldl (fun t e => t.discardBuf e.1) s) := by
  induction l generalizing s with
  | nil => exact State.unwinds_refl g s
  | cons e l ih => exact (s.discardBuf_unwinds e.1).trans (ih _)

theorem State.discardWhere_unwinds (s : State) (p : Buf → Bool) : State.unwinds g s (s.discardWhere p) :=
  State.discardBufs_unwinds ..

/-- A buffer that met the test and is still in use is discarded, in its program (R126). -/
theorem State.discardWhere_discards {p : Buf → Bool}
    (hp : ∀ b c : Buf, b.owner = c.owner → b.block = c.block → p b = p c) {i : Nat} {b : Buf}
    (hb : (s.discardWhere p).buf? i = some b) (test : p b = true) : b.state = .programming ∧ b.discarded = true := by
  obtain ⟨c, hc, owner, block, -⟩ := (s.discardWhere_unwinds (g := 0) p).buffers i b hb
  refine State.discardBufs_self ⟨c, List.mem_filter.2 ⟨Table.mem_of_at? hc, ?_⟩⟩ hb
  rwa [← hp b c owner block]

/-- Every buffer that meets a test of its owner and block is discarded and in its program. -/
def State.allDiscarded (s : State) (p : Buf → Bool) : Prop :=
  ∀ i b, s.buf? i = some b → p b = true → b.state = .programming ∧ b.discarded = true

theorem State.unwinds.allDiscarded (h : State.unwinds g s t) {p : Buf → Bool}
    (hp : ∀ b c : Buf, b.owner = c.owner → b.block = c.block → p b = p c) (hs : s.allDiscarded p) : t.allDiscarded p := by
  intro i b hb test
  obtain ⟨c, hc, owner, block, programming, discarded⟩ := h.buffers i b hb
  obtain ⟨state, gone⟩ := hs i c hc ((hp b c owner block).symm.trans test)
  exact ⟨programming state, discarded gone⟩

end

/-! ## An abandoned relocation (R135) -/

section
variable {s : State} {g : Nat} {q : Relocation}

/-- The claim of a relocation is withdrawn, and it is no more. -/
def State.relocDropped (s : State) (q : Relocation) : State :=
  (s.withdrawClaim (.relocation q.owner q.failed)).dropReloc q.failed

/-- Then the reads of its copy are withdrawn, and its page buffers and those of the failed block discarded. -/
def State.copyDropped (s : State) (q : Relocation) : State :=
  (((s.relocDropped q).withdrawReads (· == .relocation q.owner)).discardWhere
    (fun b => b.owner == .relocation q.owner)).discardWhere (fun b => b.block == q.failed)

/-- Then its target is retired. -/
def State.targetRetired (s : State) (q : Relocation) : State :=
  match q.target with
  | none => s.copyDropped q
  | some t => (s.copyDropped q).retireBlock t

theorem State.abandonReloc_eq (active : q.active = true) : s.abandonReloc q = (s.targetRetired q).badBlock q.failed := by
  unfold State.abandonReloc
  simp only [active, if_true]
  rfl

theorem State.targetRetired_unwinds (s : State) (other : q.target ≠ some g) :
    State.unwinds g (s.copyDropped q) (s.targetRetired q) := by
  unfold State.targetRetired
  split
  · exact State.unwinds_refl ..
  next t ht => exact State.retireBlock_unwinds _ fun e => other (e ▸ ht)

theorem State.relocDropped_unwinds (s : State) (q : Relocation) : State.unwinds g s (s.relocDropped q) :=
  State.unwinds_of_kept rfl rfl rfl

theorem State.copyDropped_unwinds (s : State) (q : Relocation) : State.unwinds g s (s.copyDropped q) :=
  (((s.relocDropped_unwinds q).trans (State.withdrawReads_unwinds _ _)).trans (State.discardWhere_unwinds ..)).trans
    (State.discardWhere_unwinds ..)

theorem State.copyDropped_withdrew (s : State) (q : Relocation) (c : Nat) :
    ((s.copyDropped q).bank c).withdrew (.relocation q.owner) := by
  have withdrawn : (((s.relocDropped q).withdrawReads (· == .relocation q.owner)).bank c).withdrew
      (.relocation q.owner) := by
    rw [State.withdrawReads, State.mapBanks_bank _ rfl]
    exact Bank.withdrawReads_withdrew ..
  exact ((State.discardWhere_unwinds (g := 0) _ _).trans (State.discardWhere_unwinds ..)).withdrew c _ withdrawn

theorem State.copyDropped_discarded (s : State) (q : Relocation) :
    (s.copyDropped q).allDiscarded (fun b => b.owner == .relocation q.owner || b.block == q.failed) := by
  intro i b hb test
  rcases Bool.or_eq_true_iff.1 test with owner | block
  · have discarded : ((((s.relocDropped q).withdrawReads (· == .relocation q.owner)).discardWhere
        (fun b => b.owner == .relocation q.owner))).allDiscarded (fun b => b.owner == .relocation q.owner) :=
      fun i b hb => State.discardWhere_discards (fun b c ho _ => by rw [ho]) hb
    exact (State.discardWhere_unwinds (g := 0) _ _).allDiscarded (fun b c ho _ => by rw [ho]) discarded i b hb owner
  · exact State.discardWhere_discards (fun b c _ hb => by rw [hb]) hb block

theorem State.abandonReloc_unwinds (active : q.active = true) (other : q.target ≠ some g) :
    State.unwinds g s (s.abandonReloc q) := by
  rw [State.abandonReloc_eq active]
  exact ((s.copyDropped_unwinds q).trans (s.targetRetired_unwinds other)).trans (State.badBlock_unwinds ..)

theorem State.copyDropped_waits (s : State) (q : Relocation) : (s.copyDropped q).waits = (s.relocDropped q).waits := by
  rw [State.copyDropped, State.discardWhere_waits, State.discardWhere_waits]
  rfl

theorem State.targetRetired_waits (s : State) (q : Relocation) :
    (s.targetRetired q).waits = (s.copyDropped q).waits := by
  unfold State.targetRetired
  split
  · rfl
  · exact State.retireBlock_waits ..

/-- A relocation alone, of which alone claims wait, leaves nothing that waits. -/
theorem State.abandonReloc_waits (active : q.active = true) (hr : s.stc.relocations = [q])
    (hc : ∀ c ∈ s.stc.claims, c.who = .relocation q.owner q.failed) : (s.abandonReloc q).waits = ([], []) := by
  rw [State.abandonReloc_eq active, State.badBlock_waits, State.targetRetired_waits, State.copyDropped_waits]
  refine Prod.ext ?_ ?_
  · refine List.filter_eq_nil_iff.2 fun c hcl => ?_
    simp [hc c hcl]
  · show s.stc.relocations.filter (fun r => r.failed != q.failed) = []
    rw [hr]
    simp

theorem State.badBlock_gaveUp {k : Nat} (other : k ≠ g) (clean : s.clean k) (h : s.gaveUp k) :
    (s.badBlock g).gaveUp k := by
  have marks : (s.setBlockState g .bad).gaveUp k :=
    State.gaveUp_of (s := s) rfl (fun e he => ⟨e, he, rfl⟩)
      (congrArg BlockRec.state (State.block_setBlockState_ne s .bad other)) h
  exact (State.joinCopy_serves (s.setBlockState g .bad) 0 (.append g)).drops.gaveUp k clean marks

/-- The failed block is BAD, the target has been given up, the reads are withdrawn, the buffers discarded. -/
theorem State.abandonReloc_abandons (active : q.active = true) (hf : q.failed = g) (other : q.target ≠ some g)
    (unqueued : ∀ c, g ∉ (s.bank c).eraseQueue) :
    let t := s.abandonReloc q
    (t.block g).state = .bad ∧ (∀ k, q.target = some k → s.clean k → t.gaveUp k)
      ∧ t.allDiscarded (fun b => b.owner == .relocation q.owner || b.block == g)
      ∧ ∀ c, (t.bank c).withdrew (.relocation q.owner) := by
  subst hf
  dsimp only
  have retired := s.targetRetired_unwinds other
  have ends := retired.trans (State.badBlock_unwinds (s.targetRetired q) q.failed)
  rw [State.abandonReloc_eq active]
  refine ⟨?_, fun k hk clean => ?_, ends.allDiscarded (fun b c ho hb => by rw [ho, hb]) (s.copyDropped_discarded q),
    fun c => ends.withdrew c _ (s.copyDropped_withdrew q c)⟩
  · exact congrArg BlockRec.state (State.badBlock_state _ _
      (retired.unqueued 0 ((s.copyDropped_unwinds q).unqueued 0 (unqueued 0))))
  · have clean := (s.copyDropped_unwinds (g := q.failed) q).clean k clean
    refine State.badBlock_gaveUp (fun e => other (e ▸ hk)) (retired.clean k clean) ?_
    rw [State.targetRetired, hk]
    exact State.retireBlock_gaveUp clean

end

/-! ## The mark (R120) -/

section
variable {s : State} {slot g mark : Nat} {r : Role} {rest : List Nat} {x : Run} {q : Relocation}

/-- The head block that is being relocated is given up with its relocation. -/
theorem State.retireHead_relocating (hr : s.stc.relocations = [q]) (hf : q.failed = g) (active : q.active = true)
    (other : q.target ≠ some g) (hc : ∀ c ∈ s.stc.claims, c.who = .relocation q.owner g)
    (unqueued : ∀ c, g ∉ (s.bank c).eraseQueue) (slot : Nat) (r : Role) (x : Run) (rest : List Nat) :
    s.retireHead slot r x g rest
      = (((s.discardWhere (fun b => b.block == g)).abandonReloc q).setRun slot r (x.retired rest)) := by
  obtain ⟨u, hu⟩ : ∃ u, u = s.discardWhere (fun b => b.block == g) := ⟨_, rfl⟩
  have waits : u.waits = s.waits := by rw [hu]; exact State.discardWhere_waits ..
  have relocs : u.stc.relocations = [q] := (congrArg Prod.snd waits).trans hr
  have claims : u.stc.claims = s.stc.claims := congrArg Prod.fst waits
  have unwound : State.unwinds g s u := by rw [hu]; exact State.discardWhere_unwinds ..
  obtain ⟨bad, -⟩ := State.abandonReloc_abandons (s := u) active hf other fun c => unwound.unqueued c (unqueued c)
  have left : (u.abandonReloc q).waits = ([], []) :=
    State.abandonReloc_waits active relocs (by rw [claims, hf]; exact hc)
  have only : u.stc.relocations.filter (fun q => q.failed == g) = [q] := by
    rw [relocs]
    simp [hf]
  unfold State.retireHead
  dsimp only
  rw [← hu, only]
  show State.nextReloc (State.setRun (if ((u.abandonReloc q).block g).state = .bad then u.abandonReloc q
    else (u.abandonReloc q).retireBlock g) slot r (x.retired rest)) (.run slot r) = _
  rw [if_pos bad]
  exact State.nextReloc_none (s := (u.abandonReloc q).setRun slot r (x.retired rest)) (congrArg Prod.snd left) _

theorem Run.retired_headOffset (x : Run) (rest : List Nat) : (x.retired rest).headOffset = x.headOffset + 262144 := rfl

/-- The next block of the run ends beyond the mark. -/
theorem Run.retired_high (high : x.lowMark < x.headOffset + 524288) (rest : List Nat) :
    (x.retired rest).lowMark < (x.retired rest).headOffset + 262144 := by
  rw [Run.retired_headOffset, Nat.add_assoc]
  exact high

/-- The mark retires the head block alone, and abandons its relocation. -/
theorem exec_sourceLowMark_abandons (hx : s.run? slot r = some x) (hb : x.blocks = g :: rest)
    (hr : s.stc.relocations = [q]) (hf : q.failed = g) (active : q.active = true) (other : q.target ≠ some g)
    (hc : ∀ c ∈ s.stc.claims, c.who = .relocation q.owner g) (low : x.headOffset + 262144 ≤ max x.lowMark mark)
    (high : max x.lowMark mark < x.headOffset + 524288) (unqueued : ∀ b, g ∉ (s.bank b).eraseQueue) :
    ∃ t, exec (.sourceLowMark slot r mark) s = .next t ∧ t.stc.relocations = [] ∧ t.stc.claims = []
      ∧ t.run? slot r = some { x with
          lowMark := max x.lowMark mark, blocks := rest, headOffset := x.headOffset + 262144 }
      ∧ (t.block g).state = .bad
      ∧ (∀ target, q.target = some target → (∀ b, target ∉ (s.bank b).eraseQueue) → t.gaveUp target)
      ∧ (∀ i c, t.buf? i = some c → (c.owner = .relocation q.owner ∨ c.block = g) →
          c.state = .programming ∧ c.discarded = true)
      ∧ ∀ b k wanted, (t.bank b).op = some (.read k wanted) → k.reader = .relocation q.owner → wanted = false := by
  obtain ⟨y, hy⟩ : ∃ y : Run, y = { x with lowMark := max x.lowMark mark } := ⟨_, rfl⟩
  obtain ⟨m, hm⟩ : ∃ m, m = s.markRun slot r mark x := ⟨_, rfl⟩
  obtain ⟨u, hu⟩ : ∃ u, u = m.discardWhere (fun b => b.block == g) := ⟨_, rfl⟩
  obtain ⟨t, ht⟩ : ∃ t, t = (u.abandonReloc q).setRun slot r (y.retired rest) := ⟨_, rfl⟩
  have marked : m.run? slot r = some y := by rw [hm, hy]; exact State.run?_setRun_same ..
  have unwound : State.unwinds g m u := by rw [hu]; exact State.discardWhere_unwinds ..
  have waits : u.waits = s.waits := by rw [hu, State.discardWhere_waits, hm]; rfl
  have queues : ∀ c, g ∉ (m.bank c).eraseQueue := fun c => by rw [hm]; exact unqueued c
  have head : m.retireHead slot r y g rest = t := by
    rw [ht, hu]
    exact State.retireHead_relocating (by rw [hm]; exact hr) hf active other (by rw [hm]; exact hc) queues ..
  have run : t.run? slot r = some (y.retired rest) := by rw [ht]; exact State.run?_setRun_same ..
  have heads : m.retireHeads slot r (x.blocks.length + 1) = t := by
    rw [State.retireHeads_step marked (by rw [hy]; exact hb) (by rw [hy]; exact low), head]
    refine State.retireHeads_done run (.inr ?_) _
    exact Run.retired_high (by rw [hy]; exact high) rest
  have left : t.waits = ([], []) := by
    rw [ht]
    refine (State.abandonReloc_waits active ((congrArg Prod.snd waits).trans hr) ?_ : (u.abandonReloc q).waits = _)
    rw [show u.stc.claims = s.stc.claims from congrArg Prod.fst waits, hf]
    exact hc
  obtain ⟨bad, target, discarded, withdrew⟩ := State.abandonReloc_abandons (s := u) active hf other
    fun c => unwound.unqueued c (queues c)
  have relocs : t.stc.relocations = [] := congrArg Prod.snd left
  have served : t.serveClaims = t :=
    State.serveClaims_nil ⟨congrArg Prod.fst left, fun q hq => by rw [relocs] at hq; cases hq⟩
  refine ⟨t, ?_, relocs, congrArg Prod.fst left, ?_, ?_, fun k hk fresh => ?_, fun i c hi hp => ?_,
    fun b k wanted ho reads => ?_⟩
  · rw [exec_sourceLowMark hx, ← hm, heads, served]
  · rw [run, hy, Run.retired]
  · rw [ht]
    exact bad
  · rw [ht]
    exact (State.setRun_frees ..).gaveUp k (State.abandonReloc_unwinds active other |>.clean k
      (unwound.clean k (by rw [hm]; exact fun b _ => fresh b))) (target k hk
        (unwound.clean k (by rw [hm]; exact fun b _ => fresh b)))
  · rw [ht] at hi
    exact discarded i c hi (by simpa using hp)
  · rw [ht] at ho
    exact (withdrew b).op k wanted ho reads

end

end Sys2Proof.Machine
end

section
/-! PROOF. The copy of a relocation goes on (R134): what it leaves of the store, the PROGRAM of the failed page, and a
burst of reads with a page buffer for each page (O54). -/

namespace Sys2Proof.Machine

/-- A block is in no erase queue. -/
def State.unqueued (s : State) (g : Nat) : Prop := ∀ c, g ∉ (s.bank c).eraseQueue

/-- From `s` to `t` requests have joined the copy class and been granted, page buffers been given out, and pages joined
the lost ones of a block; the page buffers in use are the same, but for programs that started. -/
structure State.goesOn (s t : State) : Prop where
  buffers : ∀ i c, s.buf? i = some c → t.buf? i = some c ∨ t.buf? i = some { c with state := .programming }
  copiesIn : ∀ b p, (s.bank b).copiesIn p → (t.bank b).copiesIn p
  copiesOut : ∀ b r, (s.bank b).copiesOut r → (t.bank b).copiesOut r
  free : ∀ c, (t.bank c).free = (s.bank c).free
  eraseQueue : ∀ c, (t.bank c).eraseQueue ⊆ (s.bank c).eraseQueue
  state : ∀ g, s.unqueued g → (t.block g).state = (s.block g).state
  lost : ∀ g, (s.block g).lost ⊆ (t.block g).lost

section
variable {s t u : State}

theorem State.goesOn.unqueued (h : s.goesOn t) {g : Nat} (hg : s.unqueued g) : t.unqueued g :=
  fun c hm => hg c (h.eraseQueue c hm)

theorem State.goesOn.trans (h : s.goesOn t) (h' : t.goesOn u) : s.goesOn u where
  buffers i c hc := by
    rcases h.buffers i c hc with e | e
    · exact h'.buffers i c e
    · exact .inr ((h'.buffers i _ e).elim id id)
  copiesIn b p hp := h'.copiesIn b p (h.copiesIn b p hp)
  copiesOut b r hr := h'.copiesOut b r (h.copiesOut b r hr)
  free c := (h'.free c).trans (h.free c)
  eraseQueue c _ hg := h.eraseQueue c (h'.eraseQueue c hg)
  state g hg := (h'.state g (h.unqueued hg)).trans (h.state g hg)
  lost g _ hk := h'.lost g (h.lost g hk)

/-- A step that leaves the page buffers, the banks and the blocks. -/
theorem State.goesOn_of_kept (hb : t.stc.buffers = s.stc.buffers) (hk : t.stc.banks = s.stc.banks)
    (hg : t.stc.blocks = s.stc.blocks) : s.goesOn t := by
  have bank : ∀ c, t.bank c = s.bank c := fun c => congrArg (fun x : Table Bank => x.atD c Bank.empty) hk
  have block : ∀ g, t.block g = s.block g := State.block_of_blocks hg
  exact ⟨fun i c hc => .inl ((congrArg (fun x : Table Buf => x.at? i) hb).trans hc), fun b p hp => by rwa [bank],
    fun b r hr => by rwa [bank], fun c => by rw [bank], fun c => by rw [bank]; exact fun _ => id,
    fun g _ => by rw [block], fun g => by rw [block]; exact fun _ => id⟩

theorem State.goesOn_refl (s : State) : s.goesOn s := State.goesOn_of_kept rfl rfl rfl

theorem State.serves.goesOn {b : Nat} (h : s.serves t b) : s.goesOn t where
  buffers i c hc := by
    rcases h.starts.buffers i with e | ⟨d, hd, e⟩
    · exact .inl (e.trans hc)
    · obtain rfl := Option.some.inj (hd.symm.trans hc)
      exact .inr e
  copiesIn c p hp := by
    by_cases e : c = b
    · subst e
      exact h.copiesIn p hp
    · rwa [h.others c e]
  copiesOut c r hr := by
    by_cases e : c = b
    · subst e
      exact h.copiesOut r hr
    · rwa [h.others c e]
  free c := by
    by_cases e : c = b
    · subst e
      exact h.free
    · rw [h.others c e]
  eraseQueue c := by
    by_cases e : c = b
    · subst e
      exact h.eraseQueue
    · rw [h.others c e]
      exact fun _ => id
  state g hg := congrArg BlockRec.state (h.block g (hg b))
  lost g := by
    rw [h.lost g]
    exact fun _ => id

theorem State.joinCopy_goesOn (s : State) (b : Nat) (c : CopyReq) : s.goesOn (s.joinCopy b c) :=
  (s.joinCopy_serves b c).goesOn

theorem State.losePages_block (s : State) (g : Nat) (pages : List Nat) :
    (s.losePages g pages).block g = { s.block g with lost := (s.block g).lost ++ pages } := by
  unfold State.losePages State.setBlock State.block
  rw [Table.atD_put_same]

theorem State.losePages_block_ne (s : State) {g k : Nat} (pages : List Nat) (h : k ≠ g) :
    (s.losePages g pages).block k = s.block k := by
  unfold State.losePages State.setBlock State.block
  exact Table.atD_put_ne _ _ _ h

theorem State.losePages_goesOn (s : State) (g : Nat) (pages : List Nat) : s.goesOn (s.losePages g pages) := by
  refine ⟨fun i c hc => .inl hc, fun _ _ => id, fun _ _ => id, fun _ => rfl, fun _ _ => id, fun k _ => ?_, fun k => ?_⟩
  · by_cases h : k = g
    · rw [h, State.losePages_block]
    · rw [State.losePages_block_ne _ _ h]
  · by_cases h : k = g
    · rw [h, State.losePages_block]
      exact List.subset_append_left ..
    · rw [State.losePages_block_ne _ _ h]
      exact fun _ => id

theorem State.setReloc_goesOn (s : State) (x : Relocation) : s.goesOn (s.setReloc x) := State.goesOn_of_kept rfl rfl rfl

theorem State.addClaim_goesOn (s : State) (c : Claim) : s.goesOn (s.addClaim c) := State.goesOn_of_kept rfl rfl rfl

/-! ## Page buffers are given out (R124; log 7) -/

theorem Table.freeFrom_unused {α : Type} {t : Table α} {n start k : Nat} (h : t.freeFrom n start = some k) :
    t.at? k = none :=
  Option.isNone_iff_eq_none.1 (List.find?_some (p := fun k => (t.at? k).isNone) h)

theorem State.setBuf_goesOn {i : Nat} (unused : s.buf? i = none) (b : Buf) : s.goesOn (s.setBuf i b) := by
  refine ⟨fun j c hc => ?_, fun _ _ => id, fun _ _ => id, fun _ => rfl, fun _ _ => id, fun _ _ => rfl, fun _ _ => id⟩
  refine .inl ((State.buf?_setBuf_ne _ _ fun e => ?_).trans hc)
  rw [e, unused] at hc
  cases hc

theorem State.giveBuffer_goesOn (s : State) (o : BufOwner) (g page : Nat) : s.goesOn (s.giveBuffer o g page) := by
  unfold State.giveBuffer
  split
  · exact s.goesOn_refl
  next i hi => exact State.setBuf_goesOn (Table.freeFrom_unused hi) _

theorem State.giveBuffers_goesOn (l : List Nat) (o : BufOwner) (g : Nat) (s : State) :
    s.goesOn (l.foldl (fun (q : State) p => q.giveBuffer o g p) s) := by
  induction l generalizing s with
  | nil => exact s.goesOn_refl
  | cons p l ih => exact (s.giveBuffer_goesOn o g p).trans (ih _)

theorem State.giveBuffers_waits (l : List Nat) (o : BufOwner) (g : Nat) (s : State) :
    (l.foldl (fun (q : State) p => q.giveBuffer o g p) s).waits = s.waits :=
  foldl_keeps State.waits _ (fun q p => by unfold State.giveBuffer; split <;> rfl) _ _

/-- A page buffer of an owner, bound to a page of a block and not discarded. -/
def State.binds (s : State) (o : BufOwner) (g page : Nat) : Prop :=
  ∃ i c, s.buf? i = some c ∧ c.owner = o ∧ c.block = g ∧ c.page = page ∧ c.discarded = false

theorem State.goesOn.binds (h : s.goesOn t) {o : BufOwner} {g page : Nat} (hs : s.binds o g page) : t.binds o g page := by
  obtain ⟨i, c, hc, owner, block, onPage, kept⟩ := hs
  rcases h.buffers i c hc with e | e
  · exact ⟨i, c, e, owner, block, onPage, kept⟩
  · exact ⟨i, _, e, owner, block, onPage, kept⟩

/-- With room in the pool a buffer is given for the page, and one place fewer is free. -/
theorem State.giveBuffer_binds (room : s.stc.buffers.length < 160) (o : BufOwner) (g page : Nat) :
    (s.giveBuffer o g page).binds o g page ∧ (s.giveBuffer o g page).stc.buffers.length = s.stc.buffers.length + 1 := by
  obtain ⟨i, free, -, unused⟩ := Table.freeFrom_of_room room
  have gives : s.giveBuffer o g page = s.setBuf i ⟨.filling, o, g, page, [], 0, false, false⟩ := by
    unfold State.giveBuffer
    rw [show s.stc.buffers.freeFrom Config.buffers 0 = some i from free]
  rw [gives]
  exact ⟨⟨i, _, State.buf?_setBuf_same .., rfl, rfl, rfl, rfl⟩, Table.length_put_new _ _ unused⟩

theorem State.giveBuffers_binds (o : BufOwner) (g : Nat) (l : List Nat) (s : State)
    (room : s.stc.buffers.length + l.length ≤ 160) {k : Nat} (hk : k ∈ l) :
    (l.foldl (fun (q : State) p => q.giveBuffer o g p) s).binds o g k := by
  induction l generalizing s with
  | nil => cases hk
  | cons p l ih =>
    rw [List.length_cons] at room
    obtain ⟨binds, length⟩ := State.giveBuffer_binds (s := s) (by omega) o g p
    rcases List.mem_cons.1 hk with rfl | hk
    · exact (State.giveBuffers_goesOn l o g _).binds binds
    · exact ih _ (by rw [length]; omega) hk

/-! ## The copy (R134) -/

theorem State.copyOn_goesOn (s : State) (o : Owner) (most : Nat) : s.goesOn (s.copyOn o most) := by
  unfold State.copyOn
  split
  · exact s.goesOn_refl
  split
  · exact s.goesOn_refl
  split
  · exact s.goesOn_refl
  dsimp only
  have passes := fun g pages x => (s.losePages_goesOn g pages).trans (State.setReloc_goesOn (s.losePages g pages) x)
  split
  · split
    · exact passes ..
    · exact ((passes ..).trans (State.setReloc_goesOn ..)).trans (State.joinCopy_goesOn ..)
  split
  · exact (passes ..).trans (State.addClaim_goesOn ..)
  · exact (((passes ..).trans (State.giveBuffers_goesOn ..)).trans (State.setReloc_goesOn ..)).trans
      (State.joinCopy_goesOn ..)

theorem State.resumeCopies_goesOn (s : State) : s.goesOn s.resumeCopies := by
  have each : ∀ (l : List Relocation) (q : State),
      q.goesOn (l.foldl (fun q r => if q.canCopy r then q.copyOn r.owner 8 else q) q) := by
    intro l
    induction l with
    | nil => exact State.goesOn_refl
    | cons r l ih =>
      refine fun q => State.goesOn.trans ?_ (ih _)
      dsimp only
      split
      · exact State.copyOn_goesOn ..
      · exact q.goesOn_refl
  exact each _ s

/-- With no claim waiting the end of a step goes on with copies alone. -/
theorem State.serveClaims_goesOn (h : s.stc.claims = []) : s.goesOn s.serveClaims := by
  rw [State.serveClaims_noClaims h]
  exact s.resumeCopies_goesOn

/-! ## One relocation -/

section
variable {q : Relocation}

theorem State.activeReloc_only (hr : s.stc.relocations = [q]) (active : q.active = true) :
    s.activeReloc q.owner = some q := by
  rw [State.activeReloc, hr]
  simp [active]

theorem State.activeReloc_of_only (hr : s.stc.relocations = [q]) {o : Owner} {r : Relocation}
    (h : s.activeReloc o = some r) : r = q := by
  have found := List.mem_of_find?_eq_some h
  rw [hr] at found
  exact List.mem_singleton.1 found

theorem State.setReloc_only (hr : s.stc.relocations = [q]) {x : Relocation} (hf : q.failed = x.failed) :
    (s.setReloc x).stc.relocations = [x] := by
  show s.stc.relocations.map (fun r => if r.failed = x.failed then x else r) = [x]
  rw [hr, List.map_singleton, if_pos hf]

/-- The relocation as its copy has gone on: its owner, its block, its page and its target stand. -/
def Relocation.copied (q : Relocation) (next : Nat) (copying : List Nat) (final : Bool) : Relocation :=
  { q with next := next, copying := copying, final := final }

theorem State.joinCopy_relocations (s : State) (b : Nat) (c : CopyReq) :
    (s.joinCopy b c).stc.relocations = s.stc.relocations := (s.joinCopy_serves b c).drops.tofrees.relocations

/-- The relocation is the one there is, whatever of its copy has gone on. -/
def State.relocatesOnly (s : State) (q : Relocation) : Prop :=
  ∃ next copying final, s.stc.relocations = [q.copied next copying final]

theorem State.relocatesOnly_of (hr : s.stc.relocations = [q]) : s.relocatesOnly q := ⟨q.next, q.copying, q.final, hr⟩

theorem State.relocatesOnly.of_eq (h : s.relocatesOnly q) (ht : t.stc.relocations = s.stc.relocations) :
    t.relocatesOnly q := by
  obtain ⟨next, copying, final, h⟩ := h
  exact ⟨next, copying, final, ht.trans h⟩

theorem State.relocatesOnly.setReloc (h : s.relocatesOnly q) (next : Nat) (copying : List Nat) (final : Bool) :
    (s.setReloc (q.copied next copying final)).relocatesOnly q := by
  obtain ⟨n, c, f, h⟩ := h
  exact ⟨next, copying, final, State.setReloc_only h rfl⟩

theorem State.copyOn_relocatesOnly (hr : s.stc.relocations = [q]) (o : Owner) (most : Nat) :
    (s.copyOn o most).relocatesOnly q := by
  have only := State.relocatesOnly_of hr
  unfold State.copyOn
  split
  · exact only
  next r found =>
    obtain rfl := State.activeReloc_of_only hr found
    split
    · exact only
    split
    · exact only
    dsimp only
    have passes : ∀ g pages n, ((s.losePages g pages).setReloc (r.copied n r.copying r.final)).relocatesOnly r :=
      fun g pages n => State.relocatesOnly.setReloc (s := s.losePages g pages) only n r.copying r.final
    split
    · split
      · exact passes ..
      · exact ((passes ..).setReloc _ r.copying true).of_eq (State.joinCopy_relocations ..)
    split
    · exact passes ..
    · exact (((passes ..).of_eq (congrArg Prod.snd (State.giveBuffers_waits ..))).setReloc _ _ r.final).of_eq
        (State.joinCopy_relocations ..)

theorem State.canCopy_iff (hc : s.stc.claims = []) : s.canCopy q
    = (q.active && q.target.isSome && !q.final && q.copying.isEmpty) := by
  rw [State.canCopy, hc, List.any_nil, Bool.not_false, Bool.and_true]

theorem State.resumeCopies_only (hr : s.stc.relocations = [q]) :
    s.resumeCopies = if s.canCopy q then s.copyOn q.owner 8 else s := by
  rw [State.resumeCopies, hr]
  rfl

theorem State.serveClaims_relocatesOnly (hc : s.stc.claims = []) (hr : s.stc.relocations = [q]) :
    s.serveClaims.relocatesOnly q := by
  rw [State.serveClaims_noClaims hc, State.resumeCopies_only hr]
  split
  · exact State.copyOn_relocatesOnly hr _ _
  · exact State.relocatesOnly_of hr

variable (hc : s.stc.claims = []) (hr : s.stc.relocations = [q]) (active : q.active = true) {g : Nat}
  (target : q.target = some g) (notFinal : q.final = false) (idle : q.copying = [])
include hc hr active target notFinal idle

/-- With its target, and nothing of it under way, the copy goes on as the step ends. -/
theorem State.serveClaims_copies : s.serveClaims = s.copyOn q.owner 8 := by
  have can : s.canCopy q = true := by
    rw [State.canCopy_iff hc, active, target, notFinal, idle]
    rfl
  rw [State.serveClaims_noClaims hc, State.resumeCopies_only hr, if_pos can]

omit hc in
/-- Behind the last page to be read the failed page is programmed into the target. -/
theorem State.copyOn_programs (beyond : q.page ≤ q.next) {i : Nat} (held : s.failingBuffer q = some i) (most : Nat) :
    s.copyOn q.owner most = (((s.losePages g []).setReloc q).setReloc { q with final := true }).joinCopy (bankOf g)
      (.program ⟨i, g, q.page⟩) := by
  obtain ⟨owner, failed, page, _, _, next, _, _⟩ := q
  dsimp only at active target notFinal idle beyond
  subst active target notFinal idle
  have found := State.activeReloc_only hr rfl
  have nothing : (List.range' next (page - next)).takeWhile (s.block failed).lost.contains = [] := by
    rw [Nat.sub_eq_zero_of_le beyond]
    rfl
  dsimp only at found
  have buffer : ((s.losePages g []).setReloc ⟨owner, failed, page, true, some g, next, [], false⟩).failingBuffer
      ⟨owner, failed, page, true, some g, next, [], false⟩ = some i := held
  unfold State.copyOn
  simp only [found, nothing, List.length_nil, Nat.add_zero, if_pos beyond, buffer]
  rfl

omit hc in
/-- With pages to be read, none of them lost, and buffers enough, a burst of them is read. -/
theorem State.copyOn_reads (more : q.next < q.page) (whole : (s.block q.failed).lost = []) (room : 8 ≤ s.freeBuffers) :
    s.copyOn q.owner 8 = (((List.range' q.next (min 8 (q.page - q.next))).foldl
      (fun (u : State) p => u.giveBuffer (.relocation q.owner) g p) ((s.losePages g []).setReloc q)).setReloc
        (q.copied (q.next + min 8 (q.page - q.next)) (List.range' q.next (min 8 (q.page - q.next))) false)).joinCopy
          (bankOf q.failed)
          (.read ⟨.relocation q.owner, q.failed, List.range' q.next (min 8 (q.page - q.next)), 0, 262144⟩) := by
  obtain ⟨owner, failed, page, _, _, next, _, _⟩ := q
  dsimp only at active target notFinal idle more whole
  subst active target notFinal idle
  have found := State.activeReloc_only hr rfl
  dsimp only at found
  have skips : (List.range' next (page - next)).takeWhile (s.block failed).lost.contains = [] := by
    rw [whole]
    cases List.range' next (page - next) <;> rfl
  have wholes : (List.range' next (page - next)).takeWhile (fun p => !(s.block failed).lost.contains p)
      = List.range' next (page - next) := by
    rw [whole]
    exact List.takeWhile_eq_self_iff.2 fun _ _ => rfl
  have places : ((s.losePages g []).setReloc ⟨owner, failed, page, true, some g, next, [], false⟩).freeBuffers
      = s.freeBuffers := rfl
  have burst : (List.range' next (page - next)).take (min 8 s.freeBuffers) = List.range' next (min 8 (page - next)) := by
    rw [Nat.min_eq_left room]
    rcases Nat.le_total (page - next) 8 with few | many
    · rw [List.take_range'_of_length_le few, Nat.min_eq_right few]
    · rw [List.take_range'_of_length_ge many, Nat.min_eq_left many]
  have notEmpty : ¬ s.freeBuffers = 0 := by omega
  unfold State.copyOn
  simp only [found, skips, wholes, List.length_nil, Nat.add_zero, if_neg (Nat.not_le.2 more), places, if_neg notEmpty,
    burst, List.length_range', Relocation.copied]
  rfl

end

end

end Sys2Proof.Machine
end

section
/-! PROOF. What the copy of a relocation asks for as a step ends (R134), and the page buffers it finds (O54). -/

namespace Sys2Proof.Machine

/-! ## What page buffers are bound to -/

/-- The owner of a page buffer, its page, and whether it is discarded. -/
def Buf.bound (b : Buf) : BufOwner × Nat × Nat × Bool := (b.owner, b.block, b.page, b.discarded)

/-- The page buffers of `t` are bound as those of `s` are. -/
def State.bindsAs (s t : State) : Prop := ∀ j, (t.buf? j).map Buf.bound = (s.buf? j).map Buf.bound

section
variable {s t u : State}

theorem State.bindsAs.trans (h : s.bindsAs t) (h' : t.bindsAs u) : s.bindsAs u := fun j => (h' j).trans (h j)

theorem State.bindsAs_of_buffers (h : t.stc.buffers = s.stc.buffers) : s.bindsAs t := fun j =>
  congrArg (fun x : Table Buf => (x.at? j).map Buf.bound) h

theorem State.startsPrograms.bindsAs (h : s.startsPrograms t) : s.bindsAs t := fun j => by
  rcases h.buffers j with e | ⟨d, hd, e⟩
  · rw [e]
  · rw [e, hd]
    rfl

theorem State.setBuf_bindsAs {i : Nat} {b c : Buf} (h : s.buf? i = some c) (hb : b.bound = c.bound) :
    s.bindsAs (s.setBuf i b) := fun j => by
  by_cases hj : j = i
  · subst hj
    rw [State.buf?_setBuf_same, h]
    exact congrArg some hb
  · rw [State.buf?_setBuf_ne _ _ hj]

theorem State.bindsAs.length (h : s.bindsAs t) (hs : s.stc.buffers.sorted) (ht : t.stc.buffers.sorted) :
    t.stc.buffers.length = s.stc.buffers.length :=
  Table.length_eq_of_keys hs ht fun j => by
    have same := congrArg Option.isSome (h j)
    rwa [Option.isSome_map, Option.isSome_map] at same

theorem State.bindsAs.freeBuffers (h : s.bindsAs t) (hs : s.stc.buffers.sorted) (ht : t.stc.buffers.sorted) :
    t.freeBuffers = s.freeBuffers := by
  rw [State.freeBuffers, h.length hs ht, State.freeBuffers]

/-- A page buffer bound alone stays so where none is bound anew. -/
theorem State.solelyBound_of {i : Nat} {o : BufOwner} {g page : Nat} (h : s.solelyBound i o g page)
    (keeps : (t.buf? i).map Buf.bound = (s.buf? i).map Buf.bound)
    (back : ∀ j d, t.buf? j = some d → ∃ c, s.buf? j = some c ∧ d.bound = c.bound) : t.solelyBound i o g page := by
  obtain ⟨⟨c, hc, owner, block, onPage, kept⟩, only⟩ := h
  rw [hc, Option.map_some, Option.map_eq_some_iff] at keeps
  obtain ⟨d, hd, bound⟩ := keeps
  simp only [Buf.bound, Prod.mk.injEq] at bound
  obtain ⟨owner', block', onPage', kept'⟩ := bound
  refine ⟨⟨d, hd, owner'.trans owner, block'.trans block, onPage'.trans onPage, kept'.trans kept⟩,
    fun j e he eowner eblock epage => ?_⟩
  obtain ⟨c', hc', bound⟩ := back j e he
  simp only [Buf.bound, Prod.mk.injEq] at bound
  obtain ⟨owner', block', onPage', -⟩ := bound
  exact only j c' hc' (owner'.symm.trans eowner) (block'.symm.trans eblock) (onPage'.symm.trans epage)

theorem State.bindsAs.back (h : s.bindsAs t) (j : Nat) (d : Buf) (hd : t.buf? j = some d) :
    ∃ c, s.buf? j = some c ∧ d.bound = c.bound := by
  have same := h j
  rw [hd, Option.map_some] at same
  obtain ⟨c, hc, bound⟩ := Option.map_eq_some_iff.1 same.symm
  exact ⟨c, hc, bound.symm⟩

theorem State.bindsAs.solelyBound (h : s.bindsAs t) {i : Nat} {o : BufOwner} {g page : Nat}
    (hs : s.solelyBound i o g page) : t.solelyBound i o g page := State.solelyBound_of hs (h i) h.back

/-- The held buffer of the failed page is the one bound to it. -/
theorem State.failingBuffer_of_solelyBound (hs : s.stc.buffers.sorted) {i : Nat} {q : Relocation}
    (h : s.solelyBound i (.own q.owner) q.failed q.page) : s.failingBuffer q = some i := by
  obtain ⟨⟨c, hc, owner, block, onPage, -⟩, only⟩ := h
  refine (Table.find?_iff hs (fun b => b.owner == .own q.owner && b.block == q.failed && b.page == q.page) i).2
    ⟨⟨c, hc, by simp [owner, block, onPage]⟩, fun k d hk hd => ?_⟩
  by_contra found
  simp only [Bool.not_eq_false, Bool.and_eq_true, beq_iff_eq] at found
  exact Nat.ne_of_lt hk (only k d hd found.1.1 found.1.2 found.2)

end

/-! ## The copy as a step ends -/

section
variable {s : State} {q : Relocation} {g : Nat} (hc : s.stc.claims = []) (hr : s.stc.relocations = [q])
  (active : q.active = true) (target : q.target = some g) (notFinal : q.final = false) (idle : q.copying = [])
include hc hr active target notFinal idle

/-- Behind the last page the failed page is programmed into the target. -/
theorem State.serveClaims_programs (beyond : q.page ≤ q.next) {i : Nat} (held : s.failingBuffer q = some i) :
    s.serveClaims.stc.relocations = [{ q with final := true }]
      ∧ (s.serveClaims.bank (bankOf g)).copiesIn ⟨i, g, q.page⟩
      ∧ ∀ j, s.buf? j = none → s.serveClaims.buf? j = none := by
  obtain ⟨u, hu⟩ : ∃ u, u = ((s.losePages g []).setReloc q).setReloc { q with final := true } := ⟨_, rfl⟩
  have copies : s.serveClaims = u.joinCopy (bankOf g) (.program ⟨i, g, q.page⟩) := by
    rw [State.serveClaims_copies hc hr active target notFinal idle,
      State.copyOn_programs hr active target notFinal idle beyond held, hu]
  have relocs : u.stc.relocations = [{ q with final := true }] := by
    rw [hu]
    exact State.setReloc_only (State.setReloc_only (s := s.losePages g []) hr rfl) rfl
  rw [copies]
  refine ⟨(State.joinCopy_relocations ..).trans relocs, State.joinCopy_copiesIn .., fun j hj => ?_⟩
  have unused : u.buf? j = none := by rw [hu]; exact hj
  rcases (State.joinCopy_serves u (bankOf g) (.program ⟨i, g, q.page⟩)).starts.buffers j with e | ⟨d, hd, -⟩
  · exact e.trans unused
  · rw [unused] at hd
    cases hd

/-- Before it a burst of up to 8 pages is read, a page buffer for each. -/
theorem State.serveClaims_bursts (more : q.next < q.page) (whole : (s.block q.failed).lost = [])
    (room : 8 ≤ s.freeBuffers) :
    let d := q.copied (q.next + min 8 (q.page - q.next)) (List.range' q.next (min 8 (q.page - q.next))) false
    s.serveClaims.stc.relocations = [d]
      ∧ s.serveClaims.bursts d q.owner q.failed g q.next (min 8 (q.page - q.next)) := by
  intro d
  obtain ⟨pages, hpages⟩ : ∃ pages, pages = List.range' q.next (min 8 (q.page - q.next)) := ⟨_, rfl⟩
  obtain ⟨m, hm⟩ : ∃ m, m = (s.losePages g []).setReloc q := ⟨_, rfl⟩
  obtain ⟨u, hu⟩ : ∃ u, u = pages.foldl (fun (u : State) p => u.giveBuffer (.relocation q.owner) g p) m := ⟨_, rfl⟩
  have copies : s.serveClaims
      = (u.setReloc d).joinCopy (bankOf q.failed) (.read ⟨.relocation q.owner, q.failed, pages, 0, 262144⟩) := by
    rw [State.serveClaims_copies hc hr active target notFinal idle,
      State.copyOn_reads hr active target notFinal idle more whole room, hu, hm, hpages]
  have mreloc : m.stc.relocations = [q] := by
    rw [hm]
    exact State.setReloc_only (s := s.losePages g []) hr rfl
  have relocs : (u.setReloc d).stc.relocations = [d] := by
    refine State.setReloc_only (q := q) ?_ rfl
    rw [hu]
    exact (congrArg Prod.snd (State.giveBuffers_waits ..)).trans mreloc
  have places : m.stc.buffers.length + pages.length ≤ 160 := by
    have room : 8 ≤ 160 - s.stc.buffers.length := room
    have few : pages.length ≤ 8 := by
      rw [hpages, List.length_range']
      exact Nat.min_le_left ..
    have same : m.stc.buffers.length = s.stc.buffers.length := by rw [hm]; rfl
    omega
  have goes := (State.setReloc_goesOn u d).trans
    ((u.setReloc d).joinCopy_goesOn (bankOf q.failed) (.read ⟨.relocation q.owner, q.failed, pages, 0, 262144⟩))
  rw [copies]
  refine ⟨(State.joinCopy_relocations ..).trans relocs, rfl, rfl, rfl, fun k hk => ?_, ?_⟩
  · refine goes.binds ?_
    rw [hu]
    exact State.giveBuffers_binds _ _ _ _ places (by rw [hpages]; exact hk)
  · rw [← hpages]
    exact State.joinCopy_copiesOut ..

end

/-! ## A target is taken (R128, R133) -/

section
variable {s : State} {g : Nat} {r : Relocation}

/-- A relocation with a target, of whose copy nothing is under way. -/
def Relocation.aimed (r : Relocation) (g : Nat) : Relocation :=
  { r with target := some g, next := 0, copying := [], final := false }

theorem State.askTarget_some (h : s.freeHead ((bankOf r.failed + 1) % 4) = some g) : s.askTarget r = s.takeTarget r g := by
  unfold State.askTarget
  rw [h]

theorem State.takeTarget_eq (s : State) (r : Relocation) (g : Nat) :
    s.takeTarget r g = (s.takeBlock g).setReloc (r.aimed g) := rfl

theorem State.takeBlock_buffers (s : State) (g : Nat) : (s.takeBlock g).stc.buffers = s.stc.buffers := by
  rw [State.takeBlock_stc]
  rfl

theorem State.takeTarget_buffers (s : State) (r : Relocation) (g : Nat) :
    (s.takeTarget r g).stc.buffers = s.stc.buffers := s.takeBlock_buffers g

theorem State.takeBlock_eraseQueue (s : State) (g c : Nat) :
    ((s.takeBlock g).bank c).eraseQueue = (s.bank c).eraseQueue := by
  rw [State.takeBlock_eq, State.evalLevels_bank]
  exact State.bank_setBank_field Bank.eraseQueue s
    (x := { s.bank (bankOf g) with free := (s.bank (bankOf g)).free.tail }) rfl c

theorem State.takeTarget_unqueued {k : Nat} (h : s.unqueued k) (r : Relocation) (g : Nat) :
    (s.takeTarget r g).unqueued k := fun c => by
  rw [show ((s.takeTarget r g).bank c) = (s.takeBlock g).bank c from rfl, State.takeBlock_eraseQueue]
  exact h c

theorem State.takeTarget_free (s : State) (r : Relocation) (g : Nat) :
    ((s.takeTarget r g).bank (bankOf g)).free = (s.bank (bankOf g)).free.tail :=
  (s.takeBlock_free g (bankOf g)).trans (if_pos rfl)

theorem State.takeTarget_opened (s : State) (r : Relocation) (g : Nat) :
    ((s.takeTarget r g).block g).state = .opened := s.takeBlock_block_same g

theorem State.takeTarget_block_ne (s : State) (r : Relocation) {g k : Nat} (h : k ≠ g) :
    (s.takeTarget r g).block k = s.block k := s.takeBlock_block_ne h

theorem State.takeTarget_lost (s : State) (r : Relocation) (g k : Nat) :
    ((s.takeTarget r g).block k).lost = (s.block k).lost := by
  show ((s.takeBlock g).block k).lost = _
  rw [State.takeBlock_eq, State.block_of_blocks (State.evalLevels_blocks (s.blockTaken g))]
  exact State.setBlockState_lost ..

theorem State.takeTarget_claims (s : State) (r : Relocation) (g : Nat) :
    (s.takeTarget r g).stc.claims = s.stc.claims :=
  congrArg Prod.fst (State.evalLevels_waits (s.blockTaken g))

theorem State.takeTarget_relocations {q : Relocation} (hr : s.stc.relocations = [q]) (hf : q.failed = r.failed) :
    (s.takeTarget r g).stc.relocations = [r.aimed g] := by
  rw [State.takeTarget_eq]
  refine State.setReloc_only (q := q) ?_ hf
  exact (congrArg Prod.snd (State.evalLevels_waits (s.blockTaken g))).trans hr

end

end Sys2Proof.Machine
end

section
/-! PROOF. A PROGRAM of a run's or an extent's page fails (R133): its buffer is held, and its block is relocated, with
a target or a waiting claim for one (O54). -/

namespace Sys2Proof.Machine

/-! ## The page buffers that are held -/

section
variable {s : State} {g i page : Nat} {buf : Buf}

/-- The buffers that wait for a program of a failed block (R133). -/
def State.waitingFor (s : State) (g : Nat) : List (Nat × Buf) :=
  s.stc.buffers.filter (fun e => e.2.block == g && e.2.state == .pending && e.2.committed == e.2.data.length)

/-- They are held. -/
def State.holdWaiting (s : State) (g : Nat) : State :=
  (s.waitingFor g).foldl (fun t e => t.setBuf e.1 { e.2 with held := true }) s

/-- From `s` to `t` page buffers have been held. -/
structure State.holds (s t : State) : Prop where
  sorted : t.stc.buffers.sorted
  buffers : ∀ j, t.buf? j = s.buf? j ∨ ∃ c, s.buf? j = some c ∧ t.buf? j = some { c with held := true }
  same : t = { s with stc := { s.stc with buffers := t.stc.buffers } }

theorem State.holdWaiting_holds (hs : s.stc.buffers.sorted) (g : Nat) : s.holds (s.holdWaiting g) := by
  have each : ∀ (l : List (Nat × Buf)) (t : State), (∀ e ∈ l, s.buf? e.1 = some e.2) → s.holds t →
      s.holds (l.foldl (fun t e => t.setBuf e.1 { e.2 with held := true }) t) := by
    intro l
    induction l with
    | nil => exact fun _ _ h => h
    | cons e l ih =>
      intro t listed h
      refine ih _ (fun d hd => listed d (List.mem_cons_of_mem _ hd)) ⟨Table.sorted_put _ _ _ h.sorted, fun j => ?_, ?_⟩
      · by_cases hj : j = e.1
        · rw [hj]
          exact .inr ⟨e.2, listed e List.mem_cons_self, State.buf?_setBuf_same ..⟩
        · rw [State.buf?_setBuf_ne _ _ hj]
          exact h.buffers j
      · rw [h.same]
        rfl
  refine each _ s (fun e he => Table.at?_of_mem hs ?_) ⟨hs, fun _ => .inl rfl, rfl⟩
  exact (List.mem_filter.1 he).1

theorem State.holds.bindsAs {t : State} (h : s.holds t) : s.bindsAs t := fun j => by
  rcases h.buffers j with e | ⟨c, hc, e⟩
  · rw [e]
  · rw [e, hc]
    rfl

/-- The failed buffer is held with those that wait for a program of the block, which leave the queues. -/
def State.failureHeld (s : State) (g i : Nat) (buf : Buf) : State :=
  ((s.holdWaiting g).mapBanks (·.dropPrograms (fun p => p.block == g))).setBuf i
    { buf with state := .pending, held := true }

/-- What holding the buffers of a failed program does. -/
structure State.holdsFailure (s t : State) (i : Nat) (buf : Buf) : Prop where
  sorted : t.stc.buffers.sorted
  bound : s.bindsAs t
  buffer : t.buf? i = some { buf with state := .pending, held := true }
  free : ∀ c, (t.bank c).free = (s.bank c).free
  eraseQueue : ∀ c, (t.bank c).eraseQueue = (s.bank c).eraseQueue
  blocks : t.stc.blocks = s.stc.blocks
  claims : t.stc.claims = s.stc.claims

theorem State.failureHeld_waits (hs : s.stc.buffers.sorted) (g i : Nat) (buf : Buf) :
    (s.failureHeld g i buf).waits = s.waits := by
  show (s.holdWaiting g).waits = _
  rw [(State.holdWaiting_holds hs g).same]
  rfl

theorem State.failureHeld_holdsFailure (hs : s.stc.buffers.sorted) (hb : s.buf? i = some buf) (g : Nat) :
    s.holdsFailure (s.failureHeld g i buf) i buf := by
  have held := State.holdWaiting_holds hs g
  obtain ⟨u, hu⟩ : ∃ u, u = s.holdWaiting g := ⟨_, rfl⟩
  rw [← hu] at held
  have banks : ∀ c, u.bank c = s.bank c := fun c => by rw [held.same]; rfl
  have dropped : ∀ c, (s.failureHeld g i buf).bank c = (s.bank c).dropPrograms (fun p => p.block == g) := fun c => by
    rw [← banks c, hu]
    exact State.mapBanks_bank (s.holdWaiting g) (f := (·.dropPrograms (fun p => p.block == g))) rfl c
  have marked : ∃ c, u.buf? i = some c ∧ buf.bound = c.bound := by
    rcases held.buffers i with e | ⟨c, hc, e⟩
    · exact ⟨buf, e.trans hb, rfl⟩
    · obtain rfl := Option.some.inj (hc.symm.trans hb)
      exact ⟨_, e, rfl⟩
  obtain ⟨c, hc, same⟩ := marked
  refine ⟨Table.sorted_put _ _ _ (hu ▸ held.sorted), ?_, State.buf?_setBuf_same .., fun c => by rw [dropped]; rfl,
    fun c => by rw [dropped]; rfl, ?_, congrArg Prod.fst (State.failureHeld_waits hs g i buf)⟩
  · refine held.bindsAs.trans ?_
    have sets : u.bindsAs ((u.mapBanks (·.dropPrograms (fun p => p.block == g))).setBuf i
        { buf with state := .pending, held := true }) :=
      State.setBuf_bindsAs (s := u.mapBanks (·.dropPrograms (fun p => p.block == g))) hc same
    rw [hu] at sets
    rwa [hu]
  · show (s.holdWaiting g).stc.blocks = _
    rw [← hu, held.same]

/-- The relocation that a failed program starts. -/
def Relocation.fresh (o : Owner) (g page : Nat) : Relocation := ⟨o, g, page, true, none, 0, [], false⟩

/-- The block is being relocated. -/
def State.relocationBegun (s : State) (g i : Nat) (buf : Buf) (r : Relocation) : State :=
  { s.failureHeld g i buf with stc := { (s.failureHeld g i buf).stc with relocations := [r] } }

theorem State.startReloc_eq (hs : s.stc.buffers.sorted) (hb : s.buf? i = some buf) (hr : s.stc.relocations = [])
    (o : Owner) (g page : Nat) :
    s.startReloc o g page i = (s.relocationBegun g i buf (.fresh o g page)).askTarget (.fresh o g page) := by
  have held := State.holdWaiting_holds hs g
  have none : s.activeReloc o = none := by
    rw [State.activeReloc, hr]
    rfl
  have sets : ∀ c : Buf, c = buf ∨ c = { buf with held := true } →
      ({ c with state := .pending, held := true } : Buf) = { buf with state := .pending, held := true } := by
    rintro c (rfl | rfl) <;> rfl
  have found : ∃ c, ((s.holdWaiting g).mapBanks (·.dropPrograms (fun p => p.block == g))).buf? i = some c
      ∧ (c = buf ∨ c = { buf with held := true }) := by
    rcases held.buffers i with e | ⟨c, hc, e⟩
    · exact ⟨buf, e.trans hb, .inl rfl⟩
    · obtain rfl := Option.some.inj (hc.symm.trans hb)
      exact ⟨_, e, .inr rfl⟩
  obtain ⟨c, hc, same⟩ := found
  have relocs : (s.failureHeld g i buf).stc.relocations = [] :=
    (congrArg Prod.snd (State.failureHeld_waits hs g i buf)).trans hr
  have begun : ({ s.failureHeld g i buf with stc := { (s.failureHeld g i buf).stc with
      relocations := (s.failureHeld g i buf).stc.relocations ++ [.fresh o g page] } } : State)
      = s.relocationBegun g i buf (.fresh o g page) := by
    rw [relocs]
    rfl
  rw [← begun]
  unfold State.startReloc
  rw [none]
  dsimp only
  rw [show ((s.stc.buffers.filter (fun e => e.2.block == g && e.2.state == .pending
    && e.2.committed == e.2.data.length)).foldl (fun t e => t.setBuf e.1 { e.2 with held := true }) s)
      = s.holdWaiting g from rfl, hc]
  dsimp only
  rw [sets c same]
  rfl

end

/-! ## The failed program (R133) -/

section
variable {s : State} {b : Nat} {p : ProgramReq} {buf : Buf} {o : Owner}

/-- The PROGRAM has failed, and the relocation asks for a target. -/
theorem exec_programEnd_relocates (op : (s.bank b).op = some (.program p)) (hb : s.buf? p.buffer = some buf)
    (owner : buf.owner = .own o) (kept : buf.discarded = false) (hs : s.stc.buffers.sorted)
    (hr : s.stc.relocations = []) :
    exec (.programEnd b false) s
      = .next ((((s.opEnded b).relocationBegun p.block p.buffer buf (.fresh o p.block p.page)).askTarget
          (.fresh o p.block p.page)).arbitrate b).serveClaims := by
  have fails : (s.opEnded b).programFailed p buf = (s.opEnded b).startReloc o p.block p.page p.buffer := by
    unfold State.programFailed
    rw [State.relocOf_none (s := s.opEnded b) hr, owner, kept]
    rfl
  rw [exec_programEnd op, State.endProgram_bound hb]
  show Host.Outcome.next (((s.opEnded b).programFailed p buf).arbitrate b).serveClaims = _
  rw [fails, State.startReloc_eq (s := s.opEnded b) hs hb hr]

theorem State.opEnded_queue (s : State) (b c : Nat) : ((s.opEnded b).bank c).eraseQueue = (s.bank c).eraseQueue :=
  State.bank_setBank_field Bank.eraseQueue s (x := { s.bank b with op := none }) rfl c

theorem State.opEnded_free (s : State) (b c : Nat) : ((s.opEnded b).bank c).free = (s.bank c).free :=
  State.bank_setBank_field Bank.free s (x := { s.bank b with op := none }) rfl c

theorem State.freeHead_of_free {s t : State} (h : ∀ c, (t.bank c).free = (s.bank c).free) (start : Nat) :
    t.freeHead start = s.freeHead start := by
  unfold State.freeHead
  simp only [h]

/-- The state as the relocation begins, against the one before the program's end. -/
theorem State.relocationBegun_holds (hb : s.buf? p.buffer = some buf) (hs : s.stc.buffers.sorted) (b : Nat)
    (r : Relocation) : s.holdsFailure ((s.opEnded b).relocationBegun p.block p.buffer buf r) p.buffer buf := by
  obtain ⟨sorted, bound, buffer, free, queue, blocks, claims⟩ :=
    State.failureHeld_holdsFailure (s := s.opEnded b) hs hb p.block
  exact ⟨sorted, bound, buffer, fun c => (free c).trans (s.opEnded_free b c),
    fun c => (queue c).trans (s.opEnded_queue b c), blocks, claims⟩

end

/-! ## The relocation has its target -/

section
variable {s t u : State} {r q : Relocation} {g b : Nat}

/-- From `s` to `t` the relocation has taken block `g` as its target, and programs may have started. -/
structure State.aims (s t : State) (r : Relocation) (g : Nat) : Prop where
  claims : t.stc.claims = s.stc.claims
  relocations : t.stc.relocations = [r.aimed g]
  opened : (t.block g).state = .opened
  free : (t.bank (bankOf g)).free = (s.bank (bankOf g)).free.tail
  others : ∀ k, k ≠ g → s.unqueued k → t.block k = s.block k
  lost : ∀ k, (t.block k).lost = (s.block k).lost
  starts : s.startsPrograms t
  unqueued : ∀ k, s.unqueued k → t.unqueued k

theorem State.takeTarget_aims (hr : s.stc.relocations = [q]) (hf : q.failed = r.failed) (fresh : s.unqueued g)
    (b : Nat) : s.aims ((s.takeTarget r g).arbitrate b) r g := by
  have served := (s.takeTarget r g).arbitrate_serves b
  have queued : ∀ k, s.unqueued k → (s.takeTarget r g).unqueued k := fun k hk => State.takeTarget_unqueued hk r g
  exact {
    claims := served.drops.tofrees.claims.trans (s.takeTarget_claims r g)
    relocations := served.drops.tofrees.relocations.trans (State.takeTarget_relocations hr hf)
    opened := (served.goesOn.state g (queued g fresh)).trans (s.takeTarget_opened r g)
    free := (served.goesOn.free _).trans (s.takeTarget_free r g)
    others := fun k hk hq => (served.block k (queued k hq b)).trans (s.takeTarget_block_ne r hk)
    lost := fun k => (served.lost k).trans (s.takeTarget_lost r g k)
    starts := (State.startsPrograms_of_buffers (s.takeTarget_buffers r g)).trans served.starts
    unqueued := fun k hk => served.goesOn.unqueued (queued k hk) }

/-- A held buffer stays held, with its bytes, as programs start and the copy goes on. -/
theorem State.startsPrograms.held (h : s.startsPrograms t) (h' : t.goesOn u) {i : Nat} {c : Buf} (hc : s.buf? i = some c) :
    ∃ d, u.buf? i = some d ∧ d.held = c.held ∧ d.data = c.data := by
  have started : ∃ d, t.buf? i = some d ∧ d.held = c.held ∧ d.data = c.data := by
    rcases h.buffers i with e | ⟨d, hd, e⟩
    · exact ⟨c, e.trans hc, rfl, rfl⟩
    · obtain rfl := Option.some.inj (hd.symm.trans hc)
      exact ⟨_, e, rfl, rfl⟩
  obtain ⟨d, hd, held, data⟩ := started
  rcases h'.buffers i d hd with e | e
  · exact ⟨d, e, held, data⟩
  · exact ⟨_, e, held, data⟩

end

section
variable {s : State} {b g : Nat} {p : ProgramReq} {buf : Buf} {o : Owner} (op : (s.bank b).op = some (.program p))
  (hb : s.buf? p.buffer = some buf) (owner : buf.owner = .own o) (kept : buf.discarded = false)
  (hs : s.stc.buffers.sorted) (hc : s.stc.claims = []) (hr : s.stc.relocations = [])
include op hb owner kept hs hc hr

/-- With a block free it is the target at once, and the copy begins. -/
theorem exec_programEnd_targets (head : s.freeHead ((bankOf p.block + 1) % 4) = some g) (fresh : s.unqueued g) :
    ∃ t q c, exec (.programEnd b false) s = .next t ∧ t.stc.relocations = [q] ∧ q.owner = o ∧ q.failed = p.block
      ∧ q.page = p.page ∧ q.active = true ∧ q.target = some g ∧ (t.block g).state = .opened
      ∧ (t.bank (bankOf g)).free = (s.bank (bankOf g)).free.tail
      ∧ t.buf? p.buffer = some c ∧ c.held = true ∧ c.data = buf.data
      ∧ (s.solelyBound p.buffer (.own o) p.block p.page →
        (p.page = 0 → q.final = true ∧ q.copying = [] ∧ (t.bank (bankOf g)).copiesIn ⟨p.buffer, g, 0⟩)
        ∧ (0 < p.page → (s.block p.block).lost = [] → 8 ≤ s.freeBuffers →
          t.bursts q o p.block g 0 (min 8 p.page))) := by
  obtain ⟨r, hrel⟩ : ∃ r, r = Relocation.fresh o p.block p.page := ⟨_, rfl⟩
  obtain ⟨m, hm⟩ : ∃ m, m = (s.opEnded b).relocationBegun p.block p.buffer buf r := ⟨_, rfl⟩
  obtain ⟨x, hx⟩ : ∃ x, x = (m.takeTarget r g).arbitrate b := ⟨_, rfl⟩
  have holds : s.holdsFailure m p.buffer buf := by rw [hm]; exact State.relocationBegun_holds hb hs b r
  have head' : m.freeHead ((bankOf r.failed + 1) % 4) = some g := by
    rw [State.freeHead_of_free holds.free, hrel]
    exact head
  have run : exec (.programEnd b false) s = .next x.serveClaims := by
    rw [exec_programEnd_relocates op hb owner kept hs hr, ← hrel, ← hm, State.askTarget_some head', hx]
  have aims : m.aims x r g := by
    rw [hx]
    refine State.takeTarget_aims (q := r) (by rw [hm]; rfl) rfl (fun c => ?_) b
    rw [holds.eraseQueue]
    exact fresh c
  have claims : x.stc.claims = [] := aims.claims.trans (holds.claims.trans hc)
  have goes := State.serveClaims_goesOn claims
  obtain ⟨next, copying, final, relocs⟩ := State.serveClaims_relocatesOnly claims aims.relocations
  obtain ⟨c, hcb, held, data⟩ := aims.starts.held goes holds.buffer
  have queue : m.unqueued g := fun c => by rw [holds.eraseQueue]; exact fresh c
  refine ⟨_, _, c, run, relocs, by rw [hrel]; rfl, by rw [hrel]; rfl, by rw [hrel]; rfl, by rw [hrel]; rfl, rfl,
    (goes.state g (aims.unqueued g queue)).trans aims.opened, ?_, hcb, held, data, fun sole => ?_⟩
  · rw [goes.free, aims.free, holds.free]
  have bound : s.bindsAs x := holds.bound.trans aims.starts.bindsAs
  have sorted := aims.starts.sorted holds.sorted
  subst hrel
  refine ⟨fun first => ?_, fun later whole room => ?_⟩
  · have buffer : x.failingBuffer ((Relocation.fresh o p.block p.page).aimed g) = some p.buffer :=
      State.failingBuffer_of_solelyBound sorted (bound.solelyBound sole)
    obtain ⟨only, copies, -⟩ := State.serveClaims_programs claims aims.relocations rfl rfl rfl rfl
      (show p.page ≤ 0 by omega) buffer
    have same := List.singleton_inj.1 (relocs.symm.trans only)
    rw [same]
    refine ⟨rfl, rfl, ?_⟩
    rw [← first]
    exact copies
  · have lost : (x.block p.block).lost = [] := by
      rw [aims.lost, State.block_of_blocks holds.blocks]
      exact whole
    have places : 8 ≤ x.freeBuffers := by rwa [bound.freeBuffers hs sorted]
    obtain ⟨only, bursts⟩ := State.serveClaims_bursts claims aims.relocations rfl rfl rfl rfl later lost places
    have same := List.singleton_inj.1 (relocs.symm.trans only)
    rw [same]
    exact bursts

end

end Sys2Proof.Machine
end

section
/-! PROOF. A relocation that waits for its target, and one whose target fails and which starts again with another
(R129, R133, R135; O54). -/

namespace Sys2Proof.Machine

/-! ## Claims that none can grant (R129) -/

section
variable {s : State}

theorem mem_of_mem_claimOrder {c : Claim} {cs : List Claim} (h : c ∈ claimOrder cs) : c ∈ cs := by
  unfold claimOrder at h
  rcases List.mem_append.1 h with h | h
  · rcases List.mem_append.1 h with h | h
    · exact (List.mem_filter.1 h).1
    · obtain ⟨n, -, h⟩ := List.mem_flatMap.1 h
      exact (List.mem_filter.1 h).1
  · exact (List.mem_filter.1 h).1

/-- With no claim that can be granted, and no copy that can go on, nothing is served. -/
theorem State.serveClaims_stuck (h : ∀ c ∈ s.stc.claims, s.grantable c = false)
    (hn : ∀ q ∈ s.stc.relocations, s.canCopy q = false) : s.serveClaims = s := by
  have none : (claimOrder s.stc.claims).find? s.grantable = none :=
    List.find?_eq_none.2 fun c hc => by
      rw [h c (mem_of_mem_claimOrder hc)]
      exact Bool.false_ne_true
  have loop : ∀ n, State.serveLoop n s = s := fun n => by
    cases n with
    | zero => rfl
    | succ n => rw [State.serveLoop, none]
  have ends : s.endOverruns s.stc.claims = s := by
    have same : s.stc.claims.filter (fun c => !s.stc.claims.contains c) = [] :=
      List.filter_eq_nil_iff.2 fun c hc => by simp [hc]
    rw [State.endOverruns, same]
    rfl
  rw [State.serveClaims, loop, ends]
  exact State.resumeCopies_none hn

theorem State.freeBlocks_of_noHead {start : Nat} (h : s.freeHead start = none) : s.freeBlocks = 0 := by
  by_contra some
  obtain ⟨g, hg⟩ := State.freeHead_some (Nat.pos_of_ne_zero some) start
  rw [h] at hg
  cases hg

theorem State.askTarget_none {r : Relocation} (h : s.freeHead ((bankOf r.failed + 1) % 4) = none) :
    s.askTarget r = s.addClaim ⟨.relocation r.owner r.failed, .block⟩ := by
  unfold State.askTarget
  rw [h]

end

section
variable {s : State} {b : Nat} {p : ProgramReq} {buf : Buf} {o : Owner} (op : (s.bank b).op = some (.program p))
  (hb : s.buf? p.buffer = some buf) (owner : buf.owner = .own o) (kept : buf.discarded = false)
  (hs : s.stc.buffers.sorted) (hc : s.stc.claims = []) (hr : s.stc.relocations = [])
include op hb owner kept hs hc hr

/-- With no block free the relocation waits for one. -/
theorem exec_programEnd_claims (head : s.freeHead ((bankOf p.block + 1) % 4) = none) :
    ∃ t c, exec (.programEnd b false) s = .next t ∧ t.stc.relocations = [.fresh o p.block p.page]
      ∧ t.stc.claims = [⟨.relocation o p.block, .block⟩]
      ∧ t.buf? p.buffer = some c ∧ c.held = true ∧ c.data = buf.data := by
  obtain ⟨r, hrel⟩ : ∃ r, r = Relocation.fresh o p.block p.page := ⟨_, rfl⟩
  obtain ⟨m, hm⟩ : ∃ m, m = (s.opEnded b).relocationBegun p.block p.buffer buf r := ⟨_, rfl⟩
  obtain ⟨w, hw⟩ : ∃ w, w = m.addClaim ⟨.relocation o p.block, .block⟩ := ⟨_, rfl⟩
  have holds : s.holdsFailure m p.buffer buf := by rw [hm]; exact State.relocationBegun_holds hb hs b r
  have free : ∀ c, (m.bank c).free = (s.bank c).free := holds.free
  have served := w.arbitrate_serves b
  have claims : (w.arbitrate b).stc.claims = [⟨.relocation o p.block, .block⟩] := by
    rw [served.drops.tofrees.claims, hw]
    show m.stc.claims ++ [_] = _
    rw [holds.claims, hc]
    rfl
  have relocs : (w.arbitrate b).stc.relocations = [r] := by
    rw [served.drops.tofrees.relocations, hw, hm]
    rfl
  have noBlock : (w.arbitrate b).freeBlocks = 0 := by
    have frees : ∀ c, ((w.arbitrate b).bank c).free = (s.bank c).free :=
      fun c => (served.goesOn.free c).trans (by rw [hw]; exact free c)
    rw [State.freeBlocks_of_free frees]
    exact State.freeBlocks_of_noHead head
  have stuck : (w.arbitrate b).serveClaims = w.arbitrate b := by
    refine State.serveClaims_stuck (fun c hcl => ?_) fun q hq => ?_
    · rw [claims, List.mem_singleton] at hcl
      rw [hcl]
      refine decide_eq_false ?_
      rw [noBlock]
      exact Nat.lt_irrefl 0
    · rw [relocs, List.mem_singleton] at hq
      rw [hq, hrel]
      rfl
  have asks : m.askTarget r = w := by
    rw [hw, State.askTarget_none (by rw [State.freeHead_of_free free, hrel]; exact head), hrel]
    rfl
  have wbuf : w.buf? p.buffer = some { buf with state := .pending, held := true } := by
    rw [hw]
    exact holds.buffer
  obtain ⟨c, hcb, held, data⟩ := served.starts.held (State.goesOn_refl _) wbuf
  refine ⟨w.arbitrate b, c, ?_, by rw [relocs, hrel], claims, hcb, held, data⟩
  rw [exec_programEnd_relocates op hb owner kept hs hr, ← hrel, ← hm, asks, stuck]

end

/-! ## What a discard leaves (R126) -/

section
variable {s : State}

theorem State.discardBuf_ne (s : State) {i j : Nat} (h : i ≠ j) : (s.discardBuf j).buf? i = s.buf? i := by
  unfold State.discardBuf
  split
  · rfl
  split
  · exact State.buf?_setBuf_ne _ _ h
  · exact Table.at?_del_ne _ h

/-- A buffer that does not meet the test is not discarded. -/
theorem State.discardWhere_keeps (hs : s.stc.buffers.sorted) {i : Nat} {c : Buf} (hc : s.buf? i = some c)
    {p : Buf → Bool} (test : p c = false) : (s.discardWhere p).buf? i = some c := by
  have others : ∀ (l : List (Nat × Buf)) (t : State), (∀ e ∈ l, i ≠ e.1) →
      (l.foldl (fun t e => t.discardBuf e.1) t).buf? i = t.buf? i := by
    intro l
    induction l with
    | nil => exact fun _ _ => rfl
    | cons e l ih =>
      exact fun t h => (ih _ fun d hd => h d (List.mem_cons_of_mem _ hd)).trans
        (State.discardBuf_ne t (h e List.mem_cons_self))
  refine (others _ s fun e he same => ?_).trans hc
  obtain ⟨listed, meets⟩ := List.mem_filter.1 he
  obtain rfl := Option.some.inj ((Table.at?_of_mem hs listed).symm.trans (same ▸ hc))
  rw [test] at meets
  cases meets

/-- What of a bank a discard leaves, where it drops programs alone. -/
theorem State.discardBuf_bank_field {α : Type} (f : Bank → α) (hf : ∀ x p, f (Bank.dropPrograms x p) = f x) (s : State)
    (i c : Nat) : f ((s.discardBuf i).bank c) = f (s.bank c) := by
  unfold State.discardBuf
  split
  · rfl
  split
  · rfl
  · show f ((s.mapBanks (·.dropPrograms (fun p => p.buffer == i))).bank c) = _
    rw [State.mapBanks_bank s (f := (·.dropPrograms (fun p => p.buffer == i))) rfl, hf]

theorem State.discardWhere_bank_field {α : Type} (f : Bank → α) (hf : ∀ x p, f (Bank.dropPrograms x p) = f x)
    (s : State) (p : Buf → Bool) (c : Nat) : f ((s.discardWhere p).bank c) = f (s.bank c) :=
  foldl_keeps (fun t : State => f (t.bank c)) (fun t (e : Nat × Buf) => t.discardBuf e.1)
    (fun t e => t.discardBuf_bank_field f hf e.1 c) _ _

theorem State.badBlock_starts (s : State) (g : Nat) : s.startsPrograms (s.badBlock g) :=
  (State.startsPrograms_of_buffers rfl : s.startsPrograms (s.setBlockState g .bad)).trans
    (State.joinCopy_serves (s.setBlockState g .bad) 0 (.append g)).starts

theorem State.badBlock_free (s : State) (g c : Nat) : ((s.badBlock g).bank c).free = (s.bank c).free :=
  (State.joinCopy_serves (s.setBlockState g .bad) 0 (.append g)).goesOn.free c

theorem State.badBlock_unqueued {k : Nat} (h : s.unqueued k) (g : Nat) : (s.badBlock g).unqueued k :=
  fun c hm => h c (s.badBlock_queue g c hm)

end

/-! ## The target fails (R135) -/

section
variable {s : State} {b g : Nat} {p : ProgramReq} {buf : Buf} {o : Owner} {q : Relocation}

/-- A relocation that starts again. -/
def Relocation.again (q : Relocation) : Relocation := { q with target := none, next := 0, copying := [], final := false }

/-- The failed target is BAD, the copy's buffers are discarded, and the failed page's buffer is held. -/
def State.targetFailed (s : State) (q : Relocation) (t i : Nat) (buf : Buf) : State :=
  ((((s.discardWhere (fun b => b.owner == .relocation q.owner)).setBuf i
    { buf with state := .pending, held := true }).badBlock t).setReloc q.again)

theorem State.relocOf_target (hr : s.stc.relocations = [q]) (active : q.active = true) (final : q.final = true)
    (target : q.target = some p.block) (owner : buf.owner = .own q.owner) : s.relocOf p buf = some q := by
  unfold State.relocOf
  rw [owner]
  dsimp only
  rw [State.activeReloc_only hr active, Option.filter_some, final, target]
  simp

/-- The program into the target has failed, and another target is asked for. -/
theorem exec_programEnd_retries (op : (s.bank b).op = some (.program p)) (hb : s.buf? p.buffer = some buf)
    (owner : buf.owner = .own q.owner) (kept : buf.discarded = false) (hs : s.stc.buffers.sorted)
    (hr : s.stc.relocations = [q]) (active : q.active = true) (final : q.final = true)
    (target : q.target = some p.block) :
    exec (.programEnd b false) s
      = .next ((((s.opEnded b).targetFailed q p.block p.buffer buf).askTarget q.again).arbitrate b).serveClaims := by
  have keeps : ((s.opEnded b).discardWhere (fun b => b.owner == .relocation q.owner)).buf? p.buffer = some buf :=
    State.discardWhere_keeps (s := s.opEnded b) hs hb (by rw [owner]; rfl)
  have fails : (s.opEnded b).programFailed p buf
      = ((s.opEnded b).targetFailed q p.block p.buffer buf).askTarget q.again := by
    unfold State.programFailed
    rw [State.relocOf_target (s := s.opEnded b) hr active final target owner, owner, kept]
    simp only [Bool.false_eq_true, if_false]
    unfold State.retryReloc
    dsimp only
    rw [keeps]
    rfl
  rw [exec_programEnd op, State.endProgram_bound hb]
  show Host.Outcome.next (((s.opEnded b).programFailed p buf).arbitrate b).serveClaims = _
  rw [fails]

theorem exec_programEnd_startsAgain (op : (s.bank b).op = some (.program p)) (hb : s.buf? p.buffer = some buf)
    (owner : buf.owner = .own q.owner) (kept : buf.discarded = false) (hs : s.stc.buffers.sorted)
    (hc : s.stc.claims = []) (hr : s.stc.relocations = [q]) (active : q.active = true) (final : q.final = true)
    (target : q.target = some p.block) (head : s.freeHead ((bankOf q.failed + 1) % 4) = some g) (other : g ≠ p.block)
    (fresh : s.unqueued g) (unqueued : s.unqueued p.block) :
    ∃ t d c, exec (.programEnd b false) s = .next t ∧ t.stc.relocations = [d] ∧ d.owner = q.owner
      ∧ d.failed = q.failed ∧ d.page = q.page ∧ d.active = true ∧ d.target = some g ∧ (t.block p.block).state = .bad
      ∧ (t.block g).state = .opened ∧ t.buf? p.buffer = some c ∧ c.held = true ∧ c.data = buf.data := by
  obtain ⟨u, hu⟩ : ∃ u, u = ((s.opEnded b).discardWhere (fun b => b.owner == .relocation q.owner)).setBuf p.buffer
      { buf with state := .pending, held := true } := ⟨_, rfl⟩
  obtain ⟨m, hm⟩ : ∃ m, m = (u.badBlock p.block).setReloc q.again := ⟨_, rfl⟩
  obtain ⟨x, hx⟩ : ∃ x, x = (m.takeTarget q.again g).arbitrate b := ⟨_, rfl⟩
  have failed : (s.opEnded b).targetFailed q p.block p.buffer buf = m := by rw [hm, hu]; rfl
  have queue : ∀ c, (u.bank c).eraseQueue = (s.bank c).eraseQueue := fun c => by
    rw [hu]
    exact (State.discardWhere_bank_field Bank.eraseQueue (fun _ _ => rfl) (s.opEnded b) _ c).trans (s.opEnded_queue b c)
  have free : ∀ c, (m.bank c).free = (s.bank c).free := fun c => by
    rw [hm]
    refine (u.badBlock_free p.block c).trans ?_
    rw [hu]
    exact (State.discardWhere_bank_field Bank.free (fun _ _ => rfl) (s.opEnded b) _ c).trans (s.opEnded_free b c)
  have waits : (u.badBlock p.block).waits = s.waits := by
    rw [State.badBlock_waits, hu]
    exact (State.discardWhere_waits (s.opEnded b) _).trans rfl
  have relocs : m.stc.relocations = [q.again] := by
    rw [hm]
    exact State.setReloc_only ((congrArg Prod.snd waits).trans hr) rfl
  have stays : ∀ k, s.unqueued k → m.unqueued k := fun k hk => by
    rw [hm]
    exact State.badBlock_unqueued (fun c => by rw [queue]; exact hk c) _
  have aims : m.aims x q.again g := by
    rw [hx]
    exact State.takeTarget_aims relocs rfl (stays g fresh) b
  have claims : x.stc.claims = [] := by
    rw [aims.claims, hm]
    exact (congrArg Prod.fst waits).trans hc
  have goes := State.serveClaims_goesOn claims
  obtain ⟨next, copying, fin, only⟩ := State.serveClaims_relocatesOnly claims aims.relocations
  have bad : (m.block p.block).state = .bad := by
    rw [hm]
    exact congrArg BlockRec.state (State.badBlock_state _ _ (by rw [queue]; exact unqueued 0))
  have starts : u.startsPrograms x := by
    have first : u.startsPrograms m := by
      rw [hm]
      exact (u.badBlock_starts p.block).trans (State.startsPrograms_of_buffers rfl)
    exact first.trans aims.starts
  obtain ⟨c, hcb, held, data⟩ := starts.held goes (i := p.buffer) (by rw [hu]; exact State.buf?_setBuf_same ..)
  refine ⟨_, _, c, ?_, only, rfl, rfl, rfl, active, rfl, ?_, (goes.state g (aims.unqueued g (stays g fresh))).trans aims.opened,
    hcb, held, data⟩
  · rw [exec_programEnd_retries op hb owner kept hs hr active final target, failed,
      State.askTarget_some (r := q.again) ((State.freeHead_of_free free _).trans head), hx]
  · rw [goes.state _ (aims.unqueued _ (stays _ unqueued)), aims.others _ other.symm (stays _ unqueued)]
    exact bad

end

end Sys2Proof.Machine
end

section
/-! PROOF. The relocation switches to its target (R134): the held buffers and the reads of the failed block pass to the
target, which stands in the run for it (O54). -/

namespace Sys2Proof.Machine

/-! ## What passes to the target -/

/-- From `s` to `t` requests have joined queues and been granted; no page buffer has the number `i`. -/
structure State.requests (i : Nat) (s t : State) : Prop where
  waits : t.waits = s.waits
  runs : t.stc.runs = s.stc.runs
  extents : t.stc.extents = s.stc.extents
  unused : s.buf? i = none → t.buf? i = none
  eraseQueue : ∀ c, (t.bank c).eraseQueue ⊆ (s.bank c).eraseQueue
  block : ∀ k, s.unqueued k → t.block k = s.block k

section
variable {s t u : State} {i : Nat}

theorem State.requests.unqueued (h : State.requests i s t) {k : Nat} (hk : s.unqueued k) : t.unqueued k :=
  fun c hm => hk c (h.eraseQueue c hm)

theorem State.requests.trans (h : State.requests i s t) (h' : State.requests i t u) : State.requests i s u where
  waits := h'.waits.trans h.waits
  runs := h'.runs.trans h.runs
  extents := h'.extents.trans h.extents
  unused hi := h'.unused (h.unused hi)
  eraseQueue c _ hk := h.eraseQueue c (h'.eraseQueue c hk)
  block k hk := (h'.block k (h.unqueued hk)).trans (h.block k hk)

theorem State.requests_refl (i : Nat) (s : State) : State.requests i s s :=
  ⟨rfl, rfl, rfl, id, fun _ _ => id, fun _ _ => rfl⟩

theorem State.startsPrograms.unused (h : s.startsPrograms t) (hi : s.buf? i = none) : t.buf? i = none := by
  rcases h.buffers i with e | ⟨d, hd, -⟩
  · exact e.trans hi
  · rw [hi] at hd
    cases hd

theorem State.serves.requests {b : Nat} (h : s.serves t b) : State.requests i s t where
  waits := h.drops.waits
  runs := h.drops.runs
  extents := h.drops.extents
  unused := h.starts.unused
  eraseQueue := h.goesOn.eraseQueue
  block k hk := h.block k (hk b)

theorem State.setBuf_requests (s : State) {j : Nat} (h : i ≠ j) (c : Buf) : State.requests i s (s.setBuf j c) :=
  ⟨rfl, rfl, rfl, (State.buf?_setBuf_ne s c h).trans, fun _ _ => id, fun _ _ => rfl⟩

/-- A change of the request queues of a bank alone. -/
theorem State.setBank_requests {b : Nat} {x : Bank} (h : x.eraseQueue = (s.bank b).eraseQueue) :
    State.requests i s (s.setBank b x) :=
  ⟨rfl, rfl, rfl, id, fun c => by rw [State.bank_setBank_field Bank.eraseQueue s h c]; exact fun _ => id, fun _ _ => rfl⟩

theorem State.join_requests {b : Nat} {x : Bank} (h : x.eraseQueue = (s.bank b).eraseQueue) :
    State.requests i s ((s.setBank b x).afterJoin b) :=
  (State.setBank_requests h).trans ((s.setBank b x).afterJoin_serves b).requests

theorem requests_foldl {α : Type} {f : State → α → State} (l : List α)
    (h : ∀ q : State, ∀ a ∈ l, q.stc.relocations = [] → State.requests i q (f q a)) (s : State)
    (hr : s.stc.relocations = []) : State.requests i s (l.foldl f s) := by
  induction l generalizing s with
  | nil => exact State.requests_refl i s
  | cons a l ih =>
    have first := h s a List.mem_cons_self hr
    exact first.trans (ih (fun q c hc => h q c (List.mem_cons_of_mem _ hc)) _ ((congrArg Prod.snd first.waits).trans hr))

/-- With no relocation a buffer is offered under its owner's class. -/
theorem State.offer_requests (hr : s.stc.relocations = []) (j : Nat) : State.requests i s (s.offer j) := by
  unfold State.offer
  split
  · exact State.requests_refl i s
  have still : ∀ g, s.relocating g = false := fun g => by
    rw [State.relocating, hr]
    rfl
  rw [still, if_neg Bool.false_ne_true]
  dsimp only
  split
  · exact State.join_requests rfl
  · exact State.join_requests rfl
  · exact (State.joinCopy_serves ..).requests

theorem State.moveReads_requests (hr : s.stc.relocations = []) (failed target : Nat) :
    State.requests i s (s.moveReads failed target) := by
  have joins : ∀ (w : State) (l m : List ReadReq), State.requests i s w → w.stc.relocations = [] →
      State.requests i s (m.foldl State.joinLaneRead (l.foldl State.joinDeliveryRead w)) := fun w l m h hw =>
    have delivery := requests_foldl (i := i) l (fun q a _ _ => (q.joinDeliveryRead_serves a).requests) w hw
    (h.trans delivery).trans (requests_foldl m (fun q a _ _ => (q.joinLaneRead_serves a).requests) _
      ((congrArg Prod.snd delivery.waits).trans hw))
  unfold State.moveReads
  exact joins _ _ _ (State.setBank_requests rfl) hr

end

/-! ## The switch (R134) -/

section
variable {s : State} {q : Relocation} {g i : Nat}

/-- The target stands for the failed block, in its state; the relocation is over, and the failed page's buffer free. -/
def State.switched (s : State) (q : Relocation) (g i : Nat) : State :=
  ((((s.replaceBlock q.owner q.failed g).setBlockState g (s.block q.failed).state).dropReloc q.failed).freeBuf i)

/-- The buffers of the failed block are the target's, and those that were held are offered. -/
def State.buffersMoved (s : State) (q : Relocation) (g i : Nat) : State :=
  let later := s.stc.buffers.filter (fun e => e.2.block == q.failed && e.1 != i)
  let held : Table Nat := (later.filter (fun e => e.2.held)).foldl (fun (m : Table Nat) e => m.put e.2.page e.1) []
  held.foldl (fun u e => u.offer e.2)
    (later.foldl (fun u e => u.setBuf e.1 { e.2 with block := g, held := false }) (s.switched q g i))

theorem State.switchReloc_eq (s : State) (q : Relocation) (g i : Nat) : s.switchReloc q g i
    = ((((s.buffersMoved q g i).moveReads q.failed g).badBlock q.failed).protectTest g).nextReloc q.owner := rfl

theorem State.buffersMoved_requests (hr : (s.switched q g i).stc.relocations = []) :
    State.requests i (s.switched q g i) (s.buffersMoved q g i) := by
  have moves := requests_foldl (i := i) (f := fun u (e : Nat × Buf) => u.setBuf e.1 { e.2 with block := g, held := false })
    (s.stc.buffers.filter (fun e => e.2.block == q.failed && e.1 != i))
    (fun u e he _ => u.setBuf_requests (fun same => by
      have test := (List.mem_filter.1 he).2
      rw [← same, bne_self_eq_false, Bool.and_false] at test
      cases test) _) (s.switched q g i) hr
  exact moves.trans (requests_foldl _ (fun u e _ hr => State.offer_requests hr e.2) _
    ((congrArg Prod.snd moves.waits).trans hr))

theorem State.protectTest_unpublished (h : s.inPublished g = false) : s.protectTest g = s := by
  unfold State.protectTest
  rw [h]
  rfl

variable {slot : Nat} {r : Role} {x : Run}

/-- A run in whose block list one block stands for another. -/
def Run.replaced (x : Run) (failed g : Nat) : Run :=
  { x with
    blocks := x.blocks.map (fun k => if k = failed then g else k)
    lastBank := if x.blocks.getLast? = some failed then some (bankOf g) else x.lastBank }

theorem State.switched_run (run : q.owner = .run slot r) (hx : s.run? slot r = some x) :
    s.switched q g i = ((((s.setRun slot r (x.replaced q.failed g)).setBlockState g
      (s.block q.failed).state).dropReloc q.failed).freeBuf i) := by
  have replaces : s.replaceBlock q.owner q.failed g = s.setRun slot r (x.replaced q.failed g) := by
    unfold State.replaceBlock
    rw [run]
    dsimp only
    rw [hx]
    rfl
  rw [State.switched, replaces]

theorem State.dropReloc_only (hr : s.stc.relocations = [q]) : (s.dropReloc q.failed).stc.relocations = [] := by
  show s.stc.relocations.filter (fun r => r.failed != q.failed) = []
  rw [hr]
  simp

/-- What the switch of a run's block does. -/
structure State.switches (s t : State) (q : Relocation) (g i : Nat) (slot : Nat) (r : Role) (x : Run) : Prop where
  waits : t.waits = ([], [])
  failed : (t.block q.failed).state = .bad
  target : (t.block g).state = (s.block q.failed).state
  unused : t.buf? i = none
  run : t.run? slot r = some (x.replaced q.failed g)
  unqueued : ∀ k, s.unqueued k → t.unqueued k

theorem State.switchReloc_switches (hc : s.stc.claims = []) (hr : s.stc.relocations = [q]) (run : q.owner = .run slot r)
    (hx : s.run? slot r = some x) (other : q.failed ≠ g) (unpublished : s.inPublished g = false)
    (failed : s.unqueued q.failed) (target : s.unqueued g) : s.switches (s.switchReloc q g i) q g i slot r x := by
  obtain ⟨m, hm⟩ : ∃ m, m = s.switched q g i := ⟨_, rfl⟩
  obtain ⟨u, hu⟩ : ∃ u, u = (s.buffersMoved q g i).moveReads q.failed g := ⟨_, rfl⟩
  have shape := hm.trans (State.switched_run (g := g) (i := i) run hx)
  have relocs : m.stc.relocations = [] := by
    rw [shape]
    exact State.dropReloc_only (s := (s.setRun slot r (x.replaced q.failed g)).setBlockState g _) hr
  have claims : m.stc.claims = [] := by rw [shape]; exact hc
  have queue : ∀ k, s.unqueued k → m.unqueued k := fun k hk => by rw [shape]; exact hk
  have opened : (m.block g).state = (s.block q.failed).state := by
    rw [shape]
    exact State.block_setBlockState_same s g _
  have runs : m.run? slot r = some (x.replaced q.failed g) := by
    rw [shape]
    exact State.run?_setRun_same ..
  have unused : m.buf? i = none := by
    rw [shape]
    exact Table.at?_del_same ..
  have moved : State.requests i m u := by
    have buffers := State.buffersMoved_requests (s := s) (q := q) (g := g) (i := i) (hm ▸ relocs)
    rw [hm, hu]
    exact buffers.trans (State.moveReads_requests ((congrArg Prod.snd buffers.waits).trans (hm ▸ relocs)) ..)
  have marks : State.requests i (u.setBlockState q.failed .bad) (u.badBlock q.failed) :=
    (State.joinCopy_serves ..).requests
  have waits : (u.badBlock q.failed).waits = ([], []) := by
    rw [State.badBlock_waits, moved.waits, State.waits, claims, relocs]
  have extents : (u.badBlock q.failed).stc.extents = s.stc.extents := by
    refine marks.extents.trans (moved.extents.trans ?_)
    rw [shape]
    rfl
  have ends : s.switchReloc q g i = u.badBlock q.failed := by
    have notPublished : (u.badBlock q.failed).inPublished g = false := by
      rw [State.inPublished, extents]
      exact unpublished
    rw [State.switchReloc_eq, ← hu, State.protectTest_unpublished notPublished,
      State.nextReloc_none (congrArg Prod.snd waits)]
  have stays : ∀ k, s.unqueued k → u.unqueued k := fun k hk => moved.unqueued (queue k hk)
  rw [ends]
  exact {
    waits := waits
    failed := congrArg BlockRec.state (State.badBlock_state _ _ (stays _ failed 0))
    target := by
      rw [marks.block g (stays g target), State.block_setBlockState_ne _ _ other.symm, moved.block g (queue g target)]
      exact opened
    unused := marks.unused (moved.unused unused)
    run := by
      rw [← runs]
      exact congrArg (fun y : Table Run => y.at? (roleKey slot r)) (marks.runs.trans moved.runs)
    unqueued := fun k hk => marks.unqueued (stays k hk) }

end

section
variable {s : State} {b slot : Nat} {p : ProgramReq} {buf : Buf} {q : Relocation} {r : Role} {x : Run}

theorem exec_programEnd_switches (op : (s.bank b).op = some (.program p)) (hb : s.buf? p.buffer = some buf)
    (owner : buf.owner = .own q.owner) (kept : buf.discarded = false) (hc : s.stc.claims = [])
    (hr : s.stc.relocations = [q]) (active : q.active = true) (final : q.final = true)
    (target : q.target = some p.block) (other : q.failed ≠ p.block) (run : q.owner = .run slot r)
    (hx : s.run? slot r = some x) (unpublished : s.inPublished p.block = false) (failed : s.unqueued q.failed)
    (unqueued : s.unqueued p.block) :
    ∃ t, exec (.programEnd b true) s = .next t ∧ t.stc.relocations = [] ∧ (t.block q.failed).state = .bad
      ∧ (t.block p.block).state = (s.block q.failed).state ∧ t.buf? p.buffer = none
      ∧ t.run? slot r = some (x.replaced q.failed p.block) := by
  obtain ⟨e, he⟩ : ∃ e, e = (s.opEnded b).programPage p.block p.page buf.data := ⟨_, rfl⟩
  have relocs : e.stc.relocations = [q] := by rw [he]; exact hr
  have queue : ∀ k, s.unqueued k → e.unqueued k := fun k hk c => by
    rw [he]
    show k ∉ ((s.opEnded b).bank c).eraseQueue
    rw [State.opEnded_queue]
    exact hk c
  have done : (s.opEnded b).programDone p buf = e.switchReloc q p.block p.buffer := by
    unfold State.programDone
    dsimp only
    rw [kept, if_neg Bool.false_ne_true, ← he, State.relocOf_target relocs active final target owner, owner]
  have switches : e.switches (e.switchReloc q p.block p.buffer) q p.block p.buffer slot r x :=
    State.switchReloc_switches (by rw [he]; exact hc) relocs run (by rw [he]; exact hx) other
      (by rw [he]; exact unpublished) (queue _ failed) (queue _ unqueued)
  obtain ⟨y, hy⟩ : ∃ y, y = e.switchReloc q p.block p.buffer := ⟨_, rfl⟩
  rw [← hy] at switches
  have served : State.requests p.buffer y (y.arbitrate b) := (y.arbitrate_serves b).requests
  have rest : (y.arbitrate b).stc.claims = [] ∧ (y.arbitrate b).stc.relocations = [] :=
    Prod.mk.injEq .. ▸ served.waits.trans switches.waits
  have ends : exec (.programEnd b true) s = .next (y.arbitrate b) := by
    rw [exec_programEnd op, State.endProgram_bound hb]
    show Host.Outcome.next (((s.opEnded b).programDone p buf).arbitrate b).serveClaims = _
    rw [done, ← hy, State.serveClaims_nil ⟨rest.1, by rw [rest.2]; simp⟩]
  refine ⟨_, ends, rest.2, ?_, ?_, served.unused switches.unused, ?_⟩
  · rw [served.block _ (switches.unqueued _ (queue _ failed))]
    exact switches.failed
  · rw [served.block _ (switches.unqueued _ (queue _ unqueued)), switches.target, he]
    rfl
  · rw [← switches.run]
    exact congrArg (fun y : Table Run => y.at? (roleKey slot r)) served.runs

end

end Sys2Proof.Machine
end

section
/-! PROOF. The pages of a failed block return to the relocation that asked for them (R134): a page in error is lost, and
each other page is programmed into the target (O54). -/

namespace Sys2Proof.Machine

/-! ## What the return of a page leaves -/

/-- From `s` to `t` the page buffers bound to page `k` stay in use with their bytes, and so do the programs of the copy
class and the lost pages. -/
structure State.keepsPage (k : Nat) (s t : State) : Prop where
  buffers : ∀ i c, s.buf? i = some c → c.page = k → t.buf? i = some c ∨ t.buf? i = some { c with state := .programming }
  copiesIn : ∀ b p, (s.bank b).copiesIn p → (t.bank b).copiesIn p
  lost : ∀ g, (s.block g).lost ⊆ (t.block g).lost

/-- From `s` to `t` page `p` of the failed block of relocation `q` has returned, or nothing has. -/
structure State.returns (q : Relocation) (p : Nat) (s t : State) : Prop where
  sorted : s.stc.buffers.sorted → t.stc.buffers.sorted
  claims : t.stc.claims = s.stc.claims
  relocates : s.relocatesOnly q → t.relocatesOnly q
  mem : t.mem = s.mem
  back : ∀ j d, t.buf? j = some d → ∃ c, s.buf? j = some c ∧ d.bound = c.bound
  keeps : ∀ k, k ≠ p → s.keepsPage k t

section
variable {s t u : State} {q : Relocation} {i k p g : Nat}

theorem State.goesOn.keepsPage (h : s.goesOn t) (k : Nat) : s.keepsPage k t :=
  ⟨fun i c hc _ => h.buffers i c hc, h.copiesIn, h.lost⟩

/-- A page buffer in use stays so, with its bytes. -/
theorem State.goesOn.bytes (h : s.goesOn t) {c : Buf} (hc : s.buf? i = some c) :
    ∃ d, t.buf? i = some d ∧ d.data = c.data ∧ d.committed = c.committed ∧ d.page = c.page := by
  rcases h.buffers i c hc with e | e
  · exact ⟨c, e, rfl, rfl, rfl⟩
  · exact ⟨_, e, rfl, rfl, rfl⟩

theorem State.keepsPage.trans (h : s.keepsPage k t) (h' : t.keepsPage k u) : s.keepsPage k u where
  buffers i c hc hk := by
    rcases h.buffers i c hc hk with e | e
    · exact h'.buffers i c e hk
    · exact .inr ((h'.buffers i _ e hk).elim id id)
  copiesIn b p hp := h'.copiesIn b p (h.copiesIn b p hp)
  lost g _ hm := h'.lost g (h.lost g hm)

theorem State.returns.trans (h : s.returns q p t) (h' : t.returns q p u) : s.returns q p u where
  sorted hs := h'.sorted (h.sorted hs)
  claims := h'.claims.trans h.claims
  relocates hs := h'.relocates (h.relocates hs)
  mem := h'.mem.trans h.mem
  back j d hd := by
    obtain ⟨c, hc, bound⟩ := h'.back j d hd
    obtain ⟨e, he, bound'⟩ := h.back j c hc
    exact ⟨e, he, bound.trans bound'⟩
  keeps k hk := (h.keeps k hk).trans (h'.keeps k hk)

theorem State.returns_refl (q : Relocation) (p : Nat) (s : State) : s.returns q p s :=
  ⟨id, rfl, id, rfl, fun _ d hd => ⟨d, hd, rfl⟩, fun k _ => s.goesOn_refl.keepsPage k⟩

theorem State.serves.returns {b : Nat} (h : s.serves t b) : s.returns q p t where
  sorted := h.starts.sorted
  claims := h.drops.claims
  relocates hs := hs.of_eq h.drops.relocations
  mem := State.mem_of_still h.still
  back := h.starts.bindsAs.back
  keeps k _ := h.goesOn.keepsPage k

theorem State.losePages_returns (s : State) (g : Nat) (pages : List Nat) : s.returns q p (s.losePages g pages) :=
  ⟨id, rfl, id, rfl, fun _ d hd => ⟨d, hd, rfl⟩, fun k _ => (s.losePages_goesOn g pages).keepsPage k⟩

theorem State.pageCopied_goesOn (s : State) (o : Owner) (page : Nat) : s.goesOn (s.pageCopied o page) := by
  unfold State.pageCopied
  split
  · exact s.goesOn_refl
  · exact s.setReloc_goesOn _

theorem State.pageCopied_relocatesOnly (h : s.relocatesOnly q) (o : Owner) (page : Nat) :
    (s.pageCopied o page).relocatesOnly q := by
  unfold State.pageCopied
  split
  · exact h
  next r found =>
    obtain ⟨next, copying, final, hr⟩ := h
    obtain rfl := State.activeReloc_of_only hr found
    exact State.relocatesOnly.setReloc ⟨next, copying, final, hr⟩ next _ final

theorem State.pageCopied_returns (s : State) (o : Owner) (page : Nat) : s.returns q p (s.pageCopied o page) := by
  have buffers : (s.pageCopied o page).stc.buffers = s.stc.buffers := by unfold State.pageCopied; split <;> rfl
  exact {
    sorted := fun hs => buffers ▸ hs
    claims := by unfold State.pageCopied; split <;> rfl
    relocates := fun h => State.pageCopied_relocatesOnly h o page
    mem := by unfold State.pageCopied; split <;> rfl
    back := (State.bindsAs_of_buffers buffers).back
    keeps := fun k _ => (s.pageCopied_goesOn o page).keepsPage k }

variable {c : Buf}

theorem State.freeBuf_returns (hc : s.buf? i = some c) (page : c.page = p) : s.returns q p (s.freeBuf i) where
  sorted := Table.sorted_del _ _
  claims := rfl
  relocates := id
  mem := rfl
  back j d hd := by
    by_cases hj : j = i
    · rw [hj] at hd
      exact absurd ((Table.at?_del_same ..).symm.trans hd) nofun
    · exact ⟨d, (Table.at?_del_ne _ hj).symm.trans hd, rfl⟩
  keeps k hk := by
    refine ⟨fun j e he onPage => .inl ((Table.at?_del_ne _ fun hj => hk ?_).trans he), fun _ _ => id, fun _ _ => id⟩
    rw [hj] at he
    obtain rfl := Option.some.inj (he.symm.trans hc)
    exact onPage.symm.trans page

theorem State.setBuf_returns (hc : s.buf? i = some c) (page : c.page = p) {d : Buf} (hd : d.bound = c.bound) :
    s.returns q p (s.setBuf i d) where
  sorted := Table.sorted_put _ _ _
  claims := rfl
  relocates := id
  mem := rfl
  back := (State.setBuf_bindsAs hc hd).back
  keeps k hk := by
    refine ⟨fun j e he onPage => .inl ((State.buf?_setBuf_ne _ _ fun hj => hk ?_).trans he), fun _ _ => id,
      fun _ _ => id⟩
    rw [hj] at he
    obtain rfl := Option.some.inj (he.symm.trans hc)
    exact onPage.symm.trans page

/-- A page buffer bound alone to another page stays so. -/
theorem State.returns.solelyBound (h : s.returns q p t) (hk : k ≠ p) {o : BufOwner}
    (sole : s.solelyBound i o g k) : t.solelyBound i o g k := by
  obtain ⟨c, hc, -, -, onPage, -⟩ := sole.1
  refine State.solelyBound_of sole ?_ h.back
  rcases (h.keeps k hk).buffers i c hc onPage with e | e
  · rw [e, hc]
  · rw [e, hc]
    rfl

/-! ## A page returns -/

/-- A buffer of the relocation is offered for a program into the target. -/
theorem State.offer_copy {o : Owner} (hc : s.buf? i = some c) (owner : c.owner = .relocation o)
    (calm : s.relocating c.block = false) : s.offer i = s.joinCopy (bankOf c.block) (.program ⟨i, c.block, c.page⟩) := by
  unfold State.offer
  rw [hc]
  dsimp only
  rw [calm, if_neg Bool.false_ne_true, owner]

/-- The buffer of the copy bound to a page. -/
def State.copyBuffer (s : State) (o : Owner) (k : Nat) : Option (Nat × Buf) :=
  s.stc.buffers.find? (fun e => e.2.owner == .relocation o && e.2.page == k && !e.2.discarded)

/-- A buffer with the bytes of its page, all committed, that waits for its program. -/
def Buf.filled (c : Buf) (bytes : List Byte) : Buf := { c with state := .pending, data := bytes, committed := 4096 }

theorem Buf.filled_bound (c : Buf) (bytes : List Byte) : (c.filled bytes).bound = c.bound := rfl

theorem Buf.filled_data (c : Buf) (bytes : List Byte) : (c.filled bytes).data = bytes := rfl

theorem Buf.filled_committed (c : Buf) (bytes : List Byte) : (c.filled bytes).committed = 4096 := rfl

/-- The page has returned, with an error or well. -/
def State.pageReturned (s : State) (o : Owner) (g failed : Nat) (errors : List Nat) (k : Nat) : State :=
  match s.copyBuffer o k with
  | none => s
  | some e =>
    if errors.contains k then ((s.freeBuf e.1).losePages g [k]).pageCopied o k
    else (s.setBuf e.1 (e.2.filled (s.bankPage failed k))).offer e.1

theorem State.relocRead_eq (hr : s.stc.relocations = [q]) (active : q.active = true) (target : q.target = some g)
    (r : ReadReq) (errors : List Nat) : s.relocRead q.owner r errors
      = r.pages.foldl (fun u k => u.pageReturned q.owner g r.block errors k) s := by
  unfold State.relocRead
  rw [State.activeReloc_only hr active]
  dsimp only
  rw [target]
  rfl

/-- The copy of relocation `q` into block `g` is under way. -/
structure State.copiesInto (s : State) (q : Relocation) (g : Nat) : Prop where
  sorted : s.stc.buffers.sorted
  relocates : s.relocatesOnly q
  aimed : ∀ j c, s.buf? j = some c → c.owner = .relocation q.owner → c.discarded = false → c.block = g

theorem State.returns.copiesInto (h : s.returns q p t) (hs : s.copiesInto q g) : t.copiesInto q g where
  sorted := h.sorted hs.sorted
  relocates := h.relocates hs.relocates
  aimed j d hd owner kept := by
    obtain ⟨c, hc, bound⟩ := h.back j d hd
    simp only [Buf.bound, Prod.mk.injEq] at bound
    obtain ⟨owner', block, -, kept'⟩ := bound
    exact block.trans (hs.aimed j c hc (owner'.symm.trans owner) (kept'.symm.trans kept))

theorem State.relocatesOnly.calm (h : s.relocatesOnly q) (other : g ≠ q.failed) : s.relocating g = false := by
  obtain ⟨next, copying, final, hr⟩ := h
  rw [State.relocating, hr]
  simp [Relocation.copied, other.symm]

theorem State.copyBuffer_some {o : Owner} (hs : s.stc.buffers.sorted) {e : Nat × Buf}
    (h : s.copyBuffer o k = some e) :
    s.buf? e.1 = some e.2 ∧ e.2.owner = .relocation o ∧ e.2.page = k ∧ e.2.discarded = false := by
  have test := List.find?_some h
  simp only [Bool.and_eq_true, beq_iff_eq, Bool.not_eq_true'] at test
  obtain ⟨⟨owner, page⟩, kept⟩ := test
  exact ⟨Table.at?_of_mem hs (List.mem_of_find?_eq_some h), owner, page, kept⟩

/-- The buffer bound alone to the page is the one found. -/
theorem State.copyBuffer_of_solelyBound (hs : s.copiesInto q g) (sole : s.solelyBound i (.relocation q.owner) g k) :
    ∃ c, s.copyBuffer q.owner k = some (i, c) := by
  obtain ⟨⟨c, hc, owner, -, page, kept⟩, only⟩ := sole
  have found : (s.copyBuffer q.owner k).isSome := List.find?_isSome.2
    ⟨(i, c), Table.mem_of_at? hc, by simp [owner, page, kept]⟩
  obtain ⟨⟨j, d⟩, he⟩ := Option.isSome_iff_exists.1 found
  obtain ⟨hd, owner', page', kept'⟩ := State.copyBuffer_some hs.sorted he
  obtain rfl := only j d hd owner' (hs.aimed j d hd owner' kept') page'
  exact ⟨d, he⟩

variable {errors : List Nat}

/-- A page in error is lost. -/
theorem State.pageReturned_bad {o : Owner} {e : Nat × Buf} (h : s.copyBuffer o k = some e) (bad : k ∈ errors)
    (failed : Nat) :
    s.pageReturned o g failed errors k = ((s.freeBuf e.1).losePages g [k]).pageCopied o k := by
  unfold State.pageReturned
  rw [h]
  exact if_pos (List.contains_iff_mem.2 bad)

/-- A page that returns well is asked to be programmed from its buffer. -/
theorem State.pageReturned_good (hs : s.copiesInto q g) (other : g ≠ q.failed) {e : Nat × Buf}
    (h : s.copyBuffer q.owner k = some e) (good : k ∉ errors) :
    s.pageReturned q.owner g q.failed errors k
      = (s.setBuf e.1 (e.2.filled (s.bankPage q.failed k))).joinCopy (bankOf g) (.program ⟨e.1, g, k⟩) := by
  obtain ⟨hc, owner, page, kept⟩ := State.copyBuffer_some hs.sorted h
  have block := hs.aimed _ _ hc owner kept
  unfold State.pageReturned
  rw [h]
  dsimp only
  obtain ⟨d, hd⟩ : ∃ d, d = e.2.filled (s.bankPage q.failed k) := ⟨_, rfl⟩
  have dblock : d.block = g := by rw [hd]; exact block
  have dpage : d.page = k := by rw [hd]; exact page
  have calm : (s.setBuf e.1 d).relocating d.block = false := by
    rw [dblock]
    exact State.relocatesOnly.calm (s := s.setBuf e.1 d) hs.relocates other
  rw [if_neg (fun m => good (List.contains_iff_mem.1 m)), ← hd,
    State.offer_copy (State.buf?_setBuf_same ..) (by rw [hd]; exact owner) calm, dblock, dpage]

theorem State.pageReturned_returns (hs : s.copiesInto q g) (other : g ≠ q.failed) (k : Nat) :
    s.returns q k (s.pageReturned q.owner g q.failed errors k) := by
  cases h : s.copyBuffer q.owner k with
  | none =>
    unfold State.pageReturned
    rw [h]
    exact s.returns_refl q k
  | some e =>
    obtain ⟨hc, -, page, -⟩ := State.copyBuffer_some hs.sorted h
    by_cases bad : k ∈ errors
    · rw [State.pageReturned_bad h bad]
      exact ((State.freeBuf_returns hc page).trans (State.losePages_returns ..)).trans (State.pageCopied_returns ..)
    · rw [State.pageReturned_good hs other h bad]
      exact (State.setBuf_returns hc page (Buf.filled_bound ..)).trans (State.joinCopy_serves ..).returns

/-! ## What has become of a page -/

/-- In `t` page `k` of the failed block is lost, or goes from buffer `i`, with its bytes, into the target. -/
structure State.pageMoved (t : State) (g i k : Nat) (errors : List Nat) (bytes : List Byte) : Prop where
  lost : k ∈ errors → k ∈ (t.block g).lost
  copied : k ∉ errors → (t.bank (bankOf g)).copiesIn ⟨i, g, k⟩
    ∧ ∃ c, t.buf? i = some c ∧ c.data = bytes ∧ c.committed = 4096 ∧ c.page = k

variable {bytes : List Byte}

theorem State.pageMoved.keeps (h : s.pageMoved g i k errors bytes) (h' : s.keepsPage k t) :
    t.pageMoved g i k errors bytes where
  lost hk := h'.lost g (h.lost hk)
  copied hk := by
    obtain ⟨copies, c, hc, data, committed, page⟩ := h.copied hk
    refine ⟨h'.copiesIn _ _ copies, ?_⟩
    rcases h'.buffers i c hc page with e | e
    · exact ⟨c, e, data, committed, page⟩
    · exact ⟨_, e, data, committed, page⟩

theorem State.pageReturned_moves (hs : s.copiesInto q g) (other : g ≠ q.failed)
    (sole : s.solelyBound i (.relocation q.owner) g k) :
    (s.pageReturned q.owner g q.failed errors k).pageMoved g i k errors (s.bankPage q.failed k) := by
  obtain ⟨c, found⟩ := State.copyBuffer_of_solelyBound hs sole
  obtain ⟨hc, -, page, -⟩ := State.copyBuffer_some hs.sorted found
  refine ⟨fun bad => ?_, fun good => ?_⟩
  · rw [State.pageReturned_bad found bad]
    refine (State.pageCopied_goesOn ..).lost g ?_
    rw [State.losePages_block]
    exact List.mem_append_right _ (List.mem_singleton.2 rfl)
  · rw [State.pageReturned_good hs other found good]
    refine ⟨State.joinCopy_copiesIn .., ?_⟩
    obtain ⟨d, hd, data, committed, onPage⟩ := (State.joinCopy_goesOn ..).bytes (State.buf?_setBuf_same ..)
    exact ⟨d, hd, data.trans (Buf.filled_data ..), committed.trans (Buf.filled_committed ..), onPage.trans page⟩

/-- Every page of a READ returns. -/
theorem State.pagesReturned_moves (other : g ≠ q.failed) (pages : List Nat) (s : State) (hs : s.copiesInto q g)
    (once : pages.Nodup) :
    let t := pages.foldl (fun u k => u.pageReturned q.owner g q.failed errors k) s
    t.stc.claims = s.stc.claims
      ∧ (∀ k, k ∉ pages → s.keepsPage k t)
      ∧ ∀ k ∈ pages, ∀ i, s.solelyBound i (.relocation q.owner) g k →
          t.pageMoved g i k errors (s.bankPage q.failed k) := by
  induction pages generalizing s with
  | nil => exact ⟨rfl, fun k _ => s.goesOn_refl.keepsPage k, fun k hk => absurd hk List.not_mem_nil⟩
  | cons p pages ih =>
    obtain ⟨fresh, once⟩ := List.nodup_cons.1 once
    have first := State.pageReturned_returns (errors := errors) hs other p
    obtain ⟨claims, keeps, moves⟩ := ih _ (first.copiesInto hs) once
    refine ⟨claims.trans first.claims, fun k hk => ?_, fun k hk i sole => ?_⟩
    · obtain ⟨ne, rest⟩ := not_or.1 (mt List.mem_cons.2 hk)
      exact (first.keeps k ne).trans (keeps k rest)
    · by_cases same : k = p
      · rw [same] at sole ⊢
        exact (State.pageReturned_moves hs other sole).keeps (keeps p fresh)
      · have bytes : (s.pageReturned q.owner g q.failed errors p).bankPage q.failed k = s.bankPage q.failed k :=
          congrArg (fun m => memBytes m _ _) first.mem
        rw [← bytes]
        exact moves k ((List.mem_cons.1 hk).resolve_left same) i (first.solelyBound same sole)

end

section
variable {s : State} {b low high g : Nat} {pages errors : List Nat} {q : Relocation}

theorem exec_readEnd_copies
    (op : (s.bank b).op = some (.read ⟨.relocation q.owner, q.failed, pages, low, high⟩ true))
    (hr : s.stc.relocations = [q]) (active : q.active = true) (target : q.target = some g) (other : g ≠ q.failed)
    (hc : s.stc.claims = []) (hs : s.stc.buffers.sorted) (once : pages.Nodup)
    (aimed : ∀ j c, s.buf? j = some c → c.owner = .relocation q.owner → c.discarded = false → c.block = g) :
    ∃ t, exec (.readEnd b errors) s = .next t ∧ ∀ k ∈ pages, ∀ i, s.solelyBound i (.relocation q.owner) g k →
      t.pageMoved g i k errors (s.bankPage q.failed k) := by
  obtain ⟨u, hu⟩ : ∃ u, u = pages.foldl (fun u k => u.pageReturned q.owner g q.failed errors k) (s.opEnded b) := ⟨_, rfl⟩
  have returned : (s.opEnded b).returnRead ⟨.relocation q.owner, q.failed, pages, low, high⟩ true errors = u := by
    rw [hu]
    exact State.relocRead_eq (s := s.opEnded b) hr active target ⟨.relocation q.owner, q.failed, pages, low, high⟩ errors
  obtain ⟨claims, -, moves⟩ := State.pagesReturned_moves (errors := errors) other pages (s.opEnded b)
    ⟨hs, State.relocatesOnly_of hr, aimed⟩ once
  rw [← hu] at claims moves
  have served := u.arbitrate_serves b
  have goes := served.goesOn.trans (State.serveClaims_goesOn (served.drops.claims.trans (claims.trans hc)))
  refine ⟨(u.arbitrate b).serveClaims, ?_, fun k hk i sole => (moves k hk i sole).keeps (goes.keepsPage k)⟩
  rw [exec_readEnd op]
  show Host.Outcome.next ((((s.opEnded b).returnRead _ true errors).arbitrate b).serveClaims) = _
  rw [returned]

end

end Sys2Proof.Machine
end

section
/-! PROOF. A copied page has been programmed into the target, and the copy goes on (R134); the parts of the source low
mark and of relocation together (O54). -/

namespace Sys2Proof.Machine

/-! ## A copied page is in the target (R134) -/

section
variable {s : State} {b g : Nat} {p : ProgramReq} {buf : Buf} {q : Relocation}

/-- The relocation with nothing of its copy under way. -/
def Relocation.idled (q : Relocation) : Relocation := { q with copying := [] }

/-- The page's buffer is free, and the page has left the copy. -/
def State.pageLanded (s : State) (b : Nat) (p : ProgramReq) (buf : Buf) (q : Relocation) : State :=
  ((((s.opEnded b).programPage p.block p.page buf.data).freeBuf p.buffer).setReloc q.idled).arbitrate b

/-- The buffers in use after a copied page has landed, but for its own, are bound as they were. -/
theorem State.pageLanded_keeps {i : Nat} (h : i ≠ p.buffer) :
    ((s.pageLanded b p buf q).buf? i).map Buf.bound = (s.buf? i).map Buf.bound := by
  refine ((State.arbitrate_serves _ b).starts.bindsAs i).trans (congrArg (Option.map Buf.bound) ?_)
  exact Table.at?_del_ne _ h

theorem State.pageLanded_back (j : Nat) (d : Buf) (hd : (s.pageLanded b p buf q).buf? j = some d) :
    ∃ c, s.buf? j = some c ∧ d.bound = c.bound := by
  obtain ⟨c, hc, bound⟩ := (State.arbitrate_serves _ b).starts.bindsAs.back j d hd
  refine ⟨c, ?_, bound⟩
  by_cases hj : j = p.buffer
  · rw [hj] at hc
    exact absurd ((Table.at?_del_same ..).symm.trans hc) nofun
  · exact (Table.at?_del_ne _ hj).symm.trans hc

theorem State.pageLanded_unused : (s.pageLanded b p buf q).buf? p.buffer = none :=
  (State.arbitrate_serves _ b).starts.unused (Table.at?_del_same ..)

theorem State.pageLanded_sorted (hs : s.stc.buffers.sorted) : (s.pageLanded b p buf q).stc.buffers.sorted :=
  (State.arbitrate_serves _ b).starts.sorted (Table.sorted_del _ _ hs)

theorem State.pageLanded_lost (k : Nat) : ((s.pageLanded b p buf q).block k).lost = (s.block k).lost :=
  (State.arbitrate_serves _ b).lost k

theorem State.pageLanded_freeBuffers (hs : s.stc.buffers.sorted) (hb : s.buf? p.buffer = some buf) :
    s.freeBuffers ≤ (s.pageLanded b p buf q).freeBuffers := by
  obtain ⟨m, hm⟩ : ∃ m, m = (((s.opEnded b).programPage p.block p.page buf.data).freeBuf p.buffer).setReloc q.idled :=
    ⟨_, rfl⟩
  have buffers : m.stc.buffers = s.stc.buffers.del p.buffer := by rw [hm]; rfl
  have sorted : m.stc.buffers.sorted := buffers ▸ Table.sorted_del _ _ hs
  have served := m.arbitrate_serves b
  have same := served.starts.bindsAs.freeBuffers sorted (served.starts.sorted sorted)
  have length := Table.length_del hs hb
  rw [State.pageLanded, ← hm, same, State.freeBuffers, State.freeBuffers, buffers]
  exact Nat.sub_le_sub_left (by omega) _

variable (op : (s.bank b).op = some (.program p)) (hb : s.buf? p.buffer = some buf)
  (owner : buf.owner = .relocation q.owner) (kept : buf.discarded = false) (hc : s.stc.claims = [])
  (hr : s.stc.relocations = [q]) (active : q.active = true)

include hc in
theorem State.pageLanded_claims : (s.pageLanded b p buf q).stc.claims = [] :=
  (State.arbitrate_serves _ b).drops.claims.trans hc

include hr in
theorem State.pageLanded_relocations : (s.pageLanded b p buf q).stc.relocations = [q.idled] :=
  (State.arbitrate_serves _ b).drops.relocations.trans
    (State.setReloc_only (s := ((s.opEnded b).programPage p.block p.page buf.data).freeBuf p.buffer) hr rfl)

section
include op hb owner kept hr active

theorem exec_programEnd_lands (last : q.copying = [p.page]) :
    exec (.programEnd b true) s = .next (s.pageLanded b p buf q).serveClaims := by
  obtain ⟨e, he⟩ : ∃ e, e = (s.opEnded b).programPage p.block p.page buf.data := ⟨_, rfl⟩
  have relocs : e.stc.relocations = [q] := by rw [he]; exact hr
  have found : e.relocOf p buf = some q := by
    unfold State.relocOf
    rw [owner]
    exact State.activeReloc_only relocs active
  have left : q.copying.filter (· != p.page) = [] := by
    rw [last]
    simp
  have copied : (e.freeBuf p.buffer).pageCopied q.owner p.page = (e.freeBuf p.buffer).setReloc q.idled := by
    unfold State.pageCopied
    rw [State.activeReloc_only (s := e.freeBuf p.buffer) relocs active]
    dsimp only
    rw [left]
    rfl
  have done : (s.opEnded b).programDone p buf = (e.freeBuf p.buffer).setReloc q.idled := by
    unfold State.programDone
    dsimp only
    rw [kept, if_neg Bool.false_ne_true, ← he, found, owner]
    exact copied
  rw [exec_programEnd op, State.endProgram_bound hb]
  show Host.Outcome.next (((s.opEnded b).programDone p buf).arbitrate b).serveClaims = _
  rw [done, he]
  rfl

variable (hs : s.stc.buffers.sorted) (target : q.target = some g) (notFinal : q.final = false)
  (last : q.copying = [p.page])
include hs hc target notFinal last

/-- Behind the last page the failed page is programmed into the target. -/
theorem exec_programEnd_thenProgram {i : Nat} (beyond : q.page ≤ q.next)
    (sole : s.solelyBound i (.own q.owner) q.failed q.page) :
    ∃ t, exec (.programEnd b true) s = .next t ∧ t.buf? p.buffer = none
      ∧ t.stc.relocations = [{ q.idled with final := true }] ∧ (t.bank (bankOf g)).copiesIn ⟨i, g, q.page⟩ := by
  have other : i ≠ p.buffer := fun same => by
    obtain ⟨⟨c, hi, own, -⟩, -⟩ := sole
    rw [same, hb] at hi
    obtain rfl := Option.some.inj hi
    rw [owner] at own
    cases own
  have held : (s.pageLanded b p buf q).failingBuffer q.idled = some i :=
    State.failingBuffer_of_solelyBound (q := q.idled) (State.pageLanded_sorted hs)
      (State.solelyBound_of sole (State.pageLanded_keeps other) State.pageLanded_back)
  obtain ⟨relocs, copies, unused⟩ := State.serveClaims_programs (State.pageLanded_claims hc)
    (State.pageLanded_relocations hr) active target notFinal rfl beyond held
  exact ⟨_, exec_programEnd_lands op hb owner kept hr active last, unused _ State.pageLanded_unused, relocs, copies⟩

/-- Before it the next burst is read. -/
theorem exec_programEnd_thenBurst (more : q.next < q.page) (whole : (s.block q.failed).lost = [])
    (room : 8 ≤ s.freeBuffers) :
    ∃ t d, exec (.programEnd b true) s = .next t ∧ t.stc.relocations = [d] ∧ d.target = some g
      ∧ t.bursts d q.owner q.failed g q.next (min 8 (q.page - q.next)) := by
  obtain ⟨relocs, bursts⟩ := State.serveClaims_bursts (State.pageLanded_claims hc)
    (State.pageLanded_relocations hr) active target notFinal rfl more
    ((State.pageLanded_lost _).trans whole) (room.trans (State.pageLanded_freeBuffers hs hb))
  exact ⟨_, _, exec_programEnd_lands op hb owner kept hr active last, relocs, target, bursts⟩

end

end

/-! ## The source low mark and relocation -/

/-- Settles O54: what a low mark retires, what a failed program starts, how the copy goes on and ends, what a mark
abandons, and which claim a freed block serves. -/
theorem sourceLowMark : Obligations.SourceLowMark := by
  refine ⟨fun s slot r mark x hx hc hr => ?_, fun s b p buf o op hb owner kept hs hc => ⟨fun hr => ⟨?_, ?_⟩, ?_⟩, ?_, ?_,
    ?_, ?_⟩
  · exact exec_sourceLowMark_retires hx hc hr mark
  · exact fun g => exec_programEnd_targets op hb owner kept hs hc hr
  · exact exec_programEnd_claims op hb owner kept hs hc hr
  · rintro q hr rfl active final target other
    refine ⟨fun g head differs queue => ?_, fun slot r x run hx unpublished queue => ?_⟩
    · exact exec_programEnd_startsAgain op hb owner kept hs hc hr active final target head differs
        (fun c => (queue c).1) (fun c => (queue c).2)
    · exact exec_programEnd_switches op hb owner kept hc hr active final target other run hx unpublished
        (fun c => (queue c).1) (fun c => (queue c).2)
  · intro s b low high g pages errors q op hr active target other hc hs once _ aimed
    obtain ⟨t, run, moves⟩ := exec_readEnd_copies (errors := errors) op hr active target other hc hs once aimed
    exact ⟨t, run, fun k hk i sole => ⟨(moves k hk i sole).lost, (moves k hk i sole).copied⟩⟩
  · intro s b g p buf q op hb owner kept hs hc hr active target notFinal last
    refine ⟨fun i beyond sole => ?_, fun more whole room => ?_⟩
    · exact exec_programEnd_thenProgram op hb owner kept hc hr active hs target notFinal last beyond sole
    · exact exec_programEnd_thenBurst op hb owner kept hc hr active hs target notFinal last more whole room
  · intro s slot g r mark rest x q hx hb hr own hf active other hc hs low high unqueued
    exact exec_sourceLowMark_abandons hx hb hr hf active other (own ▸ hc) low high unqueued
  · intro s b n slot e r d x hb hn he runs own _ fresh empty hr hc hx
    exact exec_eraseEnd_servesLane hb hn he runs own fresh empty hr hc hx

end Sys2Proof.Machine
end
